-- ==== Sys2Proof/Word.lean ====
section
/-!
DEFINITION. The plain words of the model: bytes, byte strings, little-endian numbers (R4), bit
fields, and the sparse table that every numbered collection of State is held in.
-/

namespace Sys2Proof

/-- One byte; byte 0 of a field is the lowest address (R4). -/
abbrev Byte := BitVec 8

/-- A byte string, lowest address first. -/
abbrev Bytes := List (BitVec 8)

/-- A memory: address and byte pairs, addresses strictly rising, no listed byte zero. -/
abbrev Mem := List (Nat × BitVec 8)

/-- A sparse table: keys strictly rising. What an unlisted key holds is said by its reader. -/
abbrev Tab (α : Type) := List (Nat × α)

/-- The number a little-endian byte string stands for (R4). -/
def leNat : Bytes → Nat
  | [] => 0
  | b :: bs => b.toNat + 256 * leNat bs

/-- The `n` bytes of a number, least significant first (R4). -/
def natLE : Nat → Nat → Bytes
  | 0, _ => []
  | n + 1, v => BitVec.ofNat 8 v :: natLE n (v / 256)

/-- Bits `[hi:lo]` of a number, both ends included (R4). -/
def bitsOf (v hi lo : Nat) : Nat := (v / 2 ^ lo) % 2 ^ (hi + 1 - lo)

/-- Bit `i` of a number. -/
def bitOf (v i : Nat) : Bool := (v / 2 ^ i) % 2 == 1

/-- One for true. -/
def b2n (b : Bool) : Nat := if b then 1 else 0

/-- The field of `len` bytes at byte `off`, read little-endian; bytes past the end read zero. -/
def fieldOf (bs : Bytes) (off len : Nat) : Nat := leNat ((bs.drop off).take len)

/-- The sub-string of `len` bytes at `off`, filled with zeros past the end. -/
def sliceOf (bs : Bytes) (off len : Nat) : Bytes :=
  let s := (bs.drop off).take len
  s ++ List.replicate (len - s.length) 0

/-- Whether every byte of `[off, off + len)` is zero. -/
def zeroAt (bs : Bytes) (off len : Nat) : Bool := ((bs.drop off).take len).all (· == 0)

/-- `a / b` rounded toward +∞. -/
def ceilDiv (a b : Nat) : Nat := (a + b - 1) / b

/-- `a` rounded up to a multiple of `b`. -/
def roundUp (a b : Nat) : Nat := ceilDiv a b * b

/-- Whether `n` is a power of two. -/
def isPow2 (n : Nat) : Bool := n != 0 && 2 ^ n.log2 == n

/-- A counter that saturates at 2^64 − 1. -/
def satAdd (a b : Nat) : Nat := min (a + b) (2 ^ 64 - 1)

/-- Every bit of a 64-bit field set. -/
def ones64 : Nat := 2 ^ 64 - 1

/-- Every bit of a 32-bit field set. -/
def ones32 : Nat := 2 ^ 32 - 1

end Sys2Proof
end

