-- ==== Sys2Proof/Syntax.lean ====
section
/-!
DEFINITION. The commands of the block: one constructor per row of spec/opcode_table.json, with the
operands the outside gives. A host command names the slot of its live handle (R358); a data object in
host memory is an operand (`data`), since host memory is outside the module. An operation names the
core whose sequencer issues it (R9); its fields come from the word at that core's program counter.
-/

namespace Sys2Proof

/-- What ECC finds when an atom is read from DRAM (R260, R261, R262). -/
inductive EccOutcome where
  | clean
  | corrected
  | reread
  | lost
  deriving DecidableEq, Repr

/-- A request at a base die (R245, R246): stack-local address, bytes, hint; `none` is a read. -/
structure StackReq where
  addr : Nat
  len : Nat
  write : Option Bytes
  hint : Nat
  ecc : EccOutcome
  deriving DecidableEq, Repr

/-- A host request through BAR2 (R337). -/
structure Bar2Req where
  len : Nat
  write : Option Bytes
  atomic : Bool
  deriving DecidableEq, Repr

/-- What the codec pipeline of an engine reports when a frame ends (R309, R318, R326): the conditions that
the coded pixels decide. -/
structure FrameResult where
  poisoned : Bool
  unsupported : Bool
  concealed : Bool
  deriving DecidableEq, Repr

/-- The transport of an SPDM request (R381): a port's DOE mailbox, the management controller's MCTP, or
SESSION_OPEN of a function. -/
inductive SpdmSrc where
  | doe (port : Nat)
  | mctp
  | fn (f : Nat)
  deriving DecidableEq, Repr

/-- What the tests of one boot stage find (R77, R240, R247, R285, R412, R413). Unlisted clusters, stacks
and links pass whole; `cores`, `channels` and `lanes` hold one bit for each physical core, channel or lane
that passes, `badWays` by stack × 32,768 + set how many of the set's 17 ways fail. `signed` is false for a failed signature or component check. -/
structure BootResult where
  ok : Bool
  signed : Bool
  cores : Tab Nat
  channels : Tab Nat
  lanes : Tab Nat
  badWays : Tab Nat
  deriving DecidableEq, Repr

/-- The commands, one constructor per row of the table. -/
inductive Instr where
  /-- NOP (R363). Command that does nothing and completes with r0 = 0. -/
  | nop (h : Nat)
  /-- ABORT (R360). Command that aborts the command of a live handle and completes after that command's DONE. -/
  | abort (h : Nat)
  /-- PARTITION_SET_CONFIGURE (R369). PARTITION_SET op 0 creates a partition or changes its adjustable layout fields. -/
  | partitionSetConfigure (h : Nat) (data : Bytes)
  /-- PARTITION_SET_DELETE (R369). PARTITION_SET op 1 scrubs a partition and removes it from the layout. -/
  | partitionSetDelete (h : Nat)
  /-- PARTITION_SET_END_GRACE (R343). PARTITION_SET op 2 ends the grace time of a departed partition at once. -/
  | partitionSetEndGrace (h : Nat)
  /-- MEM_ALLOC (R433). Command that creates a region of the partition's address space and returns its region id. -/
  | memAlloc (h : Nat)
  /-- MEM_FREE (R433). Command that frees a region, zeroing weight regions and discarding unified pages. -/
  | memFree (h : Nat)
  /-- PROGRAM_LOAD (R363). Command that stores a stage program under a program id. -/
  | programLoad (h : Nat) (data : Bytes)
  /-- MICROPROG_LOAD (R141). Command that checks a micro-program image and writes it into the shadow copy of a slot on every core of the partition. -/
  | microprogLoad (h : Nat) (data : Bytes)
  /-- MICROPROG_RESTORE (R146). MICROPROG_LOAD with source 1 restores a shipped micro-program into a slot. -/
  | microprogRestore (h : Nat)
  /-- PIPELINE_SUBMIT (R171). Command that runs the loader checks on a pipeline and stores it in a slot. -/
  | pipelineSubmit (h : Nat) (data : Bytes)
  /-- PIPELINE_RUN (R41). Command that starts a submitted pipeline for window_count windows after the run-time loader checks. -/
  | pipelineRun (h : Nat)
  /-- PIPELINE_STOP (R41). PIPELINE_STOP with delete = 0 ends a running pipeline at the next boundary. -/
  | pipelineStop (h : Nat)
  /-- PIPELINE_STOP_DELETE (R41). PIPELINE_STOP with delete = 1 stops the pipeline if it is running and removes it from its slot. -/
  | pipelineStopDelete (h : Nat)
  /-- TICK_SET (R26). Command that sets the tick period and overrun parameters from the first window at least 800 tc after fetch. -/
  | tickSet (h : Nat)
  /-- WEIGHTS_BIND (R386). Command that decrypts GCM weight ciphertext into a region and makes it a weight region. -/
  | weightsBind (h : Nat) (data : Bytes)
  /-- SEQ_CREATE (R209). Command that creates a sequence or stages a fork of an existing one. -/
  | seqCreate (h : Nat)
  /-- SEQ_APPEND (R222). Command that appends bytes to a sequence and advances its token count, or holds for a page. -/
  | seqAppend (h : Nat) (data : Bytes)
  /-- SEQ_SUSPEND (R235). SEQ_SUSPEND with park = 0 stages a move of the sequence to SUSPENDED at the next commit. -/
  | seqSuspend (h : Nat)
  /-- SEQ_SUSPEND_PARK (R236). SEQ_SUSPEND with park = 1 stages the parking of the sequence's pages and leaves to the store. -/
  | seqSuspendPark (h : Nat)
  /-- SEQ_SUSPEND_EVICT_ONLY (R363). SEQ_SUSPEND with evict_only = 1 only sets the sequence's evictable field. -/
  | seqSuspendEvictOnly (h : Nat)
  /-- SEQ_RESUME_LAZY (R235). SEQ_RESUME with lazy = 1 returns a sequence to ACTIVE and leaves its pages at tier 1. -/
  | seqResumeLazy (h : Nat)
  /-- SEQ_RESUME_EAGER (R235). SEQ_RESUME with lazy = 0 stages migration of every page of a parked sequence into frames. -/
  | seqResumeEager (h : Nat)
  /-- SEQ_DESTROY (R235). Command that stages the destruction of a sequence and the release of its pages. -/
  | seqDestroy (h : Nat)
  /-- PREFIX_LOOKUP_LOOKUP (R229). PREFIX_LOOKUP mode 0 returns the matched token count of a prefix. -/
  | prefixLookupLookup (h : Nat) (data : Bytes)
  /-- PREFIX_LOOKUP_MAP (R229). PREFIX_LOOKUP mode 1 maps the matched blocks into a target sequence at the next commit. -/
  | prefixLookupMap (h : Nat) (data : Bytes)
  /-- PREFIX_LOOKUP_INSERT (R230). PREFIX_LOOKUP mode 2 inserts prefix tree nodes for a sequence's full blocks. -/
  | prefixLookupInsert (h : Nat) (data : Bytes)
  /-- PREFIX_LOOKUP_DROP (R229). PREFIX_LOOKUP mode 3 removes every node of a namespace. -/
  | prefixLookupDrop (h : Nat)
  /-- PAGE_EDIT (R224). Command that stages a batch of page-table edit records, applying immediate records at acceptance. -/
  | pageEdit (h : Nat) (data : Bytes)
  /-- TIER_PREFETCH (R269). Command that starts Folnas migrations for the cold pages of an extent. -/
  | tierPrefetch (h : Nat)
  /-- TIER_FLUSH (R272). Command that writes back dirty sectors of an extent and makes them durable. -/
  | tierFlush (h : Nat)
  /-- VIDEO_SESSION_OPEN (R313). VIDEO_SESSION op 0 opens an encode or decode session on an engine. -/
  | videoSessionOpen (h : Nat) (data : Bytes)
  /-- VIDEO_SESSION_RECONFIG (R313). VIDEO_SESSION op 1 changes a session's rate-control fields from the next frame. -/
  | videoSessionReconfig (h : Nat) (data : Bytes)
  /-- VIDEO_SESSION_CLOSE (R313). VIDEO_SESSION op 2 closes a session once its frames have completed. -/
  | videoSessionClose (h : Nat)
  /-- VIDEO_FRAME (R316). Command that submits one picture or access unit to a session. -/
  | videoFrame (h : Nat) (data : Bytes)
  /-- VIDEO_FRAME_EOS (R318). VIDEO_FRAME with eos set codes every waiting frame and ends the stream. -/
  | videoFrameEos (h : Nat) (data : Bytes)
  /-- COLLECTIVE_LAUNCH (R300). Command that runs a collective record as a one-stage pipeline under the partition's tick. -/
  | collectiveLaunch (h : Nat) (data : Bytes)
  /-- ATTEST (R379). Command that writes a signed attestation report and creates a new import key. -/
  | attest (h : Nat)
  /-- SESSION_OPEN (R381). Command that carries one SPDM request and writes its response. -/
  | sessionOpen (h : Nat) (data : Bytes)
  /-- KEY_IMPORT (R384). KEY_IMPORT op 0 decapsulates and unwraps a model key into a key slot. -/
  | keyImport (h : Nat) (data : Bytes)
  /-- KEY_IMPORT_ERASE (R385). KEY_IMPORT op 1 erases an imported key handle. -/
  | keyImportErase (h : Nat) (data : Bytes)
  /-- KEY_ROTATE (R376). Command that stages a switch to the next key generation at the next commit. -/
  | keyRotate (h : Nat)
  /-- LEDGER_READ (R132). Command that returns the ledger counters and closed records and frees their entries. -/
  | ledgerRead (h : Nat)
  /-- TELEMETRY_READ (R398). Command that returns the records of one telemetry class. -/
  | telemetryRead (h : Nat)
  /-- FW_UPDATE_STAGE (R417). FW_UPDATE op 0 reads and verifies a firmware image into the DRAM reserve. -/
  | fwUpdateStage (h : Nat) (data : Bytes)
  /-- FW_UPDATE_COMMIT (R417). FW_UPDATE op 1 starts erasing and writing the staged image to the SPI NOR store. -/
  | fwUpdateCommit (h : Nat)
  /-- FW_COMMIT_COMPLETE (R417). The image write and read-back end, and the security version is recorded, or read-back fails. -/
  | fwCommitComplete (ok : Bool)
  /-- MM_TILE (R86). Operation that computes one 128 x 128 output tile on the array with bound, flag test and escalation. -/
  | mmTile (core : Nat)
  /-- MM_CONV (R89). Operation that computes one convolution output segment as per-tap shifted products. -/
  | mmConv (core : Nat)
  /-- MM_DRAIN (R90). Operation that writes an accumulator buffer to the scratchpad. -/
  | mmDrain (core : Nat)
  /-- RESIDUAL_FETCH_LANDED (R126). The last byte of B's residual plane lands and the next-rung attempt begins. -/
  | residualFetchLanded (core : Nat)
  /-- QZ_QUANT (R91). Operation that quantizes a wide area to a narrow format with block statistics. -/
  | qzQuant (core : Nat)
  /-- QZ_DEQUANT (R91). Operation that converts a block-format area to BF16, FP16 or FP32. -/
  | qzDequant (core : Nat)
  /-- VX_EW (R92). Operation that applies a vector function element by element. -/
  | vxEw (core : Nat)
  /-- VX_ROW (R92). Operation that applies a vector function with one y and z value per row. -/
  | vxRow (core : Nat)
  /-- VX_COL (R92). Operation that applies a vector function with one y and z row shared by every row. -/
  | vxCol (core : Nat)
  /-- VX_FILL (R92). Operation that fills an area with an immediate value. -/
  | vxFill (core : Nat)
  /-- SF_FN (R93). Operation that applies a built-in special function. -/
  | sfFn (core : Nat)
  /-- SF_PROG (R93). Operation that applies a micro-program from the store. -/
  | sfProg (core : Nat)
  /-- RS_SUM (R94). Operation that writes per-row sums, count and variance. -/
  | rsSum (core : Nat)
  /-- RS_MAX (R95). Operation that writes per-row maxima. -/
  | rsMax (core : Nat)
  /-- RS_SMAX (R95). Operation that updates online softmax state per row. -/
  | rsSmax (core : Nat)
  /-- RS_GAP (R185). Operation that sums or averages each channel over positions. -/
  | rsGap (core : Nat)
  /-- DMA_COPY (R97). Operation that performs a strided copy between endpoints. -/
  | dmaCopy (core : Nat)
  /-- DMA_SEQ (R98). Operation that reads from a sequence's window through the page-table walker. -/
  | dmaSeq (core : Nat)
  /-- DMA_PREFETCH (R99). Operation that requests migrations of cold unified pages of an extent. -/
  | dmaPrefetch (core : Nat)
  /-- DMA_RING (R191). Operation that checks and runs descriptors from a ring in cluster memory. -/
  | dmaRing (core : Nat)
  /-- RING_BURST_FETCH (R192). Core DMA fetches the next burst of ring descriptors once 32 buffer entries are free. -/
  | ringBurstFetch (core : Nat)
  /-- DESCRIPTOR_COMPLETE (R190). A descriptor's last request completes and its operation completes if it was the last. -/
  | descriptorComplete (core : Nat) (index : Nat)
  /-- HX_PUT (R164). Operation that publishes boundary rows into a neighbour's halo buffer for an epoch. -/
  | hxPut (core : Nat)
  /-- HX_GET (R164). Operation that waits for an epoch's halo rows and copies them. -/
  | hxGet (core : Nat)
  /-- HX_FREE (R164). Operation that returns an epoch's halo buffer credit. -/
  | hxFree (core : Nat)
  /-- HALO_WAIT_SATISFIED (R164). A polling hx.put or hx.get finds its used or flag word ready and proceeds. -/
  | haloWaitSatisfied (core : Nat)
  /-- CNT_CLAIM (R167). Operation that fetch-and-increments a work counter. -/
  | cntClaim (core : Nat)
  /-- CNT_ADD (R101). Operation that atomically adds a value to a work counter. -/
  | cntAdd (core : Nat)
  /-- CNT_CAS (R101). Operation that compare-and-swaps a work counter. -/
  | cntCas (core : Nat)
  /-- CNT_READ (R101). Operation that reads a work counter. -/
  | cntRead (core : Nat)
  /-- CNT_STEAL (R168). Operation that marks a claimed, uncommitted tile duplicated. -/
  | cntSteal (core : Nat)
  /-- CNT_COMMIT (R168). Operation that test-and-sets a tile's commit bit, adding DUP_LOST on a losing duplicate. -/
  | cntCommit (core : Nat)
  /-- CNT_CREDIT (R45). Operation that adds to a buffer credit counter. -/
  | cntCredit (core : Nat)
  /-- PG_APPEND (R102). Operation that writes bytes at the end of a sequence and advances its token count. -/
  | pgAppend (core : Nat)
  /-- PG_PUBLISH (R104). Operation that stages page-table edits for the next boundary. -/
  | pgPublish (core : Nat)
  /-- PG_PREFETCH (R217). Operation that starts promotion of a sequence's tier-1 pages. -/
  | pgPrefetch (core : Nat)
  /-- PG_INFO (R104). Operation that writes the sequence's state record. -/
  | pgInfo (core : Nat)
  /-- WALKER_DESCRIPTOR_EMIT (R215). The cluster control core walks the next page and emits its descriptor when DMA room allows. -/
  | walkerDescriptorEmit (cluster : Nat)
  /-- COL_SEND (R105). Operation that sends bytes to a cluster memory endpoint and counts them on a channel. -/
  | colSend (core : Nat)
  /-- COL_RECV (R105). Operation that waits for a channel's byte count and consumes it. -/
  | colRecv (core : Nat)
  /-- COL_RECV_SATISFIED (R105). A waiting col.recv finds its channel counter reached and subtracts it. -/
  | colRecvSatisfied (core : Nat)
  /-- COL_REDUCE (R106). Operation that joins a Usnea all-reduce over a group. -/
  | colReduce (core : Nat)
  /-- COL_BARRIER (R106). Operation that joins a Usnea barrier over a group. -/
  | colBarrier (core : Nat)
  /-- USNEA_GROUP_COMPLETE (R289). The last member's contribution arrives and the reduction or barrier completes at every member. -/
  | usneaGroupComplete (core : Nat)
  /-- SYNC_DONE (R33). Operation that reports done for the window after every earlier operation completes. -/
  | syncDone (core : Nat)
  /-- SYNC_TICK (R33). Operation that reports done if needed and waits for the release. -/
  | syncTick (core : Nat)
  /-- SYNC_WAIT (R107). Operation that waits on a tag, a credit counter or a cluster memory word. -/
  | syncWait (core : Nat)
  /-- SYNC_WAIT_SATISFIED (R107). A polling sync.wait finds its threshold met or its tagged operation complete. -/
  | syncWaitSatisfied (core : Nat)
  /-- SYNC_TIME (R107). Operation that writes the tick replica stamp and window index. -/
  | syncTime (core : Nat)
  /-- CTL_LI (R108). Control operation that loads an immediate into a register. -/
  | ctlLi (core : Nat)
  /-- CTL_ALU (R108). Control operation that computes a register arithmetic result. -/
  | ctlAlu (core : Nat)
  /-- CTL_CMP (R108). Control operation that compares and stores a predicate. -/
  | ctlCmp (core : Nat)
  /-- CTL_PSET (R108). Control operation that sets a predicate from a predicate function. -/
  | ctlPset (core : Nat)
  /-- CTL_BR (R108). Control operation that jumps to a target word. -/
  | ctlBr (core : Nat)
  /-- CTL_LOOP (R108). Control operation that decrements a loop counter and jumps while nonzero. -/
  | ctlLoop (core : Nat)
  /-- CTL_LDR (R108). Control operation that loads a scratchpad word into a register. -/
  | ctlLdr (core : Nat)
  /-- CTL_STR (R108). Control operation that stores a register into a scratchpad word. -/
  | ctlStr (core : Nat)
  /-- CTL_NOP (R108). Control operation that does nothing. -/
  | ctlNop (core : Nat)
  /-- OPERATION_COMPLETE (R61). An issued operation completes, frees its window slot and sets its predicate or faults. -/
  | operationComplete (core : Nat) (index : Nat)
  /-- DONE_REPORT (R33). A core's done report with its stamp offset reaches the tick generator over the Usnea path. -/
  | doneReport (core : Nat)
  /-- TICK_BOUNDARY (R28). The tick generator reaches a boundary instant and a new window begins. -/
  | tickBoundary (p : Nat)
  /-- STRETCH_LIMIT (R36). t_k + P_k + max_stretch passes with a stage still not done and the fallback policy applies. -/
  | stretchLimit (p : Nat)
  /-- BOUNDARY_DECISION (R34). At T+600 the partition decides that all stages are done or applies the overrun policy to late stages. -/
  | boundaryDecision (p : Nat)
  /-- HOLD_EXPIRY (R221). A held append's hold limit expires with no page and the sequence becomes SUSPENDED. -/
  | holdExpiry (p : Nat) (seq : Nat)
  /-- EDIT_BATCH_EXPIRY (R224). A deferred edit batch still lacking a frame or store page is dropped whole. -/
  | editBatchExpiry (p : Nat)
  /-- RESUME_EXPIRY (R236). An eager resume that could not get its frames within the hold limit returns to PARKED. -/
  | resumeExpiry (p : Nat) (seq : Nat)
  /-- RUN_WINDOW_COUNT_REACHED (R41). A pipeline run reaches its window_count and ends normally. -/
  | runWindowCountReached (p : Nat) (slot : Nat)
  /-- PIPELINE_STOP_DRAINED (R38). The last issued operation of a stopped pipeline completes and its PIPELINE_RUN completes. -/
  | pipelineStopDrained (p : Nat) (slot : Nat)
  /-- LEDGER_STAGING_PLACE (R133). A staged ledger record finds a free entry and its producing operation proceeds. -/
  | ledgerStagingPlace (p : Nat)
  /-- PARK_COMPLETE (R236). The last store write of a parking sequence ends and it becomes PARKED. -/
  | parkComplete (p : Nat) (seq : Nat)
  /-- RESUME_COMPLETE (R235). The last page of an eager resume lands and the sequence becomes ACTIVE. -/
  | resumeComplete (p : Nat) (seq : Nat)
  /-- BASE_DIE_REQUEST (R245). A request reaches a base die and is served through cache, ECC and encryption. -/
  | baseDieRequest (stack : Nat) (req : StackReq)
  /-- THROTTLE_RELEASE (R258). A request waiting for throttle tokens receives them and proceeds. -/
  | throttleRelease (stack : Nat) (tokens : Nat)
  /-- TAG_CONVERSION_DONE (R254). Re-encryption of a tag unit finishes and the waiting write proceeds. -/
  | tagConversionDone (stack : Nat) (unit : Nat)
  /-- THERMAL_SAMPLE (R257). Every 10,000 tc the base die samples stack temperature and sets the throttle step. -/
  | thermalSample (stack : Nat) (temp : Nat)
  /-- DRAM_REFRESH (R239). A bank is refreshed on its 32 ms or 16 ms schedule. -/
  | dramRefresh (stack : Nat) (bank : Nat)
  /-- BACKGROUND_ATOM_SCRUB (R263). The base die reads every atom of its stack once per 24 hours. -/
  | backgroundAtomScrub (stack : Nat) (atom : Nat) (ecc : EccOutcome)
  /-- MIGRATION_LANDED (R267). A migrated page lands in a frame and waiting requests are released. -/
  | migrationLanded (p : Nat) (page : Nat) (bad : Nat)
  /-- FOLNAS_RETRY_BOUND (R276). A page read reaches 400,000 tc and undecoded sectors are delivered poisoned. -/
  | folnasRetryBound (p : Nat) (page : Nat) (undecoded : Nat)
  /-- RESERVE_FRAME_RETURN (R267). The last request served by a reserve frame completes and the frame returns to the reserve. -/
  | reserveFrameReturn (p : Nat) (page : Nat)
  /-- BACKGROUND_WRITE_BACK (R271). Dirty sectors exceed tier_dirty_pct and write-back starts oldest first. -/
  | backgroundWriteBack (p : Nat)
  /-- EVICTION_WRITE_BACK_DONE (R270). An evicted page's write-back completes and its frame is released. -/
  | evictionWriteBackDone (p : Nat) (page : Nat)
  /-- TIER_FLUSH_DURABLE (R272). The flushed sectors and metadata become durable and TIER_FLUSH completes. -/
  | tierFlushDurable (h : Nat) (ok : Bool)
  /-- GARBAGE_COLLECTION (R275). Free blocks fall below 2 % and live sectors are moved. -/
  | garbageCollection (block : Nat)
  /-- WEAR_LEVELLING (R275). Erase counts differ by more than 200 and cold data moves to worn blocks. -/
  | wearLevelling (cold : Nat) (worn : Nat)
  /-- READ_DISTURB_REFRESH (R275). A block reaches 50,000 reads and is relocated. -/
  | readDisturbRefresh (block : Nat)
  /-- FOLNAS_PATROL (R275). Each block is checked once per 7 days and relocated if needed. -/
  | folnasPatrol (block : Nat) (corrected : Nat)
  /-- BAD_BLOCK_RETIRE (R275). A program or erase failure retires a block and replaces it from spares. -/
  | badBlockRetire (block : Nat)
  /-- READ_ONLY_MODE_ENTRY (R280). Spares fall to 1 % or cycles are used up and the tier becomes read-only. -/
  | readOnlyModeEntry
  /-- FLIT_CRC_FAILURE (R282). A receiver discards a failed flit and requests a replay. -/
  | flitCrcFailure (link : Nat) (dir : Nat)
  /-- REPLAY_RUN_EXHAUSTED (R283). A replay run exceeds 16 replays or 3,000 tc and the link retrains. -/
  | replayRunExhausted (link : Nat)
  /-- RETRAIN_COMPLETE (R283). A retrain ends at full or half width and traffic resumes. -/
  | retrainComplete (link : Nat) (lanes : Nat)
  /-- USNEA_HUB_FAILURE (R291). A hub fails or a message fails both replays and waiting operations fault. -/
  | usneaHubFailure (level : Nat) (unit : Nat)
  /-- CLUSTER_CONTROL_CORE_FAILURE (R76). A cluster control core fails and operations waiting on it complete with DEVICE_FAULT. -/
  | clusterControlCoreFailure (cluster : Nat)
  /-- CARNELIAN_FAULT (R390). Carnelian fails and commands needing it complete with DEVICE_FAULT. -/
  | carnelianFault (kind : Nat)
  /-- PERIDOT_WATCHDOG (R390). Peridot makes no progress for 100 ms and the module stops serving work. -/
  | peridotWatchdog (core : Nat)
  /-- PERIDOT_SRAM_ERROR (R390). Peridot reads an uncorrectable error in its own SRAM and the module stops. -/
  | peridotSramError (core : Nat)
  /-- VIDEO_FRAME_START (R317). An engine starts coding a frame once its ready_window has committed. -/
  | videoFrameStart (engine : Nat)
  /-- GUARD_ROW_COUNTED (R323). The entropy engine reports a guard row's bits and the guard commits or re-encodes it. -/
  | guardRowCounted (engine : Nat) (bits : Nat)
  /-- VIDEO_FRAME_COMPLETE (R318). A frame completes, its record is written and done_word incremented. -/
  | videoFrameComplete (engine : Nat) (result : FrameResult)
  /-- AGATE_ENGINE_FAILURE (R327). An engine fails and its waiting frames complete with DEVICE_FAULT. -/
  | agateEngineFailure (engine : Nat)
  /-- SWEEP_COMPLETE (R377). No unit, sector or page of the old generation remains and its keys are erased. -/
  | sweepComplete (p : Nat)
  /-- COMMAND_FETCH (R351). Peridot fetches a command when the queue, CQ room and handles allow, and writes its ACK. -/
  | commandFetch (fn : Nat) (q : Nat) (cmd : Bytes)
  /-- COMMAND_TIMEOUT (R394). A live handle's timeout fires and is deferred once or completes with TIMEOUT. -/
  | commandTimeout (h : Nat)
  /-- TIMEOUT_DEFERRAL_END (R394). The deferral of a timeout ends and unfinished work completes with TIMEOUT. -/
  | timeoutDeferralEnd (h : Nat)
  /-- LATE_COMPLETION (R396). Work completes under an advanced generation and is dropped. -/
  | lateCompletion (h : Nat)
  /-- QP_DRAIN_COMPLETE (R347). A DRAINING queue's last handle completes and it becomes DISABLED. -/
  | qpDrainComplete (fn : Nat) (q : Nat)
  /-- REQUESTER_COMPLETION_TIMEOUT (R339). A module read of host memory times out twice and fetching from the ring stops. -/
  | requesterCompletionTimeout (fn : Nat) (q : Nat)
  /-- QP_SQ_DOORBELL (R349). Write of a new SQ tail index. -/
  | qpSqDoorbell (fn : Nat) (q : Nat) (value : Nat)
  /-- QP_CQ_DOORBELL (R350). Write of a new CQ head index. -/
  | qpCqDoorbell (fn : Nat) (q : Nat) (value : Nat)
  /-- QP_ENABLE (R347). Write of QP_CFG enable = 1 enables a DISABLED queue or sets cfg_error. -/
  | qpEnable (fn : Nat) (q : Nat) (value : Nat)
  /-- QP_DISABLE (R347). Write of QP_CFG enable = 0 disables a queue or puts it in DRAINING. -/
  | qpDisable (fn : Nat) (q : Nat) (value : Nat)
  /-- QP_REARM (R348). Write of QP_CTRL rearm resets a QUIESCED queue and enables it. -/
  | qpRearm (fn : Nat) (q : Nat) (value : Nat)
  /-- HOST_BAR2_WINDOW_WRITE (R336). Write of the BAR2 window base, ignored if misaligned. -/
  | hostBar2WindowWrite (fn : Nat) (value : Nat)
  /-- HOST_PORT_CFG_WRITE (R329). Admin write of the next port configuration code, refused during a firmware commit. -/
  | hostPortCfgWrite (fn : Nat) (value : Nat)
  /-- BERYL_THERM_CFG_WRITE (R259). Admin write of the stack throttle threshold and hysteresis. -/
  | berylThermCfgWrite (fn : Nat) (value : Nat)
  /-- TICK_REGISTER_LOW_READ (R27). Read of the low half of a 64-bit tick register latches its high half. -/
  | tickRegisterLowRead (fn : Nat) (offset : Nat)
  /-- REGISTER_WRITE (R366). Write to any other BAR0 register, including W1C clears and ignored writes. -/
  | registerWrite (fn : Nat) (offset : Nat) (value : Nat)
  /-- ROM_REC_WRITE (R419). In ROM recovery, write = 1 writes the buffer as an image chunk. -/
  | romRecWrite (fn : Nat) (chunk : Nat)
  /-- ROM_REC_FINISH (R419). In ROM recovery, finish = 1 verifies the image and resets the module. -/
  | romRecFinish (fn : Nat)
  /-- ROM_REC_ABORT (R419). In ROM recovery, abort = 1 discards the chunks written. -/
  | romRecAbort (fn : Nat)
  /-- BAR2_REQUEST (R337). A host read or write through BAR2 is checked whole and served or rejected. -/
  | bar2Request (fn : Nat) (offset : Nat) (req : Bar2Req)
  /-- BAR2_RESIZE (R336). A Resizable BAR change resets the BAR2 window base. -/
  | bar2Resize (fn : Nat) (log2 : Nat)
  /-- HOST_LINK_UP (R344). A port's link comes up and a host attaches to its functions. -/
  | hostLinkUp (port : Nat) (width : Nat) (speed : Nat) (flit : Bool)
  /-- HOST_LINK_DOWN (R342). A port's link goes down, including surprise removal or unmate. -/
  | hostLinkDown (port : Nat)
  /-- PERST_ASSERT (R331). PERST_n# is asserted and port n's functions enter reset. -/
  | perstAssert (port : Nat)
  /-- PERST_RELEASE (R331). PERST_n# is released and the port's configuration space answers within 100 ms. -/
  | perstRelease (port : Nat)
  /-- HOT_RESET (R342). A received hot reset resets the functions concerned. -/
  | hotReset (port : Nat)
  /-- FUNCTION_LEVEL_RESET (R414). A Function Level Reset of one function. -/
  | functionLevelReset (fn : Nat)
  /-- VF_DISABLE (R342). Clearing VF Enable removes the VFs of a PF. -/
  | vfDisable (port : Nat)
  /-- GRACE_EXPIRY (R345). A departed partition's grace time ends and the partition is scrubbed. -/
  | graceExpiry (p : Nat)
  /-- D3HOT_ENTRY (R408). A PF enters D3hot, stops being fetched from and quiesces its queues. -/
  | d3hotEntry (port : Nat)
  /-- D0_RETURN (R408). A PF returns to D0 and the module leaves the low-power state. -/
  | d0Return (port : Nat)
  /-- LOW_POWER_ENTRY (R409). Every PF is in D3hot with commands complete and the module enters its low-power state. -/
  | lowPowerEntry
  /-- GET_VERSION (R382). SPDM request for supported versions. -/
  | getVersion (src : SpdmSrc)
  /-- GET_CAPABILITIES (R382). SPDM request for capabilities. -/
  | getCapabilities (src : SpdmSrc)
  /-- NEGOTIATE_ALGORITHMS (R381). SPDM request that negotiates the offered algorithms or gets an ERROR. -/
  | negotiateAlgorithms (src : SpdmSrc) (algs : Nat)
  /-- GET_DIGESTS (R382). SPDM request for certificate chain digests. -/
  | getDigests (src : SpdmSrc)
  /-- GET_CERTIFICATE (R382). SPDM request for the certificate chain. -/
  | getCertificate (src : SpdmSrc)
  /-- GET_MEASUREMENTS (R382). SPDM request for measurements signed with the alias key. -/
  | getMeasurements (src : SpdmSrc) (nonce : Bytes)
  /-- KEY_EXCHANGE (R382). SPDM request that encapsulates to the requester's ML-KEM key. -/
  | keyExchange (src : SpdmSrc) (ek : Bytes)
  /-- FINISH (R383). SPDM request that makes the session secure and records the resumption secret. -/
  | finish (src : SpdmSrc) (verified : Bool)
  /-- PSK_EXCHANGE (R383). SPDM request that resumes a recorded session with its resumption secret. -/
  | pskExchange (src : SpdmSrc) (tag : Nat) (psk : Bytes)
  /-- PSK_FINISH (R383). SPDM request that completes a resumption and reattaches the function. -/
  | pskFinish (src : SpdmSrc) (verified : Bool)
  /-- IDE_KM (R340). IDE key management message that programs or switches a port's IDE stream keys. -/
  | ideKm (src : SpdmSrc) (fn : Nat) (stream : Nat)
  /-- IDE_STREAM_LEAVES_SECURE (R340). A selective IDE stream leaves the secure state and ide_required restrictions return. -/
  | ideStreamLeavesSecure (port : Nat) (stream : Nat)
  /-- DEBUG_UNLOCK_TOKEN (R387). A signed unlock token is checked and recorded for opening debug ports at next boot. -/
  | debugUnlockToken (body : Bytes) (key : Bytes) (sig : Bytes)
  /-- PLDM_FIRMWARE_UPDATE (R341). PLDM firmware transfer that follows the FW_UPDATE or ROM recovery path. -/
  | pldmFirmwareUpdate (image : Bytes)
  /-- PLDM_PORT_CONFIG_WRITE (R329). Management controller write of the port configuration, refused during a commit. -/
  | pldmPortConfigWrite (code : Nat)
  /-- PLDM_ALERT_CLEAR (R407). The management controller clears MOD_ALERT_N. -/
  | pldmAlertClear
  /-- DIE_TEMPERATURE_SAMPLE (R407). Every 10,000 tc Peridot samples compute-die temperature, alerting at 100 C and tripping at 105 C. -/
  | dieTemperatureSample (die : Nat) (temp : Nat)
  /-- INPUT_POWER_ON (R404). The input reaches 39 V, converters start and the module boots. -/
  | inputPowerOn (millivolts : Nat)
  /-- UNDERVOLTAGE (R405). The input falls below 37 V and a power-fail shutdown follows. -/
  | undervoltage (millivolts : Nat)
  /-- OVERVOLTAGE (R404). The input exceeds 62 V for 100 us and the module shuts down and latches. -/
  | overvoltage (millivolts : Nat) (micros : Nat)
  /-- INPUT_OVERCURRENT (R404). The input exceeds 66 A for 1 ms and the module shuts down and latches. -/
  | inputOvercurrent (milliamps : Nat) (micros : Nat)
  /-- LATCH_CLEAR (R404). The input stays below 20 V for 1 s and the protection latch clears. -/
  | latchClear (millivolts : Nat) (millis : Nat)
  /-- MOD_RESET_ASSERT (R414). MOD_RESET_N held low for 1 ms resets the whole module with a clean Folnas save. -/
  | modResetAssert (micros : Nat)
  /-- MOD_RESET_RELEASE (R411). MOD_RESET_N is released and the boot starts. -/
  | modResetRelease
  /-- BOOT_STAGE_COMPLETE (R411). A boot stage finishes and the next begins, or the boot fails or enters ROM recovery. -/
  | bootStageComplete (result : BootResult)
  /-- SCRUB_COMPLETE (R345). The scrub of a partition ends within 5 s, part_state leaves scrubbing and a pending PARTITION_SET delete completes. -/
  | scrubComplete (p : Nat)
  /-- DEMOTION_COMPLETE (R238). The store write of a page being demoted ends, the entry switches to tier 1 and its frame is released. -/
  | demotionComplete (p : Nat) (seq : Nat) (page : Nat)
  /-- WEIGHTS_BIND_COMPLETE (R386). Carnelian finishes decrypting the ciphertext, checks the GCM tag and either makes the region a weight region or zeroes it with AUTH. -/
  | weightsBindComplete (h : Nat)
  /-- ROM_REC_ACTION_DONE (R419). A ROM recovery chunk write or verification ends, busy clears, result and chunks update, and on a verified finish the module resets. -/
  | romRecActionDone (ok : Bool)
  /-- PLDM_THERM_CFG_WRITE (R259). The management controller writes BERYL_THERM_CFG over PLDM. -/
  | pldmThermCfgWrite (value : Nat)
  /-- MANAGEMENT_END_GRACE (R343). The management controller ends a departed partition's grace time at once. -/
  | managementEndGrace (p : Nat)
  /-- VF_ENABLE (R342). Setting VF Enable brings a PF's VFs into being, so that hosts attach to them. -/
  | vfEnable (port : Nat) (count : Nat)
  /-- USNEA_MESSAGE_CRC_FAILURE (R289). A hop finds a Usnea message failing its CRC-16 and replays it. -/
  | usneaMessageCrcFailure (level : Nat) (unit : Nat)
  /-- MSIX_MESSAGE_SEND (R357). The module sends the coalesced MSI-X message for a queue's entries no later than 2,000 tc after the first entry it covers. -/
  | msixMessageSend (fn : Nat) (q : Nat)
  deriving DecidableEq, Repr

end Sys2Proof
end

