-- ==== Sys2Proof/Decode.lean ====
section
/-!
DEFINITION. The decoder of table words. No row of spec/opcode_table.json gives bits: the host's commands are 64-byte
entries that COMMAND_FETCH carries (R352), operations are words of a stage program that the core reads (R67), and the
rest are events; none of them is a word of the table.
-/

namespace Sys2Proof

/-- The command that a table word spells: none, since the table gives no bits. -/
def decodeTableWord (_nbits _w : Nat) : Option Instr := none

end Sys2Proof
end

