-- ==== Sys2Proof/Config.lean ====
section
/-!
DEFINITION. What the implementation fixes and the spec leaves open: free values (opaque, without a
body, so that no proof can see them) and the module's own constants.
-/

namespace Sys2Proof.Config

/-- FREE VALUE. A fresh open number; applied to the state's counter of free values drawn so far. -/
opaque freeNat : Nat → Nat

/-- FREE VALUE. The NaN code that a unit other than the special-function unit writes (only R140
fixes NaN codes); applied to the width of the format. -/
opaque nanPayload : Nat → Nat

/-- FREE VALUE. The key by which R118's unspecified order of group additions is sorted: drawn number
and group index. -/
opaque accKey : Nat → Nat → Nat

/-- FREE VALUE. Where, between two neighbouring values of a format, a built-in of R136 goes over from
the lower to the upper one: function, format width and exponent bits, code of the lower value; an FP32
code. One breakpoint for each pair keeps the result non-decreasing (R137). -/
opaque faithfulBreak : Nat → Nat → Nat → Nat

/-- FREE VALUE. Whether the larger of +0 and −0 is −0 in vx. and rs. (R92 does not say). -/
opaque maxZeroNeg : Bool

/-- FREE VALUE. The integer and the segment index that a micro-program step leaves where R143 states none
(a NaN, an infinity or a number beyond 32 bits), by the FP32 code of its operand. -/
opaque openInt : Nat → Int

/-- FREE VALUE. The step words and the table words of a shipped micro-program's image (R146 prints neither). -/
opaque shippedImage : Nat → List (BitVec 8)

/-- FREE VALUE. Where a shipped micro-program goes over from one number of a format to the next, in a stretch over which
R146 states its monotonicity: stretch, format width and exponent bits, the greater of the two codes; an FP32 code. -/
opaque shippedBreak : Nat → Nat → Nat → Nat

/-- FREE VALUE. Which of the results that R146's bound allows a shipped micro-program gives where no monotonicity is
stated: program, format width and exponent bits, FP32 code of u. -/
opaque shippedPick : Nat → Nat → Nat → Nat

/-- The standard functions the spec names and does not spell out (R372): KMAC256 of key, input,
output bits and customisation code. -/
opaque kmac256 : List (BitVec 8) → List (BitVec 8) → Nat → Nat → List (BitVec 8)

/-- SHA3-512. -/
opaque sha3 : List (BitVec 8) → List (BitVec 8)

/-- ML-DSA-87 signature by the key of the given seed over message and context code. -/
opaque mlDsaSign : List (BitVec 8) → List (BitVec 8) → Nat → List (BitVec 8)

/-- ML-DSA-87 verification by the given key digest. -/
opaque mlDsaVerify : List (BitVec 8) → List (BitVec 8) → List (BitVec 8) → Bool

/-- ML-KEM-1024 encapsulation key of a seed. -/
opaque mlKemEk : Nat → List (BitVec 8)

/-- ML-KEM-1024 decapsulation: seed and ciphertext give the shared secret, or fail. -/
opaque mlKemDecaps : Nat → List (BitVec 8) → Option (List (BitVec 8))

/-- ML-KEM-1024 encapsulation to a requester's key with the drawn number: ciphertext and secret. -/
opaque mlKemEncaps : List (BitVec 8) → Nat → List (BitVec 8) × List (BitVec 8)

/-- AES-256-GCM opening: key, IV, associated data, ciphertext, tag. -/
opaque gcmOpen : List (BitVec 8) → List (BitVec 8) → List (BitVec 8) → List (BitVec 8) → List (BitVec 8) →
  Option (List (BitVec 8))

/-- The fuses UDS and SRK (R373); no path reads them. -/
opaque fuseUds : List (BitVec 8)
/-- The fuse SRK (R373). -/
opaque fuseSrk : List (BitVec 8)
/-- The fuse debug_auth (R373): digest of the debug authority's key. -/
opaque fuseDebugAuth : List (BitVec 8)
/-- The Device Serial Number (R379). -/
opaque serial : Nat
/-- The digests that boot measures under a running image: fw_digest[0] to fw_digest[9] (R379). -/
opaque fwDigest : List (BitVec 8) → Nat → List (BitVec 8)
/-- Whether an image's signature verifies under the firmware key (R417). -/
opaque firmwareSigned : List (BitVec 8) → Bool
/-- The security version that an image carries (R417). -/
opaque firmwareVersion : List (BitVec 8) → Nat
/-- The DER certificate chain of the report (R379). -/
opaque certChain : List (BitVec 8)
/-- The header bits `h` of a coded frame (R323), a quantity of the codec: session, coded index. -/
opaque videoHeaderBits : Nat → Nat → Nat
/-- FREE VALUE. How the tile workers of an engine go on (R310): draw and step; a worker, and the bytes of syntax elements that
the block it codes next takes. -/
opaque videoWork : Nat → Nat → Nat × Nat
/-- FREE VALUE. What partition decisions make of a 16 × 16 block's vector (R319): draw, reference, block; none for a block
without a vector of that reference. -/
opaque videoFinal : Nat → Nat → Nat → Option (Int × Int)
/-- FREE VALUE. The vector that a slot's motion field holds for a block (R315, R319), whose coding is not stated: the bytes of its
entries. -/
opaque videoColocated : List (BitVec 8) → Option (Int × Int)
/-- FREE VALUE. λ times the estimated rate of a vector (R319), in parts of 65,536 of a score: draw, reference, block, x, y. -/
opaque videoRate : Nat → Nat → Nat → Int → Int → Nat
/-- FREE VALUE. The SATD of a block under a vector with fractional parts (R319): the samples between samples are the codec's;
draw, reference, block, x, y. -/
opaque videoSatd : Nat → Nat → Nat → Int → Int → Nat
/-- FREE VALUE. A byte of a coded frame or decoded picture: session, frame number, position. -/
opaque videoByte : Nat → Nat → Nat → BitVec 8
/-- The release number within firmware release 1 (R19 of the boot chapter: AQ_DEV_STATUS fw_minor). -/
opaque fwMinor : Nat
/-- FREE VALUE. The encoding of the firmware release in d0 of the READY event (R356). -/
opaque fwReleaseCode : Nat

/-- The admin function: the PF of H0, since no fuse of a shipped module names another port (R333). -/
def adminPort : Nat := 0

end Sys2Proof.Config
end

