-- ==== Sys2Proof/Machine/State.lean ====
section
/-!
DEFINITION. Everything the spec gives the module, as plain data, and its state right after reset. Each
field names the rule it comes from. A table's unlisted key holds the reset record of its kind.
-/

namespace Sys2Proof.Machine

/-- Why a step stops with a fault. -/
inductive Fault where
  /-- Raised by every meaning whose operand names a unit the module does not have (a core above 255, a
  partition above 3 and so on: R9 to R11). Safe: the spec says there is no such unit. -/
  | noSuchUnit
  deriving DecidableEq, Repr

/-- Why a step is refused. -/
inductive Refusal where
  /-- Raised by no arm of this model; kept for the host's reading of exec. Safe. -/
  | notModelled (mnemonic : String)
  deriving DecidableEq, Repr

/-! ## Cores and clusters -/

/-- A 128 × 128 accumulator buffer with the bound unit's shadow state (R48, R118, R122). Cells are keyed
128 × row + column; FP32 or INT32 codes by `isInt`. Unlisted cells are +0. -/
structure Acc where
  isInt : Bool
  cells : Tab Nat
  q : Tab Nat
  w : Tab Nat
  n : Nat
  deriving DecidableEq, Repr

/-- Scratchpad lines, accumulators, predicates and registers an operation reads or writes (R59): line
intervals `[lo, hi)`, then bit masks: bits 0 and 1 the accumulators, 2 to 33 the predicates, 34 to 49 the
address registers, 50 to 57 the loop counters. -/
structure Foot where
  rd : List (Nat × Nat)
  wr : List (Nat × Nat)
  rdMask : Nat
  wrMask : Nat
  deriving DecidableEq, Repr

/-- A transfer a descriptor describes (R187), its endpoints decoded: space, base; device addresses are
partition-relative, cluster offsets carry their cluster, page frames their die and index. -/
structure Xfer where
  srcSpace : Nat
  src : Nat
  dstSpace : Nat
  dst : Nat
  rowBytes : Nat
  rows : Nat
  srcPitch : Nat
  dstPitch : Nat
  hint : Nat
  stream : Nat
  deriving DecidableEq, Repr

/-- A page of a latched walk (R215): page number and its leaf entry's place: tier, frame, store page. -/
structure WalkPage where
  page : Nat
  valid : Bool
  tier : Nat
  die : Nat
  frame : Nat
  store : Nat
  deriving DecidableEq, Repr

/-- What keeps an issued operation from completing. -/
inductive Wait where
  /-- Nothing: the operation is ready for its completion (R61). -/
  | ready
  /-- The operation still has descriptors in flight, to be formed or to be emitted (R190). -/
  | descr (left : Nat)
  /-- sync.wait, by mode, index and threshold (R107). -/
  | sync (mode idx value : Nat)
  /-- hx.put or hx.get polling its word (R164). -/
  | halo
  /-- col.recv polling its channel (R105). -/
  | recv (chan bytes : Nat)
  /-- A member of a Usnea group (R106). -/
  | group
  /-- mm.: the attempt in progress ends in a flag, and what follows is decided at its end (R125, R127). -/
  | climb
  /-- mm.: the residual plane is on its way (R126). -/
  | residual
  /-- A ledger record of this operation waits for a free entry (R133). -/
  | ledger
  /-- A request queued at the cluster control core (R73). -/
  | pgq
  deriving DecidableEq, Repr

/-- An operation in the window of a sequencer (R58). `id` numbers the issues of a core. -/
structure Issued where
  id : Nat
  word : Nat
  bytes : Bytes
  foot : Foot
  status : Nat
  cond : Bool
  wait : Wait
  at_ : Nat                              -- module counter at issue
  deriving DecidableEq, Repr

/-- A Usnea contribution waiting for its group (R106, R290). -/
structure UsneaReq where
  id : Nat
  k : Nat
  group : Nat
  reduce : Bool
  op : Nat
  type : Nat
  elems : List Nat
  count : Nat
  dst : Nat
  done : Bool
  deriving DecidableEq, Repr

/-- A climb (R125, R126): the rung of the attempt that a flag ends, the repeats made, whether the residual plane
has landed, the accumulator before the operation and after the attempt, and the flag test's findings. -/
structure Climb where
  op : Nat
  rung : Nat
  repeats : Nat
  landed : Bool
  lent : List Nat                        -- pages whose reserve frames serve its residual fetch (R267)
  before : Acc
  attempt : Acc
  nonfinite : Bool
  exceeding : Nat
  worstE : Nat
  worstThr : Nat
  worstElem : Nat
  deriving DecidableEq, Repr

/-- A descriptor core DMA holds (R53, R190). A source in the store has space 4: store page × 65,536 + offset;
`seq` and `page` name the page it was walked for. `lent` are the reserve frames it uses (R267); `due` is the
deadline of its first request with 16 fraction bits and `rate` its stream's (R194). -/
structure Descr where
  op : Nat
  x : Xfer
  started : Bool
  cold : Bool                            -- it has waited for a page (R42)
  order : Bool
  seq : Nat
  page : Nat
  lent : List Nat
  frees : Option (Nat × Nat)             -- the frame that served it alone, released with it (R217)
  due : Nat
  rate : Nat
  at_ : Nat                              -- module counter when it entered core DMA
  deriving DecidableEq, Repr

/-- A ring in progress (R191, R192). -/
structure Ring where
  op : Nat
  base : Nat
  cluster : Nat
  entries : Nat
  next : Nat
  left : Nat
  deriving DecidableEq, Repr

/-- A stream of core DMA (R194): declared rate, cursor with 16 fraction bits, late bytes (R199). -/
structure Stream where
  rate : Nat
  cursor : Nat
  late : Nat
  deriving DecidableEq, Repr

/-- The core status record (R56, R66). -/
structure CoreStatus where
  status : Nat
  word : Nat
  debugTag : Nat
  stamp : Nat
  deriving DecidableEq, Repr

/-- The cause columns of a core in the window (R42). -/
structure Causes where
  escalation : Nat
  stream : Nat
  cold : Nat
  link : Nat
  halo : Nat
  steal : Nat
  deriving DecidableEq, Repr

/-- What a sequencer is doing (R38, R54, R62, R64, R66). -/
inductive Phase where
  | idle
  | running
  | atTick
  | skipping
  | holding                              -- held in drain mode (R46) with operations of a skipped window still to complete
  | stopping
  deriving DecidableEq, Repr

/-- One compute core (R47 to R66). -/
structure Core where
  phase : Phase
  run : Option (Nat × Nat × Nat)        -- partition, pipeline slot, stage (R30)
  progMem : Bytes                        -- R54
  pc : Nat                               -- R56
  aregs : Tab Nat                        -- R56; 32 bits each
  loops : Tab Nat                        -- R56; 32 bits each
  preds : Nat                            -- R57; bit i is p_i
  sp : Mem                               -- R49
  acc0 : Acc                             -- R48
  acc1 : Acc
  window : List Issued                   -- R58, oldest first
  nextId : Nat
  climb : Option Climb                   -- R126
  usnea : List UsneaReq                  -- R290
  groupCnt : Tab Nat                     -- R106: group operations issued in the run, by group
  descrs : List Descr                    -- R53, R190: descriptors in flight, at most 64
  dmaQ : List Descr                      -- R53: descriptors of operations that wait in the window for a place
  rings : List Ring                      -- R192
  fetchBuf : List Descr                  -- R192: descriptors in the 64-entry buffer
  streams : Tab Stream                   -- R194
  stat : CoreStatus                      -- R56
  done : Option Nat                      -- R33: done stamp of the window
  reported : Bool                        -- R33: the report has reached the generator
  layerEnd : Bool                        -- R46
  causes : Causes                        -- R42
  stealAt : Tab Nat                      -- R169: instants of successful steals, by cluster × 65,536 + tile
  stallFrom : Nat                        -- R199: from when a wait of the sequencer is not yet counted
  fault : Option CoreStatus              -- R66: the fault whose record waits for the issued operations
  faulted : Bool                         -- R78: a core that faults until the next boot
  bad : List Nat                         -- R52: scratchpad words (by offset / 8) that ECC cannot correct
  soft : List Nat                        -- R52: scratchpad words with one wrong bit
  eccFixed : Nat                         -- R52
  strides : Nat × Nat                    -- R174: stride_t and stride_h of the last mm.conv issued
  deriving DecidableEq, Repr

/-- A pg. request in the queue of a cluster control core (R73). -/
structure PgReq where
  core : Nat
  op : Nat
  deriving DecidableEq, Repr

/-- A walk in progress (R215): what it latched and the pages still to emit. A leaf entry is read when its page is
reached; once a commit has changed the table, `frozen` holds what the entries of the latched directory were. -/
structure Walk where
  core : Nat
  op : Nat
  seq : Nat
  window : Nat
  x : Xfer
  offset : Nat
  stride : Nat
  pages : List Nat
  frozen : Option (List WalkPage)
  deriving DecidableEq, Repr

/-- One cluster: memory, control region, control core (R69 to R76). -/
structure Cluster where
  mem : Mem                              -- user region, R70
  work : Tab Nat                         -- work counters, R167
  workFw : Tab Nat                       -- their bytes 8 to 15, R167
  credit : Tab Nat                       -- credit counters, R45
  bits : Tab Nat                         -- commit bit 0 and duplicate bit 1 per tile, R167
  chan : Tab Nat                         -- channel counters, R105
  budget : Tab Nat                       -- escalation budget counters, keyed 64 × pipeline + stage, R75
  pgQ : List PgReq                       -- R73
  walks : List Walk                      -- R74
  descQ : List (Nat × Descr)             -- page descriptor queue: core, descriptor (R74)
  failed : Bool                          -- R76
  bad : List Nat                         -- R52: words of cluster memory (by offset / 8) that ECC cannot correct
  soft : List Nat                        -- R52: words with one wrong bit
  eccFixed : Nat                         -- R52
  suspect : Bool                         -- R78
  coreMap : Nat                          -- R78
  spare : Nat                            -- R78
  deriving DecidableEq, Repr

/-! ## Partitions -/

/-- An interleave region (R241). -/
structure Region where
  mode : Nat
  die : Nat
  gib : Nat
  deriving DecidableEq, Repr

/-- The layout of a partition, defaults taken (R365, R367). -/
structure Layout where
  dies : Nat
  holdLimit : Nat
  dirtyPct : Nat
  graceS : Nat
  keepQuota : Nat
  ideRequired : Bool
  handleQuota : Nat
  agateUnits : Nat
  unifiedGib : Nat
  storeGib : Nat
  volatileGib : Nat
  poolGib : Nat
  regions : List Region
  functions : List (Nat × Nat)
  deriving DecidableEq, Repr

/-- Tick parameters (R25). -/
structure TickPar where
  period : Nat
  stretch : Nat
  policy : Nat
  fallback : Nat
  deriving DecidableEq, Repr

/-- A boundary instant reached and not yet decided (R34, R36). -/
structure Boundary where
  at_ : Nat
  stretched : Nat
  deriving DecidableEq, Repr

/-- A stage that is late at a boundary (R35). Of a run that has ended meanwhile `gone` keeps its done stamp, or the
instant that takes its place, and the dominant cause (R36, R40). -/
structure Late where
  slot : Nat
  stage : Nat
  gone : Option (Nat × Nat)
  deriving DecidableEq, Repr

/-- The tick generator of a partition (R24 to R28). -/
structure Tick where
  origin : Nat                           -- module counter at which the tick counter read 0
  held : Option Nat                      -- R409: the counter value held in the low-power state
  index : Nat                            -- TICK_INDEX
  start : Nat                            -- TICK_START
  par : TickPar                          -- in force
  next : List (Nat × TickPar)            -- TICK_SET handles and parameters waiting, R26
  faultStop : Bool                       -- TICK_STATUS
  overrunSeen : Bool
  inStretch : Bool
  boundary : Option Boundary
  late : List Late                       -- stages late at the nominal boundary, R35
  skew : Tab Nat                         -- R21: by die, how far its replica stands from the counter, plus 2 (0 to 4)
  deriving DecidableEq, Repr

/-- A region of MEM_ALLOC (R433, R386). -/
structure MemRegion where
  addr : Nat
  bytes : Nat
  key : Option Nat
  deriving DecidableEq, Repr

/-- A tiling record with the loader's copies of its lists (R155, R157). -/
structure Tiling where
  record : Bytes
  listS : List Nat
  listC : List Nat
  listP : List Nat
  deriving DecidableEq, Repr

/-- A stage of a submitted pipeline (stage descriptor, R128, R39). -/
structure Stage where
  cores : List Nat
  program : Nat
  absorb : Bool
  layer : Bool
  budgetPm : Nat
  tiles : Nat
  layerWord : Nat
  tiling : Option Tiling
  deriving DecidableEq, Repr

/-- An inter-stage buffer (R31). -/
structure Buf where
  producer : Nat
  depth : Nat
  space : Nat
  cluster : Nat
  base : Nat
  slotBytes : Nat
  cidx : Nat
  consumers : List (Nat × Nat)
  deriving DecidableEq, Repr

/-- A halo table entry (R162). -/
structure Halo where
  producer : Nat
  consumer : Nat
  delta : Int
  wrap : Bool
  slotBytes : Nat
  stride : Nat
  base : Nat
  deriving DecidableEq, Repr

/-- A stage timing record (R42, R399). -/
structure Timing where
  window : Nat
  release : Nat
  done : Nat
  claimed : Nat
  escalated : Nat
  narrow : Nat
  core : Nat
  late : Nat
  policy : Nat
  causes : Causes
  deriving DecidableEq, Repr

/-- What a running stage carries through a run (R39, R46, R128). -/
structure StageRun where
  issued : Nat
  issuedPrev : Nat
  claimed : Nat
  escalated : Nat
  narrow : Nat
  layerEnd : Bool
  holdFor : Nat                          -- windows after the prologue that the stage is still held (R46)
  skipped : Bool
  deriving DecidableEq, Repr

/-- Why a run stops, ranked as R41 ranks the statuses. -/
structure StopInfo where
  fault : Option (Nat × Nat × CoreStatus)   -- core, status, record (R66)
  device : Bool                          -- a cluster control core or a hub on its way failed (R76, R291)
  noSpace : Bool
  timeout : Bool
  overrun : Bool
  aborted : Bool
  deriving DecidableEq, Repr

/-- A run of a pipeline (R41). -/
structure Run where
  handle : Option Nat
  count : Nat
  done : Nat                             -- windows committed
  first : Option Nat
  last : Option Nat
  started : Bool                         -- its first window has been released
  release : Nat
  prologue : Bool                        -- R46
  stale : Bool
  quality : Bool
  stopping : Bool                        -- its stages have stopped and drain (R38)
  stopAtBoundary : Bool                  -- R41
  stoppers : List Nat                    -- handles of PIPELINE_STOPs that wait for the end
  removeAfter : Bool
  stop : StopInfo
  stages : List StageRun
  written : Tab (List (Nat × Nat))       -- byte spans of its slot's data written in this window, per buffer (R32)
  aborted : Tab Nat                      -- R85, R106: status of group operations ended early, by group × 2^32 + k
  deriving DecidableEq, Repr

/-- A submitted pipeline (R30). -/
structure Pipe where
  stages : List Stage
  bufs : List Buf
  halos : List Halo
  groups : List (List Nat)
  colls : List Bytes
  drain : Bool
  launched : Bool                        -- R300: a launched collective
  addrs : List Nat                       -- device addresses its object holds, as stored (R433)
  run : Option Run
  timings : Tab (List Timing)            -- per stage, oldest first, at most 64
  deriving DecidableEq, Repr

/-- A leaf entry (R212). -/
structure Entry where
  node : Option Nat
  store : Nat
  die : Nat
  frame : Nat
  tokens : Nat
  keyGen : Nat
  storeCopy : Bool
  shared : Bool
  tier : Nat
  deriving DecidableEq, Repr

/-- The states of a sequence (R234). -/
inductive SeqState where
  | active
  | suspended
  | parking
  | parked
  | resuming
  deriving DecidableEq, Repr

/-- A held append of a sequence (R103, R221). -/
structure Hold where
  window : Nat
  die : Nat
  kept : Option (Nat × Nat)
  needBlock : Bool                       -- it also lacks a table block (R219)
  order : Nat                            -- its place among the holds in the order in which they began (R221)
  deriving DecidableEq, Repr

/-- A sequence (R207 to R238). Unlisted pages have no valid entry. -/
structure Seq where
  gen : Nat
  pageTokens : Nat
  planes : Nat
  maxTokens : Nat
  homeDie : Nat
  evictable : Bool
  ns : Nat
  state : SeqState
  tokens : Nat
  entries : Tab Entry
  dirBlock : Nat                         -- table block of the directory
  leaves : Tab Nat                       -- leaf number to table block
  leafStore : Tab Nat                    -- parked leaf to its store page, R212
  hold : Option Hold
  noSpaceOnce : Bool                     -- R103
  durable : Bool                         -- R237
  parkHandle : Option Nat
  pending : List Nat                     -- pages still being written or migrated
  resumeBy : Nat
  walked : Nat
  badLeaves : List Nat                   -- leaves with a poisoned atom (R262)
  deriving DecidableEq, Repr

/-- What waits for step 1 of a commit, in arrival order (R221, R224). -/
inductive Staged where
  | edits (handle : Option Nat) (seq : Nat) (recs : List Bytes) (window : Nat)
  | fork (handle src : Nat) (window : Nat)
  | suspend (handle seq : Nat) (window : Nat)
  | park (handle seq : Nat) (durable : Bool) (window : Nat)
  | resumeLazy (handle seq : Nat) (window : Nat)
  | resumeEager (handle seq : Nat) (window : Nat)
  | destroy (handle seq : Nat) (window : Nat)
  | mapPages (handle seq : Nat) (nodes : List Nat) (window : Nat)
  | rotate (handle : Nat) (window : Nat)
  | abortAt (handle gen : Nat) (window : Nat)
  deriving DecidableEq, Repr

/-- A released frame, store page or table block (R227): kind 0, 1 or 2. -/
structure Released where
  kind : Nat
  id : Nat
  window : Nat
  deriving DecidableEq, Repr

/-- A node of the tree of shared blocks (R228 to R230). -/
structure Node where
  hash : Nat
  parent : Option Nat
  ns : Nat
  pageTokens : Nat
  planes : Nat
  ids : List Nat
  pages : List (Nat × Nat)               -- die and frame per plane
  visible : Bool
  pins : Nat
  matched : Nat
  block : Nat
  deriving DecidableEq, Repr

/-- A ledger record (R132). -/
structure LedgerRec where
  stamp : Nat
  window : Option Nat
  kind : Nat
  pipeline : Nat
  stage : Nat
  core : Nat
  debugTag : Nat
  word : Nat
  op : Nat                               -- the MODEL'S own: the operation that waits with the record (R133)
  detail : Bytes
  deriving DecidableEq, Repr

/-- The ledger of a partition (R132, R133): counters keyed by their place in the counter table. -/
structure Ledger where
  recs : List LedgerRec
  staged : List LedgerRec                -- in ledger staging, at most 256 of one cluster (R73)
  held : List LedgerRec                  -- held by their operations while staging is full (R73)
  counters : Tab Nat
  threeQuarter : Bool
  full : Bool
  deriving DecidableEq, Repr

/-- An event record (R400). -/
structure EventRec where
  stamp : Nat
  window : Option Nat
  seq : Nat
  code : Nat
  cls : Nat
  block : Nat
  partition : Nat
  status : Nat
  unit : Nat
  handle : Nat
  core : Nat
  word : Nat
  debugTag : Nat
  d0 : Nat
  d1 : Nat
  deriving DecidableEq, Repr

/-- An event ring (R400). -/
structure EventRing where
  recs : List EventRec
  nextSeq : Nat
  deriving DecidableEq, Repr

/-- Residency of a unified page (R266). `order` lists its dirty sectors oldest first. -/
structure Resident where
  die : Nat
  frame : Nat
  order : List (Nat × Nat)               -- dirty sectors, each with the module counter when it became dirty
  used : Nat
  deriving DecidableEq, Repr

/-- A migration that is running (R267, R217): its stamp on the tick counter, the requester's die, the pool
frame taken for it, whether MEM_FREE has discarded it (R265), whether it serves an edit, a resume or a bind, which
no counter of R402 counts, whether some request waits for it, and whether it serves an edit batch alone (R224). -/
structure Migr where
  stamp : Nat
  prefetch : Bool
  die : Nat
  frame : Option (Nat × Nat)
  discard : Bool
  quiet : Bool
  asked : Bool
  edit : Bool
  deriving DecidableEq, Repr

/-- A page of a sequence that has been migrated for an edit batch (R224): its store page, its frame and the generation
under which the frame was written. -/
structure Promoted where
  store : Nat
  die : Nat
  frame : Nat
  gen : Nat
  deriving DecidableEq, Repr

/-- A page served through a reserve frame (R217, R267). -/
structure Reserve where
  die : Nat
  frame : Nat
  data : Mem                             -- what its 64 KiB hold
  bad : List Nat                         -- sectors delivered poisoned
  dirty : List (Nat × Nat)
  waiters : Nat
  deriving DecidableEq, Repr

/-- A request that is no core's and waits for a unified page (R267): who asks, the page, and whether a reserve frame
serves it. Askers are numbered: handle slots from 0, functions' BAR2 requests from 2^32, Agate engines from 2^33,
collectives by pipeline slot from 2^34. -/
structure Asker where
  who : Nat
  page : Nat
  lent : Bool
  deriving DecidableEq, Repr

/-- A page being evicted, kept until its frame returns (R270). -/
structure Evict where
  die : Nat
  frame : Nat
  order : List (Nat × Nat)
  deriving DecidableEq, Repr

/-- A content that a sector has in flash: its bytes, and whether it reads poisoned (R262, R274). -/
structure Content where
  data : Mem
  bad : Bool
  deriving DecidableEq, Repr

/-- A flash sector of a unified page or a store page (R264, R272 to R277): its durable content, the later
contents that reached flash (latest first), key generation, the erase block that holds it. -/
structure Sector where
  durable : Option Content
  later : List Content
  gen : Nat
  block : Nat
  deriving DecidableEq, Repr

/-- An imported model key (R384, R385). -/
structure KeySlot where
  key : Bytes
  sealKey : Bool
  reuse : Nat
  live : Bool
  deriving DecidableEq, Repr

/-- An SPDM session (R381, R383); `tag` is its session tag, or the tag of the record being resumed. -/
structure Spdm where
  tag : Nat
  fn : Nat
  secure : Bool
  secret : Bytes
  resuming : Bool
  deriving DecidableEq, Repr

/-- A resumption record (R383). -/
structure Resume where
  fn : Nat
  tag : Nat
  secret : Bytes
  deriving DecidableEq, Repr

/-- Departure of a partition (R343, R345). -/
inductive PartState where
  | attached
  | departed (at_ : Nat)
  | scrubbing (handle : Option Nat) (delete : Bool)
  deriving DecidableEq, Repr

/-- One partition (R367). -/
structure Part where
  layout : Option Layout
  inst : Nat                             -- R375
  gen : Nat                              -- R374
  oldGen : Option (Nat × Nat)            -- generation being swept and its inst (R376, R375)
  pfxKey : Bytes                         -- K_p, R374
  state : PartState
  everAttached : Bool                    -- R368
  tick : Tick
  regions : Tab MemRegion
  nextRegion : Nat
  programs : Tab Bytes
  micro : Tab Bytes                      -- R141, current images (the same on every core)
  microNext : Tab (List (Nat × Bytes))   -- R141, shadow copies of accepted commands with their DONE stamps, oldest first
  pipes : Tab Pipe
  seqs : Tab Seq                         -- by slot, R210
  seqGens : Tab Nat
  frames : Tab Nat                       -- frames in use, die × 2^22 + frame, with their reference count (R231)
  storeUsed : Tab Nat                    -- store pages in use and their references
  blocks : Tab Nat                       -- table blocks in use, die × 2^15 + block (R211)
  reserveUsed : Tab Nat                  -- per die, reserve frames in use (R217)
  released : List Released
  demoting : List (Nat × Nat × Bool)     -- slot, page, for an edit batch: store writes that run (R224, R238)
  staged : List Staged
  nodes : Tab Node
  nextNode : Nat
  ledger : Ledger
  events : EventRing
  counters : Tab Nat                     -- class 6, R402
  resident : Tab Resident                -- by unified page, R266
  migr : Tab Migr                        -- unified pages
  storeMigr : Tab Migr                   -- store pages
  reserve : Tab Reserve                  -- unified pages served from the reserve
  evict : Tab Evict
  askers : List Asker                    -- R267
  fetchTurn : Nat                        -- R352: the queue whose turn it is, function × 2^16 + queue
  fetchLeft : Nat                        -- R352: the commands left of its turn
  denied : List Nat                      -- R284: engines and collectives that asked for a page over a link that is down
  promoted : Tab Promoted                -- R224: pages migrated for an edit batch, until its commit
  sectors : Tab Sector                   -- unified sector number, R277
  storeSectors : Tab Sector              -- store page × 16 + sector
  importKeys : List (Nat × Nat)          -- import_key_id and its seed, newest first (R379)
  importCount : Nat
  keys : Tab KeySlot
  sessions : List Spdm
  resumes : List Resume
  deriving DecidableEq, Repr

/-! ## Stacks, tier, links, engines -/

/-- A line of a cache slice (R247); bit masks over its four atoms. -/
structure Line where
  valid : Nat
  dirty : Nat
  poison : Nat
  keep : Bool
  used : Nat
  data : Mem
  deriving DecidableEq, Repr

/-- A Beryl stack and its base die (R239 to R263). -/
structure Stack where
  dram : Mem
  poison : Tab Nat                       -- poisoned atoms (by L / 32)
  lines : Tab Line                       -- by L / 128
  clock : Nat                            -- recency
  badWays : Tab Nat                      -- R247: by set, how many of its 17 ways failed their self-test
  chanMap : List Nat                     -- R10: the physical channel of each logical one
  tags : Tab Nat                         -- generation per 16 KiB tag unit, R253
  conv : List Nat                        -- tag units whose conversion a write waits for, R254
  waiting : List StackReq                -- requests the base die holds, in arrival order, at most 8,192 (R246)
  port : List StackReq                   -- requests held back at the stack port (R246)
  tokens : Nat
  drawn : Nat                            -- the MODEL'S own: DRAM atoms read or written since the boot (R258)
  temp : Nat
  step : Nat
  hot : Nat                              -- consecutive samples at 105 °C or more, R259
  tripped : Bool
  tripSeen : Bool                        -- BERYL_STACK_STATUS
  throttleSeen : Bool
  poisonSeen : Bool
  rereadSeen : Bool
  suspect : Bool
  spares : Nat
  errors : Tab Nat                       -- uncorrectable first reads per channel in the hour, R263
  corrected : Tab Nat                    -- corrections per channel, R260
  refreshed : Tab Nat                    -- per bank, stamp of the last refresh, R239
  scrubbed : Nat                         -- atoms read by the background scrub, R263
  stepSince : Nat                        -- from when throttled time is counted (R258)
  reply : Option (Bytes × Bool)          -- the last read served: bytes and poison
  deriving DecidableEq, Repr

/-- An erase block of the flash (R264, R275). -/
structure FBlock where
  erases : Nat
  reads : Nat                            -- since its last erase (R275)
  retired : Bool
  checked : Nat                          -- the 7-day period of the last patrol, counted from 1
  deriving DecidableEq, Repr

/-- The Folnas tier as a whole (R264, R280). -/
structure Tier where
  mounted : Bool
  uncleanMount : Bool
  poisonSeen : Bool
  readOnly : Bool
  spares : Nat                           -- usable spare blocks
  freeBlocks : Nat
  written : Nat                          -- sectors programmed in the open block
  cycles : Nat                           -- program-erase cycles used, R280
  blocks : Tab FBlock
  deriving DecidableEq, Repr

/-- A die link (R281 to R286). -/
structure Link where
  state : Nat
  lanes : Nat
  retrains : Nat
  narrowed : Bool
  retrainSeen : Bool
  replaySeen : Bool
  runCount : Nat                         -- replays of the run in progress
  runStart : Option Nat
  outage : Nat                           -- when the retrain in progress began (R286)
  lastRetrain : Option Nat               -- end of the last retrain
  crc : Tab Nat                          -- per direction
  replays : Tab Nat
  runs : Tab Nat
  payload : Tab Nat
  deriving DecidableEq, Repr

/-- A hub of the Usnea path (R289, R291). -/
structure Hub where
  failed : Bool
  replays : Nat
  deriving DecidableEq, Repr

/-- A frame of a session (R316, R318). -/
structure VFrame where
  handle : Nat
  obj : Bytes
  display : Nat
  base : Nat                             -- display index of the first frame of its stream: eos ends a stream
  deriving DecidableEq, Repr

/-- A video session (R313). -/
structure VSession where
  part : Nat
  obj : Bytes
  frames : List VFrame                   -- waiting, display order
  nextDisplay : Nat
  nextCoded : Nat
  base : Nat                             -- display index of the first frame of the last stream
  ended : Nat                            -- frames submitted when the last eos arrived (R318)
  eosBy : Option Nat                     -- handle of the VIDEO_FRAME that ended the stream
  full : Nat                             -- bits in the receiver's buffer (R322)
  hasRef : Bool
  keyPending : Bool                      -- a deferred key frame (R324)
  sinceKey : Nat
  closing : Option Nat
  deriving DecidableEq, Repr

/-- The frame an engine is coding (R322, R323). -/
structure Coding where
  session : Nat
  frame : VFrame
  obj : Bytes                            -- the session's parameters when it was started (R313)
  key : Bool
  minimal : Bool
  stale : Bool
  qualityIn : Bool
  deferred : Bool
  fmax : Nat
  header : Nat
  c : Nat
  rows : Nat                             -- guard rows of the picture
  row : Nat                              -- guard rows committed
  tries : Nat
  reenc : Nat
  minRows : Nat
  coded : Nat                            -- its place in coded order
  kind : Nat                             -- frame_type of the record
  lost : Bool                            -- something the engine read for it is poisoned (R262)
  workers : List (Option Nat)            -- the unit of work that each tile worker holds (R310)
  prog : Tab Nat                         -- unit of work ↦ blocks of it coded
  buffer : Tab Nat                       -- guard row ↦ its bytes in the syntax-element buffer
  rowQ : Nat                             -- the row quantiser of the last guard row that had one (R321)
  quants : List (List Nat)               -- the quantisers of the blocks of every committed guard row (R323, R325)
  deriving DecidableEq, Repr

/-- The vector that the motion search leaves for a block and a reference, in quarter samples (R319). -/
structure Seed where
  block : Nat
  ref : Nat
  x : Int
  y : Int
  deriving DecidableEq, Repr

/-- A frame that has ended and whose record is still to be written (R318, R326). -/
structure FrameEnd where
  session : Nat
  part : Nat
  frame : VFrame
  status : Nat
  bytes : Nat
  display : Nat
  coded : Nat
  kind : Nat
  flags : Nat
  reenc : Nat
  minRows : Nat
  deriving DecidableEq, Repr

/-- What a partition sees of an engine (AGATE_STATUS). -/
structure EngSeen where
  fault : Bool
  stale : Bool
  keyDeferred : Bool
  minimal : Bool
  reencode : Bool
  deriving DecidableEq, Repr

/-- An Agate engine (R304, R311). -/
structure Engine where
  sessions : Tab VSession
  nextSession : Nat
  coding : Option Coding
  seeds : List Seed                      -- the motion search of the frame being coded (R319)
  ends : List FrameEnd
  lastPart : Option Nat
  zeroed : Nat                           -- switches at which the internal stores were zeroed (R311)
  turn : Nat                             -- the partition whose turn it is, and the frames left of its turn (R311)
  turnLeft : Nat
  failed : Bool
  seen : Tab EngSeen                     -- by partition
  deriving DecidableEq, Repr

/-! ## The host side -/

/-- A queue pair (R346 to R351). -/
structure Qp where
  sqBase : Nat
  cqBase : Nat
  sqInDev : Bool
  cqInDev : Bool
  enable : Bool
  cfgError : Bool
  irqEn : Bool
  eventEn : Bool
  vector : Nat
  cqLog2 : Nat
  sqLog2 : Nat
  state : Nat
  sqHead : Nat
  sqTail : Nat
  cqHead : Nat
  cqWrite : Nat
  phase : Bool
  held : Nat                             -- CQ entries that fetched commands hold and that are still to be written (R351)
  stalled : Bool                         -- R339: fetching waits for the doorbell
  uncovered : Nat                        -- entries no message has covered (R357)
  deriving DecidableEq, Repr

/-- An EVENT waiting to be written (R356). -/
structure EventEnt where
  code : Nat
  stamp : Nat
  d0 : Nat
  d1 : Nat
  deriving DecidableEq, Repr

/-- What a BAR2 read is answered with: data with its EP bit, or a completion without data (R337, R340, R343). -/
inductive Bar2Reply where
  | data (bytes : Bytes) (ep : Bool)
  | completerAbort
  | unsupportedRequest
  deriving DecidableEq, Repr

/-- A PCI Express function (R332 to R337, R342). -/
structure Fn where
  present : Bool
  attached : Bool
  awaiting : Bool                        -- attached in grace time, session not resumed (R344)
  bar2Base : Nat
  bar2Log2 : Nat
  bar2Abort : Nat
  ide : List Nat                         -- selective streams covering the function that are secure (R340)
  qps : Tab Qp
  events : List EventEnt
  lost : Nat
  latches : Tab Nat                      -- R27: latched high halves by register offset
  writeRefused : Bool                    -- HOST_PORT_CFG
  msix : Tab Nat                         -- MSI-X table dwords, R335
  sent : Tab Nat                         -- messages sent per vector
  cause : Nat                            -- departure record (R401)
  dropped : Nat
  departAt : Nat
  lastHandle : Nat
  reply : Option Bar2Reply               -- the last BAR2 read that was answered
  bar2Wait : List (Nat × Bar2Req)        -- BAR2 requests that wait, with their device addresses (R267, R283)
  rejects : Nat                          -- BAR2 reads answered with Completer Abort or Unsupported Request
  deriving DecidableEq, Repr

/-- A port (R328, R331, R332). -/
structure Port where
  up : Bool
  width : Nat
  speed : Nat
  flit : Bool
  perst : Bool
  vfs : Nat
  d3 : Bool
  linkIde : Bool                         -- its link IDE stream is secure (R340)
  deriving DecidableEq, Repr

/-- What a fetched command is doing. -/
inductive CmdPhase where
  | fetched
  | running
  | abortOf (slot gen : Nat)
  deriving DecidableEq, Repr

/-- A live handle and its command (R353, R358, R359). -/
structure Cmd where
  gen : Nat
  part : Nat
  owned : Bool
  fn : Nat
  q : Nat
  order : Nat
  bytes : Bytes
  stamp : Nat                            -- fetch stamp, partition tick counter
  window : Nat                           -- window of the fetch
  fetched : Nat                          -- module counter at fetch
  deadline : Option Nat                  -- module counter at which the timeout fires
  deferred : Option Nat
  phase : CmdPhase
  data : Bytes                           -- the data object, once read
  work : List Nat                        -- pages or sectors the command still waits for
  count : Nat
  lost : Bool                            -- its queue was QUIESCED after the fetch: the DONE is dropped (R342)
  deriving DecidableEq, Repr

/-- The host side: functions, ports, handles, host memory written by the module. -/
structure HostSide where
  fns : Tab Fn
  ports : Tab Port
  live : Tab Cmd
  gens : Tab Nat                         -- slot generations; unlisted is 1
  order : Nat
  mem : Mem                              -- host memory as the module has written it: function × 2^64 + address
  late : Tab Nat                         -- slots whose generation advanced while work ran on, with their partition
  deriving DecidableEq, Repr

/-- The module's last SPDM response (R381 to R383, R387). -/
inductive SpdmReply where
  | error
  | version
  | capabilities
  | algorithms (offered : Nat)           -- bits: ML-DSA-87, ML-KEM-1024, SHA3-512, AES-256-GCM
  | digests (digest : Bytes)
  | certificate (chain : Bytes)
  | measurements (values : List Bytes) (signature : Bytes)
  | keyExchange (ciphertext signature : Bytes)
  | finished (tag : Nat)
  | pskExchange
  | accepted
  deriving DecidableEq, Repr

/-- A report to the management controller: kind and unit. -/
structure MgmtReport where
  kind : Nat
  unit : Nat
  deriving DecidableEq, Repr

/-- What the die side and the I/O die hold while the module is up. -/
structure Dev where
  now : Nat                              -- module counter, tc since the boot started (R400)
  free : Nat                             -- the MODEL'S own: free values drawn so far
  host : HostSide
  parts : Tab Part
  cores : Tab Core
  clusters : Tab Cluster
  beryl : Tab Stack
  tier : Tier
  tlb : Tab (List (Nat × Nat))           -- R266: by die, the residency entries it caches, latest first: partition, page
  links : Tab Link
  hubs : Tab Hub                         -- level × 256 + unit
  engines : Tab Engine
  modEvents : EventRing
  carnelian : Bool                       -- false once it has failed
  mctp : List Spdm                       -- the management controller's sessions (R381)
  spdmReply : Option SpdmReply           -- the last response
  reports : List MgmtReport              -- R263: reports of the base dies to the management controller
  deriving DecidableEq, Repr

/-! ## The platform -/

/-- What shut the module down (R404, R405). Undervoltage is a cause and never latches. -/
inductive Latch where
  | undervoltage
  | overvoltage
  | overcurrent
  | thermal
  deriving DecidableEq, Repr

/-- Where the boot stands (R411, R412, R418): stages completed, READY, failed, ROM recovery. -/
inductive Boot where
  | off
  | held                                 -- MOD_RESET_N low
  | stage (n : Nat)
  | ready
  | failed
  | recovery
  deriving DecidableEq, Repr

/-- A compute die's temperature (R407). -/
structure DieTemp where
  temp : Nat
  hot : Nat
  above : Bool
  deriving DecidableEq, Repr

/-- A firmware image (R417): its security version and its bytes; the shipped image's bytes are not known. -/
structure FwImage where
  version : Nat
  image : Bytes
  deriving DecidableEq, Repr

/-- Boot ROM recovery (R419). -/
structure RomRec where
  chunk : Nat
  chunks : Nat
  busy : Nat                             -- 0 idle, 1 a chunk write, 2 a finish
  verified : Bool
  result : Nat
  buffer : Mem
  image : Mem
  deriving DecidableEq, Repr

/-- Power, boot, firmware store, pins (R404 to R419). -/
structure Plat where
  input : Bool                           -- the input supports operation (39 V reached, 37 V not lost)
  latch : Option Latch
  boot : Boot
  pwrgd : Bool
  alert : Bool
  led : Bool
  thermTrip : Bool
  fault : Bool                           -- AQ_DEV_STATUS fault
  clean : Bool                           -- the last save was a clean shutdown
  cause : Option Latch                   -- of the last shutdown, written at the next boot (R405)
  savedCause : Option Latch
  throttleC : Nat                        -- BERYL_THERM_CFG
  hysteresisC : Nat
  portNext : Nat                         -- HOST_PORT_CFG
  portNow : Nat
  layouts : Tab Layout                   -- stored layout, R368
  dies : Tab DieTemp
  lowPower : Bool
  fwRunning : FwImage
  fwStored : Option FwImage              -- none: the store holds no image that verifies
  fwStaged : Option FwImage
  committing : Option (Option Nat)       -- a commit in progress: the handle slot of FW_UPDATE, none for PLDM
  secVersion : Nat
  rom : RomRec
  fuseEpoch : Nat
  debugToken : Option Nat                -- scope of a recorded unlock token (R387)
  debugOpen : Nat                        -- dies whose ports this boot opened
  challenge : Nat
  mgmt : List MgmtReport
  deriving DecidableEq, Repr

/-- The machine: platform, device, and the commands that wait, first in first out. -/
structure State where
  plat : Plat
  dev : Dev
  pending : List Instr
  deriving DecidableEq, Repr

/-! ## Reset -/

/-- An accumulator after zeroing: FP32 +0 (R118, R79). -/
def Acc.reset : Acc := ⟨false, [], [], [], 0⟩

/-- Zero causes. -/
def Causes.reset : Causes := ⟨0, 0, 0, 0, 0, 0⟩

/-- A core that no run uses, its contents zeroed (R79). -/
def Core.reset : Core where
  phase := .idle
  run := none
  progMem := []
  pc := 0
  aregs := []
  loops := []
  preds := 1
  sp := []
  acc0 := Acc.reset
  acc1 := Acc.reset
  window := []
  nextId := 0
  climb := none
  usnea := []
  groupCnt := []
  descrs := []
  dmaQ := []
  rings := []
  fetchBuf := []
  streams := []
  stat := ⟨0, 0, 0, 0⟩
  done := none
  reported := false
  layerEnd := false
  causes := Causes.reset
  stealAt := []
  stallFrom := 0
  fault := none
  faulted := false
  bad := []
  soft := []
  eccFixed := 0
  strides := (0, 0)

/-- A cluster after zeroing; every core passed (R77: core_map 0x0FF, spare 8). -/
def Cluster.reset : Cluster where
  mem := []
  work := []
  workFw := []
  credit := []
  bits := []
  chan := []
  budget := []
  pgQ := []
  walks := []
  descQ := []
  failed := false
  bad := []
  soft := []
  eccFixed := 0
  suspect := false
  coreMap := 0xFF
  spare := 8

/-- Tick parameters after PARTITION_SET (R25). -/
def TickPar.reset : TickPar := ⟨1000000, 250000, 0, 2⟩

/-- A generator at its boundary t_0 (R24, R27). -/
def Tick.reset : Tick where
  origin := 0
  held := none
  index := 0
  start := 0
  par := TickPar.reset
  next := []
  faultStop := false
  overrunSeen := false
  inStretch := false
  boundary := none
  late := []
  skew := []

/-- A partition that is not configured. -/
def Part.reset : Part where
  layout := none
  inst := 0
  gen := 0
  oldGen := none
  pfxKey := []
  state := .attached
  everAttached := false
  tick := Tick.reset
  regions := []
  nextRegion := 1
  programs := []
  micro := []
  microNext := []
  pipes := []
  seqs := []
  seqGens := []
  frames := []
  storeUsed := []
  blocks := []
  reserveUsed := []
  released := []
  demoting := []
  staged := []
  nodes := []
  nextNode := 0
  ledger := ⟨[], [], [], [], false, false⟩
  events := ⟨[], 1⟩
  counters := []
  resident := []
  migr := []
  storeMigr := []
  reserve := []
  evict := []
  askers := []
  fetchTurn := 0
  fetchLeft := 0
  denied := []
  promoted := []
  sectors := []
  storeSectors := []
  importKeys := []
  importCount := 0
  keys := []
  sessions := []
  resumes := []

/-- A stack before its boot tests (R259: status fields 0). -/
def Stack.reset : Stack where
  dram := []
  poison := []
  lines := []
  clock := 0
  badWays := []
  chanMap := []
  tags := []
  conv := []
  waiting := []
  port := []
  tokens := 4096
  drawn := 0
  temp := 0
  step := 0
  hot := 0
  tripped := false
  tripSeen := false
  throttleSeen := false
  poisonSeen := false
  rereadSeen := false
  suspect := false
  spares := 0
  errors := []
  corrected := []
  refreshed := []
  scrubbed := 0
  stepSince := 0
  reply := none

/-- Spare blocks at manufacture: 64 TiB raw less 56 TiB usable, in 24 MiB blocks (R264). -/
def spareBlocks : Nat := 8 * 2 ^ 40 / (24 * 2 ^ 20)

/-- Blocks of the raw capacity (R264). -/
def rawBlocks : Nat := 64 * 2 ^ 40 / (24 * 2 ^ 20)

/-- The tier before it is mounted (R280). -/
def Tier.reset : Tier := ⟨false, false, false, false, spareBlocks, rawBlocks, 0, 0, []⟩

/-- A link at full width: 32 lanes between compute dies, 16 to the I/O die (R281, R286). -/
def Link.reset (l : Nat) : Link where
  state := 0
  lanes := if l < 6 then 32 else 16
  retrains := 0
  narrowed := false
  retrainSeen := false
  replaySeen := false
  runCount := 0
  runStart := none
  outage := 0
  lastRetrain := none
  crc := []
  replays := []
  runs := []
  payload := []

/-- A hub that works. -/
def Hub.reset : Hub := ⟨false, 0⟩

/-- An engine without sessions. -/
def Engine.reset : Engine where
  sessions := []
  nextSession := 1
  coding := none
  seeds := []
  ends := []
  lastPart := none
  zeroed := 0
  turn := 0
  turnLeft := 0
  failed := false
  seen := []

/-- Nothing seen (AGATE_STATUS). -/
def EngSeen.reset : EngSeen := ⟨false, false, false, false, false⟩

/-- A queue pair at reset: DISABLED, every field 0, phase 1 (R347, R350, R366). -/
def Qp.reset : Qp where
  sqBase := 0
  cqBase := 0
  sqInDev := false
  cqInDev := false
  enable := false
  cfgError := false
  irqEn := false
  eventEn := false
  vector := 0
  cqLog2 := 0
  sqLog2 := 0
  state := 0
  sqHead := 0
  sqTail := 0
  cqHead := 0
  cqWrite := 0
  phase := true
  held := 0
  stalled := false
  uncovered := 0

/-- A function at reset (R336: the BAR2 window at 0x3C00_0000_0000, 256 MiB). Every function number has a
record; `present` marks those that exist. -/
def Fn.reset : Fn where
  present := false
  attached := false
  awaiting := false
  bar2Base := 0x3C0000000000
  bar2Log2 := 28
  bar2Abort := 0
  ide := []
  qps := []
  events := []
  lost := 0
  latches := []
  writeRefused := false
  msix := []
  sent := []
  cause := 0xFF
  dropped := 0
  departAt := 0
  lastHandle := 0
  reply := none
  bar2Wait := []
  rejects := 0

/-- A port whose link is down. -/
def Port.reset : Port := ⟨false, 0, 0, false, false, 0, false, false⟩

/-- The host side at reset. -/
def HostSide.reset : HostSide where
  fns := []
  ports := []
  live := []
  gens := []
  order := 0
  mem := []
  late := []

/-- The device at the start of a boot (R400: the module counter starts at 0). -/
def Dev.reset : Dev where
  now := 0
  free := 0
  host := HostSide.reset
  parts := []
  cores := []
  clusters := []
  beryl := []
  tier := Tier.reset
  tlb := []
  links := []
  hubs := []
  engines := []
  modEvents := ⟨[], 1⟩
  carnelian := true
  mctp := []
  spdmReply := none
  reports := []

/-- The layout the module ships with (R368). -/
def Layout.shipped : Layout where
  dies := 0xF
  holdLimit := 2
  dirtyPct := 25
  graceS := 30
  keepQuota := 16
  ideRequired := false
  handleQuota := 2 ^ 18
  agateUnits := 0
  unifiedGib := 49152
  storeGib := 8192
  volatileGib := 512
  poolGib := 496
  regions := [⟨0, 0, 512⟩]
  functions := [(0, 64)]

/-- ROM recovery at reset (R419). -/
def RomRec.reset : RomRec := ⟨0, 0, 0, false, 0, [], []⟩

/-- The platform of a shipped module at the start of its first boot (R368, R411, R430). -/
def Plat.reset : Plat where
  input := true
  latch := none
  boot := .stage 0
  pwrgd := true
  alert := false
  led := false
  thermTrip := false
  fault := false
  clean := true
  cause := none
  savedCause := none
  throttleC := 0x5F
  hysteresisC := 0x05
  portNext := 0
  portNow := 0
  layouts := [(0, Layout.shipped)]
  dies := []
  lowPower := false
  fwRunning := ⟨0, []⟩
  fwStored := some ⟨0, []⟩
  fwStaged := none
  committing := none
  secVersion := 0
  rom := RomRec.reset
  fuseEpoch := 0
  debugToken := none
  debugOpen := 0
  challenge := 0
  mgmt := []

/-- The machine right after reset: powered, the boot at its start, no command waiting (R411). -/
def State.reset : State := ⟨Plat.reset, Dev.reset, []⟩

end Sys2Proof.Machine
end

