-- ==== Sys2Proof/Machine/Ops.lean ====
section
/-!
DEFINITION. The shared operations over tables, memories, and the records of State: lookups and
updates, status codes, free values, counters, and the event records of R400.
-/

namespace Sys2Proof.Machine

/-! ## Tables -/

/-- What a table lists under a key. -/
def Tab.find {α : Type} (t : Tab α) (k : Nat) : Option α := (t.find? (fun e => e.1 == k)).map (·.2)

/-- What a table holds under a key, unlisted keys holding `z`. -/
def Tab.getD {α : Type} (t : Tab α) (k : Nat) (z : α) : α := (Tab.find t k).getD z

/-- The table with one key set. -/
def Tab.put {α : Type} (t : Tab α) (k : Nat) (v : α) : Tab α :=
  t.filter (fun e => decide (e.1 < k)) ++ (k, v) :: t.filter (fun e => decide (k < e.1))

/-- The table without one key. -/
def Tab.del {α : Type} (t : Tab α) (k : Nat) : Tab α := t.filter (fun e => e.1 != k)

/-- Whether a table lists a key. -/
def Tab.has {α : Type} (t : Tab α) (k : Nat) : Bool := t.any (fun e => e.1 == k)

/-- The values of a table, by rising key. -/
def Tab.vals {α : Type} (t : Tab α) : List α := t.map (·.2)

/-- The keys of a table. -/
def Tab.keys {α : Type} (t : Tab α) : List Nat := t.map (·.1)

/-- Adds to a number a table holds, unlisted keys holding 0. -/
def Tab.add (t : Tab Nat) (k n : Nat) : Tab Nat := Tab.put t k (Tab.getD t k 0 + n)

/-- Adds to a 64-bit counter that saturates (R402). -/
def Tab.bump (t : Tab Nat) (k n : Nat) : Tab Nat := Tab.put t k (satAdd (Tab.getD t k 0) n)

/-- The first number below `n`, from `lo`, that a table does not list. -/
def Tab.firstFree {α : Type} (t : Tab α) (lo n : Nat) : Option Nat :=
  ((List.range (n - lo)).map (· + lo)).find? (fun i => !Tab.has t i)

/-! ## Memories -/

/-- One byte; an unlisted address reads zero (R79, R265, R345). -/
def Mem.byte (m : Mem) (a : Nat) : Byte := ((m.find? (fun e => e.1 == a)).map (·.2)).getD 0

/-- `n` bytes from address `a`. -/
def Mem.read (m : Mem) (a n : Nat) : Bytes := (List.range n).map (fun i => Mem.byte m (a + i))

/-- The cells of a byte string laid down at `a`; zeros need no cell. -/
def Mem.cells : Nat → Bytes → Mem
  | _, [] => []
  | a, b :: bs => if b = 0 then Mem.cells (a + 1) bs else (a, b) :: Mem.cells (a + 1) bs

/-- The memory with a byte string laid down at `a`. -/
def Mem.write (m : Mem) (a : Nat) (bs : Bytes) : Mem :=
  m.filter (fun e => decide (e.1 < a)) ++ Mem.cells a bs ++
    m.filter (fun e => decide (a + bs.length ≤ e.1))

/-- The memory with `[a, a + n)` zeroed. -/
def Mem.clear (m : Mem) (a n : Nat) : Mem :=
  m.filter (fun e => decide (e.1 < a) || decide (a + n ≤ e.1))

/-- The canonical form: addresses strictly rising, no listed byte zero. -/
def Memory.wf (m : Mem) : Bool :=
  decide (m.Pairwise (fun x y => x.1 < y.1)) && m.all (fun e => e.2 != 0)

/-- A little-endian number in memory. -/
def Mem.nat (m : Mem) (a n : Nat) : Nat := leNat (Mem.read m a n)

/-- Stores a little-endian number of `n` bytes. -/
def Mem.putNat (m : Mem) (a n v : Nat) : Mem := Mem.write m a (natLE n v)

/-- A byte string with `bs` laid over it at `off`, its length kept. -/
def overlay (base : Bytes) (off : Nat) (bs : Bytes) : Bytes :=
  base.take off ++ (bs ++ base.drop (off + bs.length)).take (base.length - off)

/-! ## Status codes (R362) -/

/-- OK. -/
def stOK : Nat := 0x00
/-- INVALID. -/
def stInvalid : Nat := 0x01
/-- UNSUPPORTED. -/
def stUnsupported : Nat := 0x02
/-- BOUNDS. -/
def stBounds : Nat := 0x03
/-- ALIGN. -/
def stAlign : Nat := 0x04
/-- COUNT. -/
def stCount : Nat := 0x05
/-- LENGTH. -/
def stLength : Nat := 0x06
/-- NO_SPACE. -/
def stNoSpace : Nat := 0x07
/-- PARTITION. -/
def stPartition : Nat := 0x08
/-- AUTH. -/
def stAuth : Nat := 0x09
/-- BUSY. -/
def stBusy : Nat := 0x0A
/-- TIMEOUT. -/
def stTimeout : Nat := 0x0B
/-- ABORTED. -/
def stAborted : Nat := 0x0C
/-- STALE. -/
def stStale : Nat := 0x0D
/-- OVERRUN. -/
def stOverrun : Nat := 0x0E
/-- QUALITY. -/
def stQuality : Nat := 0x0F
/-- DEVICE_FAULT. -/
def stDeviceFault : Nat := 0x10
/-- QUIESCED. -/
def stQuiesced : Nat := 0x11
/-- SUSPENDED. -/
def stSuspended : Nat := 0x12

/-- The first failing check in ascending offset: a check is its offset, its status and whether it failed. -/
def firstFail (cs : List (Nat × Nat × Bool)) : Option (Nat × Nat) :=
  (cs.filter (fun c => c.2.2)).foldl
    (fun best c => match best with
      | none => some (c.2.1, c.1)
      | some b => if c.1 < b.2 then some (c.2.1, c.1) else some b) none

/-- Two passes of checks (R83): the first failure of the first pass that has one. -/
def twoPass (p1 p2 : List (Nat × Nat × Bool)) : Option (Nat × Nat) :=
  match firstFail p1 with
  | some f => some f
  | none => firstFail p2

/-! ## The device's records -/

/-- A core. -/
def Dev.core (d : Dev) (c : Nat) : Core := Tab.getD d.cores c Core.reset
/-- Sets a core. -/
def Dev.setCore (d : Dev) (c : Nat) (k : Core) : Dev := { d with cores := Tab.put d.cores c k }
/-- Changes a core. -/
def Dev.modCore (d : Dev) (c : Nat) (f : Core → Core) : Dev := d.setCore c (f (d.core c))

/-- A partition. -/
def Dev.part (d : Dev) (p : Nat) : Part := Tab.getD d.parts p Part.reset
/-- Sets a partition. -/
def Dev.setPart (d : Dev) (p : Nat) (x : Part) : Dev := { d with parts := Tab.put d.parts p x }
/-- Changes a partition. -/
def Dev.modPart (d : Dev) (p : Nat) (f : Part → Part) : Dev := d.setPart p (f (d.part p))

/-- A cluster, numbered die × 8 + cluster. -/
def Dev.cluster (d : Dev) (c : Nat) : Cluster := Tab.getD d.clusters c Cluster.reset
/-- Sets a cluster. -/
def Dev.setCluster (d : Dev) (c : Nat) (x : Cluster) : Dev := { d with clusters := Tab.put d.clusters c x }
/-- Changes a cluster. -/
def Dev.modCluster (d : Dev) (c : Nat) (f : Cluster → Cluster) : Dev := d.setCluster c (f (d.cluster c))

/-- A stack. -/
def Dev.stack (d : Dev) (s : Nat) : Stack := Tab.getD d.beryl s Stack.reset
/-- Sets a stack. -/
def Dev.setStack (d : Dev) (s : Nat) (x : Stack) : Dev := { d with beryl := Tab.put d.beryl s x }
/-- Changes a stack. -/
def Dev.modStack (d : Dev) (s : Nat) (f : Stack → Stack) : Dev := d.setStack s (f (d.stack s))

/-- A die link. -/
def Dev.link (d : Dev) (l : Nat) : Link := Tab.getD d.links l (Link.reset l)
/-- Changes a die link. -/
def Dev.modLink (d : Dev) (l : Nat) (f : Link → Link) : Dev :=
  { d with links := Tab.put d.links l (f (d.link l)) }

/-- A hub: level × 256 + unit. -/
def Dev.hub (d : Dev) (u : Nat) : Hub := Tab.getD d.hubs u Hub.reset
/-- Changes a hub. -/
def Dev.modHub (d : Dev) (u : Nat) (f : Hub → Hub) : Dev := { d with hubs := Tab.put d.hubs u (f (d.hub u)) }

/-- An Agate engine. -/
def Dev.engine (d : Dev) (j : Nat) : Engine := Tab.getD d.engines j Engine.reset
/-- Sets an engine. -/
def Dev.setEngine (d : Dev) (j : Nat) (e : Engine) : Dev := { d with engines := Tab.put d.engines j e }
/-- Changes an engine. -/
def Dev.modEngine (d : Dev) (j : Nat) (f : Engine → Engine) : Dev := d.setEngine j (f (d.engine j))

/-- A function. -/
def Dev.fn (d : Dev) (f : Nat) : Fn := Tab.getD d.host.fns f Fn.reset
/-- Sets a function. -/
def Dev.setFn (d : Dev) (f : Nat) (x : Fn) : Dev := { d with host := { d.host with fns := Tab.put d.host.fns f x } }
/-- Changes a function. -/
def Dev.modFn (d : Dev) (f : Nat) (g : Fn → Fn) : Dev := d.setFn f (g (d.fn f))

/-- A queue pair of a function. -/
def Fn.qp (f : Fn) (q : Nat) : Qp := Tab.getD f.qps q Qp.reset
/-- Changes a queue pair of a function. -/
def Fn.modQp (f : Fn) (q : Nat) (g : Qp → Qp) : Fn := { f with qps := Tab.put f.qps q (g (f.qp q)) }
/-- Changes a queue pair. -/
def Dev.modQp (d : Dev) (f q : Nat) (g : Qp → Qp) : Dev := d.modFn f (fun x => x.modQp q g)

/-- A port. -/
def Dev.port (d : Dev) (n : Nat) : Port := Tab.getD d.host.ports n Port.reset
/-- Changes a port. -/
def Dev.modPort (d : Dev) (n : Nat) (g : Port → Port) : Dev :=
  { d with host := { d.host with ports := Tab.put d.host.ports n (g (d.port n)) } }

/-- The command of a live handle slot. -/
def Dev.cmd (d : Dev) (h : Nat) : Option Cmd := Tab.find d.host.live h
/-- Sets the command of a handle slot. -/
def Dev.setCmd (d : Dev) (h : Nat) (c : Cmd) : Dev := { d with host := { d.host with live := Tab.put d.host.live h c } }
/-- Changes the command of a live handle slot. -/
def Dev.modCmd (d : Dev) (h : Nat) (f : Cmd → Cmd) : Dev :=
  match d.cmd h with
  | some c => d.setCmd h (f c)
  | none => d

/-- A sequence slot of a partition. -/
def Part.seq (x : Part) (s : Nat) : Option Seq := Tab.find x.seqs s
/-- Sets a sequence slot. -/
def Part.setSeq (x : Part) (s : Nat) (q : Seq) : Part := { x with seqs := Tab.put x.seqs s q }
/-- Changes a sequence slot that holds a sequence. -/
def Part.modSeq (x : Part) (s : Nat) (f : Seq → Seq) : Part :=
  match x.seq s with
  | some q => x.setSeq s (f q)
  | none => x

/-- Changes a submitted pipeline. -/
def Part.modPipe (x : Part) (s : Nat) (f : Pipe → Pipe) : Part :=
  match Tab.find x.pipes s with
  | some q => { x with pipes := Tab.put x.pipes s (f q) }
  | none => x

/-- Changes the run of a pipeline. -/
def Pipe.modRun (x : Pipe) (f : Run → Run) : Pipe :=
  match x.run with
  | some r => { x with run := some (f r) }
  | none => x

/-! ## Numbers of things -/

/-- The die of a core (R9). -/
def dieOfCore (c : Nat) : Nat := c / 64
/-- The cluster of a core, numbered die × 8 + cluster (R9). -/
def clusterOfCore (c : Nat) : Nat := c / 8

/-- The dies of a layout, ascending. -/
def Layout.dieList (y : Layout) : List Nat := (List.range 4).filter (fun i => bitOf y.dies i)
/-- Whether a layout holds a die. -/
def Layout.hasDie (y : Layout) (die : Nat) : Bool := decide (die < 4) && bitOf y.dies die
/-- Whether a partition holds a die. -/
def Part.hasDie (x : Part) (die : Nat) : Bool :=
  match x.layout with
  | some y => y.hasDie die
  | none => false

/-- The partition a compute die belongs to (R196). -/
def Dev.ownerOfDie (d : Dev) (die : Nat) : Option Nat :=
  (List.range 4).find? (fun p => (d.part p).hasDie die)

/-- The partition a function belongs to (R333). -/
def Dev.ownerOfFn (d : Dev) (f : Nat) : Option Nat :=
  (List.range 4).find? (fun p => match (d.part p).layout with
    | some y => y.functions.any (fun e => e.1 == f)
    | none => false)

/-- The functions of a partition. -/
def Part.fnList (x : Part) : List Nat :=
  match x.layout with
  | some y => y.functions.map (·.1)
  | none => []

/-- The tick counter of a partition (R24, R409). -/
def Dev.tc (d : Dev) (p : Nat) : Nat :=
  match (d.part p).tick.held with
  | some v => v
  | none => d.now - (d.part p).tick.origin

/-- A fresh free value below nothing in particular, and the state that has drawn it. -/
def Dev.draw (d : Dev) : Nat × Dev := (Config.freeNat d.free, { d with free := d.free + 1 })

/-- Moves the module counter forward to an instant not before it. -/
def Dev.reach (d : Dev) (t : Nat) : Dev := { d with now := max d.now t }

/-! ## Counters of class 6 (R402), by index -/

/-- Adds to a counter of a partition. -/
def Dev.count (d : Dev) (p i n : Nat) : Dev :=
  if n = 0 then d else d.modPart p (fun x => { x with counters := Tab.bump x.counters i n })

/-! ## Event records (R400) -/

/-- Puts a record in a ring of 4,096; a full ring loses its oldest. The second part is 1 for a loss. -/
def EventRing.post (r : EventRing) (e : EventRec) : EventRing × Nat :=
  let recs := r.recs ++ [{ e with seq := r.nextSeq }]
  if recs.length ≤ 4096 then (⟨recs, r.nextSeq + 1⟩, 0)
  else (⟨recs.drop 1, r.nextSeq + 1⟩, 1)

/-- A record with nothing in it but its code, class and block (R434). -/
def EventRec.blank (code cls block : Nat) : EventRec where
  stamp := 0
  window := none
  seq := 0
  code := code
  cls := cls
  block := block
  partition := 0xFF
  status := 0
  unit := 0xFFFF
  handle := 0
  core := 0xFFFF
  word := 0xFFFF
  debugTag := 0
  d0 := 0
  d1 := 0

/-- Adds a record to a partition's ring, stamped on its tick counter. -/
def Dev.partEvent (d : Dev) (p : Nat) (e : EventRec) : Dev :=
  let r := (d.part p).events.post { e with stamp := d.tc p, window := none, partition := p }
  (d.modPart p (fun x => { x with events := r.1 })).count p 20 r.2

/-- Adds a record to the module ring, stamped on the module counter. -/
def Dev.modEvent (d : Dev) (e : EventRec) : Dev :=
  { d with modEvents := (d.modEvents.post { e with stamp := d.now, window := some ones64 }).1 }

/-- The event ring a function's records go to: its partition's, or the module's (R434). -/
def Dev.fnEvent (d : Dev) (f : Nat) (e : EventRec) : Dev :=
  match d.ownerOfFn f with
  | some p => d.partEvent p e
  | none => d.modEvent e

/-! ## EVENT entries that wait (R356) -/

/-- Queues an EVENT for a function; beyond 1,024 it is counted and dropped. -/
def Dev.queueEvent (d : Dev) (f code d0 d1 : Nat) : Dev :=
  let own := d.ownerOfFn f
  let stamp := match own with
    | some p => d.tc p
    | none => d.now
  if (d.fn f).events.length < 1024 then
    d.modFn f (fun x => { x with events := x.events ++ [⟨code, stamp, d0, d1⟩] })
  else
    let d := d.modFn f (fun x => { x with lost := x.lost + 1 })
    match own with
    | some p => d.count p 21 1
    | none => d

/-- Queues an EVENT for every function of a partition. -/
def Dev.queueEvents (d : Dev) (p code d0 d1 : Nat) : Dev :=
  (d.part p).fnList.foldl (fun d f => d.queueEvent f code d0 d1) d

/-! ## The platform and the device -/

/-- Whether the module serves work: powered, nothing latched, booted to READY, no module fault. -/
def Plat.up (x : Plat) : Bool := x.input && x.latch.isNone && x.boot == .ready && !x.fault

/-- The state with its device changed. -/
def State.onDev (s : State) (f : Dev → Dev) : State := { s with dev := f s.dev }

/-- The outcome of a command on a unit that exists or does not. -/
def onUnit (ok : Bool) (s : State) : Host.Outcome State Fault Refusal :=
  if ok then .next s else .fault .noSuchUnit

/-- A command whose effect lies in the device, and that acts only while the module runs. -/
def whenUp (s : State) (f : Dev → Dev) : State := if s.plat.up then s.onDev f else s

end Sys2Proof.Machine
end

