-- ==== Sys2Proof/Machine/Dram.lean ====
section
/-!
DEFINITION. The base die (R239 to R263): where an address lands, the memory-side cache and its hints,
generation tags, ECC and poison; and the accesses of a partition to its volatile range, its resident
unified pages and its page frames. A byte read from a poisoned atom is `none`.
-/

namespace Sys2Proof.Machine

/-! ## Where an address lands (R241 to R244) -/

/-- The start of the volatile range (R14). -/
def volBase : Nat := 0x3C0000000000

/-- One GiB. -/
def gib : Nat := 2 ^ 30

/-- The stacks of a partition, ascending (R10). -/
def Layout.stackList (y : Layout) : List Nat :=
  y.dieList.flatMap (fun die => (List.range 4).map (fun i => 4 * die + i))

/-- The stack list of an interleave region (R241). -/
def Layout.regionStacks (y : Layout) (r : Region) : List Nat :=
  if r.mode = 0 then y.stackList else (List.range 4).map (fun i => 4 * r.die + i)

/-- The granules a region reserves on a stack (R242). -/
def Layout.regionGranules (y : Layout) (r : Region) (s : Nat) : Nat :=
  let l := y.regionStacks r
  if l.contains s then ceilDiv (r.gib * gib) (2048 * l.length) else 0

/-- The base on a stack of what follows the given regions (R242). -/
def Layout.baseAfter (y : Layout) (rs : List Region) (s : Nat) : Nat :=
  0x40000000 + 2048 * (rs.map (fun r => y.regionGranules r s)).foldl (· + ·) 0

/-- The pool base of a stack (R242). -/
def Layout.poolBase (y : Layout) (s : Nat) : Nat := y.baseAfter y.regions s

/-- Where byte `off` of the volatile allocation lies: stack and stack-local address (R242). -/
def Layout.volPlace (y : Layout) (off : Nat) : Nat × Nat :=
  let rec go : List Region → List Region → Nat → Nat × Nat
    | _, [], _ => (0, 0)
    | before, r :: rest, o =>
      if o < r.gib * gib ∨ rest = [] then
        let l := y.regionStacks r
        let g := o / 2048
        let s := l.getD (g % l.length) 0
        (s, y.baseAfter before s + (g / l.length) * 2048 + o % 2048)
      else go (before ++ [r]) rest (o - r.gib * gib)
  go [] y.regions off

/-- Where byte `j` of frame `f` on a die lies (R242). -/
def Layout.framePlace (y : Layout) (die f j : Nat) : Nat × Nat :=
  let g := j / 2048
  let s := 4 * die + g % 4
  (s, y.poolBase s + f * 16384 + (g / 4) * 2048 + j % 2048)

/-- Frames of the page pool on each die (R243). -/
def Layout.framesPerDie (y : Layout) : Nat :=
  if y.dieList.length = 0 then 0 else y.poolGib * gib / 65536 / y.dieList.length

/-- The logical channel of a stack-local address (R244). -/
def chanOf (l : Nat) : Nat := Nat.xor ((l / 2 ^ 11) % 128) ((l / 2 ^ 18) % 128)
/-- The bank of a stack-local address (R244). -/
def bankOf (l : Nat) : Nat := (l / 2 ^ 18) % 32
/-- The row of a stack-local address (R244). -/
def rowOf (l : Nat) : Nat := (l / 2 ^ 23) % 2 ^ 13

/-! ## The base die's service of one 128-byte line -/

/-- Bytes read, `none` where poisoned. -/
abbrev PBytes := List (Option (BitVec 8))

/-- The service in progress: the stack, and what it has to report. -/
structure Svc where
  st : Stack
  corrected : Nat
  reread : Nat
  lost : List Nat
  refused : Nat
  atoms : Nat
  hour : Nat
  firsts : List Nat                      -- atoms whose first read was uncorrectable
  deriving DecidableEq, Repr

/-- Counts an uncorrectable first read on its channel, by the hour (R263). -/
def Svc.badRead (v : Svc) (a : Nat) : Svc :=
  { v with
    firsts := v.firsts ++ [a]
    st := { v.st with errors := Tab.add v.st.errors (chanOf (a * 32) + 128 * v.hour) 1 } }

/-- Reads a DRAM atom with what ECC finds (R260 to R262). -/
def Svc.readAtom (v : Svc) (a : Nat) (ecc : EccOutcome) : PBytes × Svc :=
  let v := { v with atoms := v.atoms + 1 }
  let data : PBytes := (Mem.read v.st.dram (a * 32) 32).map some
  let lostData : PBytes := List.replicate 32 none
  if Tab.has v.st.poison a then (lostData, { v with st := { v.st with poisonSeen := true } })
  else match ecc with
  | .clean => (data, v)
  | .corrected =>
    (data, { v with corrected := v.corrected + 1,
                    st := { v.st with corrected := Tab.add v.st.corrected (chanOf (a * 32)) 1 } })
  | .reread =>
    let v := v.badRead a
    (data, { v with reread := v.reread + 1, st := { v.st with rereadSeen := true } })
  | .lost =>
    let v := v.badRead a
    (lostData, { v with lost := v.lost ++ [a],
                        st := { v.st with poison := Tab.put v.st.poison a 1, poisonSeen := true } })

/-- Writes a whole DRAM atom, which clears its poison, or leaves it poisoned. -/
def Svc.writeAtom (v : Svc) (a : Nat) (bs : Bytes) (bad : Bool) : Svc :=
  { v with atoms := v.atoms + 1,
           st := { v.st with
                   dram := Mem.write v.st.dram (a * 32) bs,
                   poison := if bad then Tab.put v.st.poison a 1 else Tab.del v.st.poison a } }

/-- Writes the dirty atoms of a line to DRAM (R247). -/
def Svc.writeBack (v : Svc) (ln : Nat) (x : Line) : Svc :=
  (List.range 4).foldl
    (fun v i => if bitOf x.dirty i then
        v.writeAtom (ln * 4 + i) (Mem.read x.data (32 * i) 32) (bitOf x.poison i) else v) v

/-- The lines of a set (R247: set = L[21:7]). -/
def Stack.inSet (st : Stack) (set : Nat) : List (Nat × Line) :=
  st.lines.filter (fun e => e.1 % 32768 == set)

/-- The ways a set runs with: 16 of the 17 that pass, 15 when it has lost two (R247). -/
def Stack.ways (st : Stack) (set : Nat) : Nat := min 16 (17 - Tab.getD st.badWays set 0)

/-- Makes room in a set: the least recently used line whose keep bit is clear leaves (R248). -/
def Svc.makeRoom (v : Svc) (ln : Nat) : Svc :=
  let inSet := v.st.inSet (ln % 32768)
  if inSet.length < v.st.ways (ln % 32768) then v
  else
    let old := (inSet.filter (fun e => !e.2.keep)).foldl
      (fun (best : Option (Nat × Line)) e => match best with
        | none => some e
        | some b => if e.2.used < b.2.used then some e else some b) none
    match old with
    | none => v
    | some e =>
      let v := v.writeBack e.1 e.2
      { v with st := { v.st with lines := Tab.del v.st.lines e.1 } }

/-- Whether a keep request may set the keep bit (R249). -/
def Stack.keepOk (st : Stack) (ln quota : Nat) : Bool :=
  let kept := st.lines.filter (fun e => e.2.keep)
  decide ((kept.length + 1) * 128 ≤ quota * 2 ^ 20) &&
    decide ((kept.filter (fun e => e.1 % 32768 == ln % 32768)).length + 1 ≤ 12)

/-- An empty line. -/
def Line.blank : Line := ⟨0, 0, 0, false, 0, []⟩

/-- A line with one atom filled or written. -/
def Line.setAtom (x : Line) (i : Nat) (bs : PBytes) (dirty : Bool) : Line :=
  let bit := 2 ^ i
  let bad := bs.any (·.isNone)
  { x with
    valid := Nat.lor x.valid bit
    dirty := if dirty then Nat.lor x.dirty bit else x.dirty - (if bitOf x.dirty i then bit else 0)
    poison := if bad then Nat.lor x.poison bit else x.poison - (if bitOf x.poison i then bit else 0)
    data := Mem.write x.data (32 * i) (bs.map (·.getD 0)) }

/-- An atom held in a line. -/
def Line.atom (x : Line) (i : Nat) : PBytes :=
  if bitOf x.poison i then List.replicate 32 none else (Mem.read x.data (32 * i) 32).map some

/-- Puts a line in the cache as the most recently used, with a keep request taken under R249. -/
def Svc.install (v : Svc) (ln quota : Nat) (keep : Bool) (x : Line) : Svc :=
  let clock := v.st.clock + 1
  let grant := keep && (x.keep || v.st.keepOk ln quota)
  let refused := keep && !grant
  { v with
    refused := v.refused + b2n refused
    st := { v.st with
            clock := clock
            lines := Tab.put v.st.lines ln { x with used := clock, keep := x.keep || grant } } }

/-- Serves a read of some atoms of a line (R248). -/
def Svc.readLine (v : Svc) (ln : Nat) (atoms : List Nat) (hint quota : Nat) (ecc : EccOutcome) :
    List PBytes × Svc :=
  let cur := Tab.find v.st.lines ln
  let base := cur.getD Line.blank
  let hit := fun i => bitOf base.valid i
  let firstMiss := atoms.find? (fun i => !hit i)
  let r := atoms.foldl
    (fun (acc : List PBytes × Svc) i =>
      if hit i then (acc.1 ++ [base.atom i], acc.2)
      else
        let q := acc.2.readAtom (ln * 4 + i) (if some i = firstMiss then ecc else .clean)
        (acc.1 ++ [q.1], q.2)) ([], v)
  let v := r.2
  let v := if (atoms.any (fun i => hit i && bitOf base.poison i)) then
      { v with st := { v.st with poisonSeen := true } } else v
  if hint = 0 ∨ hint = 2 then
    let filled := (atoms.zip r.1).foldl
      (fun (x : Line) e => if hit e.1 then x else x.setAtom e.1 e.2 false) base
    let v := if cur.isNone then v.makeRoom ln else v
    (r.1, v.install ln quota (hint == 2) filled)
  else if hint = 3 ∧ atoms.any hit then
    (r.1, { v with st := { v.st with lines := Tab.del v.st.lines ln } })
  else (r.1, v)

/-- Serves a write of whole atoms of a line (R248, R254): `gen` is the partition's write generation. -/
def Svc.writeLine (v : Svc) (ln : Nat) (atoms : List (Nat × PBytes)) (hint quota gen : Nat) : Svc :=
  let cur := Tab.find v.st.lines ln
  let base := cur.getD Line.blank
  let v := { v with st := { v.st with tags := Tab.put v.st.tags (ln / 128) gen } }
  if hint = 0 ∨ hint = 2 then
    let x := atoms.foldl (fun (x : Line) e => x.setAtom e.1 e.2 true) base
    let v := if cur.isNone then v.makeRoom ln else v
    v.install ln quota (hint == 2) x
  else
    let v := atoms.foldl (fun (v : Svc) e =>
      v.writeAtom (ln * 4 + e.1) (e.2.map (·.getD 0)) (e.2.any (·.isNone))) v
    match cur with
    | none => v
    | some x =>
      let x := atoms.foldl
        (fun (x : Line) e => if bitOf x.valid e.1 then x.setAtom e.1 e.2 false else x) x
      { v with st := { v.st with lines := Tab.put v.st.lines ln x } }

/-! ## Accesses of a partition -/

/-- The keep quota of a partition. -/
def Part.quota (x : Part) : Nat := (x.layout.map (·.keepQuota)).getD 0

/-- Starts a service of a stack. -/
def Dev.svc (d : Dev) (s : Nat) : Svc := ⟨d.stack s, 0, 0, [], 0, 0, d.now / 3600000000000, []⟩

/-- Ends a service: the stack with the tokens its DRAM atoms took, the partition's counters, poisonings and suspect
channels (R258, R262, R263). -/
def Dev.endSvc (d : Dev) (s p : Nat) (v : Svc) : Dev :=
  let tally := fun (st : Stack) a => Tab.getD st.errors (chanOf (a * 32) + 128 * v.hour) 0
  let newly := v.firsts.filter (fun a => decide (tally (d.stack s) a ≤ 64) && decide (64 < tally v.st a))
  let d := d.setStack s { v.st with
    suspect := v.st.suspect || !newly.isEmpty
    tokens := if v.st.step = 0 then v.st.tokens else v.st.tokens - v.atoms
    drawn := v.st.drawn + v.atoms }
  let d := { d with reports := d.reports ++ newly.map (fun a => (⟨8, s * 128 + chanOf (a * 32)⟩ : MgmtReport)) }
  let d := (((d.count p 10 v.corrected).count p 11 v.reread).count p 12 v.refused).count p 9 v.lost.length
  let d := v.lost.foldl (fun d a =>
    (d.partEvent p { EventRec.blank 0x0005 2 4 with
      unit := s * 128 + chanOf (a * 32), d0 := s * 128 + chanOf (a * 32),
      d1 := a * 32 }).queueEvents p 0x0005 (s * 128 + chanOf (a * 32)) (a * 32)) d
  newly.foldl (fun d a =>
    d.partEvent p { EventRec.blank 0x0104 4 4 with
      unit := s * 128 + chanOf (a * 32), d0 := tally v.st a }) d

/-- The atoms of a line that a span of it touches. -/
def atomsOf (lo hi : Nat) : List Nat := (List.range 4).filter (fun i => 32 * i < hi ∧ lo < 32 * i + 32)

/-- The lines a span touches. -/
def linesOf (a n : Nat) : List Nat :=
  if n = 0 then [] else (List.range ((a + n - 1) / 128 - a / 128 + 1)).map (· + a / 128)

/-- Reads a span, placed line by line by `loc`. -/
def Dev.spanRead (d : Dev) (p : Nat) (loc : Nat → Nat × Nat) (a n hint : Nat) : PBytes × Dev :=
  (linesOf a n).foldl
    (fun (acc : PBytes × Dev) l =>
      let lo := max a (l * 128) - l * 128
      let hi := min (a + n) (l * 128 + 128) - l * 128
      let pl := loc (l * 128)
      let atoms := atomsOf lo hi
      let r := (acc.2.svc pl.1).readLine (pl.2 / 128) atoms hint (d.part p).quota .clean
      let got := r.1.flatten
      (acc.1 ++ (got.drop (lo % 32)).take (hi - lo), acc.2.endSvc pl.1 p r.2)) ([], d)

/-- Writes a span, placed line by line by `loc`. An atom written in part keeps its other bytes; one that
is poisoned stays poisoned until a write covers it whole (R262). -/
def Dev.spanWrite (d : Dev) (p : Nat) (loc : Nat → Nat × Nat) (a : Nat) (bs : PBytes) (hint : Nat) : Dev :=
  let n := bs.length
  (linesOf a n).foldl
    (fun (d : Dev) l =>
      let lo := max a (l * 128) - l * 128
      let hi := min (a + n) (l * 128 + 128) - l * 128
      let pl := loc (l * 128)
      let atoms := atomsOf lo hi
      let part := (bs.drop (l * 128 + lo - a)).take (hi - lo)
      let whole := lo % 32 == 0 && hi % 32 == 0
      let r := if whole then ([], d.svc pl.1)
        else (d.svc pl.1).readLine (pl.2 / 128) atoms 1 (d.part p).quota .clean
      let old : PBytes := if whole then [] else r.1.flatten
      let full : PBytes := if whole then part
        else old.take (lo % 32) ++ part ++ old.drop (lo % 32 + part.length)
      let put := atoms.zipIdx.filterMap (fun e =>
        let chunk := (full.drop (32 * e.2)).take 32
        let covered := decide (lo ≤ 32 * e.1) && decide (32 * e.1 + 32 ≤ hi)
        if covered || !chunk.any (·.isNone) then some (e.1, chunk) else none)
      let v := r.2.writeLine (pl.2 / 128) put hint (d.part p).quota (d.part p).gen
      d.endSvc pl.1 p v) d

/-! ## Generation tags (R213, R253, R254) -/

/-- The generation of a tag unit (R253): a unit not listed has the older live generation. -/
def tagOf (x : Part) (st : Stack) (unit : Nat) : Nat := Tab.getD st.tags unit (x.oldGen.elim x.gen (·.1))

/-- The tag unit of a frame on a stack of its die. -/
def Layout.frameUnit (y : Layout) (s f : Nat) : Nat := (y.poolBase s + f * 16384) / 16384

/-- The generation of a frame, on which its four tags agree. -/
def Dev.frameGen (d : Dev) (p die f : Nat) : Nat :=
  match (d.part p).layout with
  | some y => tagOf (d.part p) (d.stack (4 * die)) (y.frameUnit (4 * die) f)
  | none => (d.part p).gen

/-- The leaf entries that map a frame carry its generation (R213). -/
def Part.regen (x : Part) (die f : Nat) : Part :=
  { x with seqs := x.seqs.map (fun s => (s.1, { s.2 with entries := s.2.entries.map (fun e =>
      if e.2.tier = 0 ∧ e.2.die = die ∧ e.2.frame = f then (e.1, { e.2 with keyGen := x.gen }) else e) })) }

/-- The four tags of a frame advance together to the write generation, and key_gen with them (R213, R253). -/
def Dev.tagFrame (d : Dev) (p die f : Nat) : Dev :=
  match (d.part p).layout with
  | none => d
  | some y =>
    if d.frameGen p die f = (d.part p).gen then d
    else
      let d := (List.range 4).foldl (fun (d : Dev) i => d.modStack (4 * die + i) (fun st =>
        { st with tags := Tab.put st.tags (y.frameUnit (4 * die + i) f) (d.part p).gen })) d
      d.modPart p (fun x => x.regen die f)

/-! ## What a transfer waits for at the base dies (R245, R254, R258, R259) -/

/-- Whether some request that a base die holds touches an atom of a span: it is served first (R245). -/
def Dev.spanHeld (d : Dev) (loc : Nat → Nat × Nat) (a n : Nat) : Bool :=
  d.beryl.any (fun e => !e.2.waiting.isEmpty) && (linesOf a n).any (fun l =>
    let lo := (max a (l * 128) - l * 128) / 32 * 32
    let hi := min (a + n) (l * 128 + 128) - l * 128
    let q := loc (l * 128)
    ((d.stack q.1).waiting ++ (d.stack q.1).port).any (fun r => decide (r.addr < q.2 + hi) && decide (q.2 + lo < r.addr + r.len)))

/-- Whether the stacks can go on from `d` to `e`: a tripped stack serves no DRAM atom, and a throttled one needs a token
for each, or a full bucket for more than it holds (R258, R259). -/
def Dev.affords (d e : Dev) : Bool :=
  e.beryl.all (fun y =>
    let st := d.stack y.1
    let n := y.2.drawn - st.drawn
    n == 0 || (!st.tripped && (st.step == 0 || decide (min n 4096 ≤ st.tokens))))

/-- A change of the device that waits while the stacks cannot afford its atoms. -/
def Dev.ifAffords (d e : Dev) : Dev := if d.affords e then e else d

/-! ## The links between the I/O die and the compute dies (R13, R286) -/

/-- The state of a compute die's I/O-die link: 0 up, 1 retraining, 2 down. -/
def Dev.ioState (d : Dev) (die : Nat) : Nat := (d.link (6 + die)).state

/-- Counts payload of a compute die's I/O-die link, toward the I/O die or from it. -/
def Dev.carriedIo (d : Dev) (die : Nat) (toIo : Bool) (n : Nat) : Dev :=
  if n = 0 then d else d.modLink (6 + die) (fun x => { x with payload := Tab.bump x.payload (b2n toIo) n })

/-! ## Frames -/

/-- Reads a span of a page frame. -/
def Dev.frameRead (d : Dev) (p die f off n hint : Nat) : PBytes × Dev :=
  match (d.part p).layout with
  | some y => d.spanRead p (fun j => y.framePlace die f j) off n hint
  | none => (List.replicate n (some 0), d)

/-- Writes a span of a page frame. -/
def Dev.frameWrite (d : Dev) (p die f off : Nat) (bs : PBytes) (hint : Nat) : Dev :=
  match (d.part p).layout with
  | some y => (d.tagFrame p die f).spanWrite p (fun j => y.framePlace die f j) off bs hint
  | none => d

/-! ## Device addresses (R14, R15, R266) -/

/-- Where a device extent lies. -/
inductive Extent where
  | unified
  | volatile
  | outside
  deriving DecidableEq, Repr

/-- Classifies a device extent of a partition (R15). -/
def Layout.extent (y : Layout) (a n : Nat) : Extent :=
  if a + n ≤ y.unifiedGib * gib then .unified
  else if volBase ≤ a ∧ a + n ≤ volBase + y.volatileGib * gib then .volatile
  else .outside

/-- Classifies a device extent of a partition, which may not be configured. -/
def Part.extent (x : Part) (a n : Nat) : Extent :=
  match x.layout with
  | some y => y.extent a n
  | none => .outside

/-- Whether a field that names a device address has a nonzero bit of [63:48] (R14): INVALID at the field. -/
def wideAddr (a : Nat) : Bool := decide (2 ^ 48 ≤ a)

/-- The unified pages an extent touches. -/
def pagesOf (a n : Nat) : List Nat :=
  if n = 0 then [] else (List.range ((a + n - 1) / 65536 - a / 65536 + 1)).map (· + a / 65536)

/-- The cold pages of an extent (R266). -/
def Part.coldPages (x : Part) (a n : Nat) : List Nat :=
  match x.extent a n with
  | .unified => (pagesOf a n).filter (fun g => !Tab.has x.resident g)
  | _ => []

/-- The unified pages of an extent. -/
def Part.unifiedPages (x : Part) (a n : Nat) : List Nat :=
  match x.extent a n with
  | .unified => pagesOf a n
  | _ => []

/-- The pages of an extent that a request still lacks: those neither resident nor lent to it (R267). -/
def Part.lacking (x : Part) (who a n : Nat) : List Nat :=
  (x.coldPages a n).filter (fun g => !x.askers.any (fun k => k.who == who && k.page == g && k.lent))

/-- Whether a write of an extent meets a tag unit older than the write generation: it waits for the conversion
(R254). -/
def Dev.staleExtent (d : Dev) (p a n : Nat) : Bool :=
  let x := d.part p
  x.oldGen.isSome && (match x.layout with
    | none => false
    | some y => match y.extent a n with
      | .outside => false
      | .volatile => (linesOf a n).any (fun l =>
          let q := y.volPlace (max a (l * 128) - volBase)
          tagOf x (d.stack q.1) (q.2 / 16384) != x.gen)
      | .unified => (pagesOf a n).any (fun g => match Tab.find x.resident g with
          | some r => d.frameGen p r.die r.frame != x.gen
          | none => false))

/-- Whether a base die holds a request that touches an atom of an extent (R245). -/
def Dev.extentHeld (d : Dev) (p a n : Nat) : Bool :=
  let x := d.part p
  d.beryl.any (fun e => !e.2.waiting.isEmpty) && (match x.layout with
    | none => false
    | some y => match y.extent a n with
      | .outside => false
      | .volatile => d.spanHeld (fun q => y.volPlace (q - volBase)) a n
      | .unified => (pagesOf a n).any (fun g => match Tab.find x.resident g with
          | some r => d.spanHeld (fun j => y.framePlace r.die r.frame (j - g * 65536)) (max a (g * 65536))
              (min (a + n) (g * 65536 + 65536) - max a (g * 65536))
          | none => false))

/-! ## The dies' caches of the residency map (R266) -/

/-- Entries of the residency map that a compute die caches. -/
def tlbSize : Nat := 8192

/-- A die translates pages: their entries are its latest (R266). -/
def Dev.translate (d : Dev) (die p : Nat) (pages : List Nat) : Dev :=
  if pages.isEmpty then d
  else
    let new := pages.map (fun g => (p, g))
    let old := (Tab.getD d.tlb die []).filter (fun e => !new.contains e)
    { d with tlb := Tab.put d.tlb die ((new ++ old).take tlbSize) }

/-- Every die's cached copy of an entry is invalid (R270). -/
def Dev.untranslate (d : Dev) (p g : Nat) : Dev :=
  { d with tlb := d.tlb.map (fun e => (e.1, e.2.filter (fun y => y != (p, g)))) }

/-- Reads a span of one unified page that has a frame. -/
def Dev.pageRead (d : Dev) (p g off n hint : Nat) : PBytes × Dev :=
  match Tab.find (d.part p).resident g with
  | some r =>
    let d := d.modPart p (fun x => { x with resident := Tab.put x.resident g { r with used := d.now } })
    d.frameRead p r.die r.frame off n hint
  | none => match Tab.find (d.part p).reserve g with
    | some r => (((Mem.read r.data off n).zipIdx).map
        (fun e => if r.bad.contains ((off + e.2) / 4096) then none else some e.1), d)
    | none => (List.replicate n (some 0), d)

/-- The sectors a span of a page touches. -/
def sectorsOf (off n : Nat) : List Nat :=
  if n = 0 then [] else (List.range ((off + n - 1) / 4096 - off / 4096 + 1)).map (· + off / 4096)

/-- Marks sectors dirty, the newly dirty ones last (R266, R271). -/
def markDirty (order : List (Nat × Nat)) (new : List Nat) (t : Nat) : List (Nat × Nat) :=
  order ++ (new.filter (fun s => !order.any (fun e => e.1 == s))).map (fun s => (s, t))

/-- Writes a span of one unified page that has a frame; its sectors become dirty (R266). -/
def Dev.pageWrite (d : Dev) (p g off : Nat) (bs : PBytes) (hint : Nat) : Dev :=
  let dirty := sectorsOf off bs.length
  match Tab.find (d.part p).resident g with
  | some r =>
    let d := d.modPart p (fun x => { x with
      resident := Tab.put x.resident g { r with order := markDirty r.order dirty d.now, used := d.now } })
    d.frameWrite p r.die r.frame off bs hint
  | none => match Tab.find (d.part p).reserve g with
    | some r => d.modPart p (fun x => { x with
        reserve := Tab.put x.reserve g { r with
          data := Mem.write r.data off (bs.map (·.getD 0))
          bad := r.bad.filter (fun s => !(off ≤ s * 4096 ∧ s * 4096 + 4096 ≤ off + bs.length))
          dirty := markDirty r.dirty dirty d.now } })
    | none => d

/-- Reads a device extent of a partition whose pages all have frames. -/
def Dev.devRead (d : Dev) (p a n hint : Nat) : PBytes × Dev :=
  match (d.part p).layout with
  | none => (List.replicate n (some 0), d)
  | some y =>
    match y.extent a n with
    | .outside => (List.replicate n (some 0), d)
    | .volatile => d.spanRead p (fun q => y.volPlace (q - volBase)) a n hint
    | .unified =>
      (pagesOf a n).foldl
        (fun (acc : PBytes × Dev) g =>
          let lo := max a (g * 65536)
          let hi := min (a + n) (g * 65536 + 65536)
          let r := acc.2.pageRead p g (lo - g * 65536) (hi - lo) hint
          (acc.1 ++ r.1, r.2)) ([], d)

/-- Writes a device extent of a partition whose pages all have frames. -/
def Dev.devWrite (d : Dev) (p a : Nat) (bs : PBytes) (hint : Nat) : Dev :=
  match (d.part p).layout with
  | none => d
  | some y =>
    match y.extent a bs.length with
    | .outside => d
    | .volatile => d.spanWrite p (fun q => y.volPlace (q - volBase)) a bs hint
    | .unified =>
      (pagesOf a bs.length).foldl
        (fun (d : Dev) g =>
          let lo := max a (g * 65536)
          let hi := min (a + bs.length) (g * 65536 + 65536)
          d.pageWrite p g (lo - g * 65536) ((bs.drop (lo - a)).take (hi - lo)) hint) d

/-- The plain bytes of a read, poisoned ones zero. -/
def plain (bs : PBytes) : Bytes := bs.map (·.getD 0)
/-- Whether a read met poison. -/
def poisoned (bs : PBytes) : Bool := bs.any (·.isNone)
/-- Bytes as a write takes them. -/
def good (bs : Bytes) : PBytes := bs.map some

end Sys2Proof.Machine
end

