-- ==== Sys2Proof/Machine/Frames.lean ====
section
/-!
DEFINITION. Frames of the page pool, store pages and table blocks of a partition: what is free, how one is
taken, counted, released and returned (R16, R211, R217, R219, R227, R231).
-/

namespace Sys2Proof.Machine

/-- The lowest number from `lo` below `hi` that a rising list of keys leaves out. -/
def firstGap (keys : List Nat) (lo hi : Nat) : Option Nat :=
  let c := keys.foldl (fun c k => if k = c then c + 1 else c) lo
  if c < hi then some c else none

/-- The key of a frame: die × 2^22 + frame (R188). -/
def frameKey (die f : Nat) : Nat := die * 2 ^ 22 + f
/-- The key of a table block: die × 2^15 + block (R212). -/
def blockKey (die b : Nat) : Nat := die * 2 ^ 15 + b
/-- Table blocks of a die's table area (R16). -/
def tableBlocks : Nat := 32768

/-- Frames of the pool on each die of a partition. -/
def Part.framesPerDie (x : Part) : Nat := (x.layout.map Layout.framesPerDie).getD 0
/-- The dies of a partition. -/
def Part.dieList (x : Part) : List Nat := (x.layout.map Layout.dieList).getD []
/-- Free frames of a die. -/
def Part.freeFrames (x : Part) (die : Nat) : Nat :=
  x.framesPerDie - (x.frames.filter (fun e => e.1 / 2 ^ 22 == die)).length
/-- Free table blocks of a die. -/
def Part.freeBlocks (x : Part) (die : Nat) : Nat :=
  tableBlocks - (x.blocks.filter (fun e => e.1 / 2 ^ 15 == die)).length

/-- The die with the highest score above 0, the lowest on a tie. -/
def richest (score : Nat → Nat) (dies : List Nat) : Option Nat :=
  (dies.foldl (fun (best : Nat × Option Nat) i => if best.1 < score i then (score i, some i) else best) (0, none)).2

/-- A free frame of a die: the lowest, which the spec leaves open. -/
def Part.freeOn (x : Part) (die : Nat) : Option (Nat × Nat) :=
  if x.hasDie die then
    (firstGap (Tab.keys x.frames) (frameKey die 0) (frameKey die x.framesPerDie)).map (fun k => (die, k - frameKey die 0))
  else none

/-- The frame an allocation for a die finds: that die's, else one of the die with the most free (R219, R267). -/
def Part.pickFrame (x : Part) (die : Nat) : Option (Nat × Nat) :=
  match x.freeOn die with
  | some f => some f
  | none => (richest x.freeFrames x.dieList).bind x.freeOn

/-- Takes a frame with one reference (R231). -/
def Part.takeFrame (x : Part) (f : Nat × Nat) : Part := { x with frames := Tab.put x.frames (frameKey f.1 f.2) 1 }

/-- Adds a reference to a frame (R231). -/
def Part.refFrame (x : Part) (die f : Nat) : Part := { x with frames := Tab.add x.frames (frameKey die f) 1 }

/-- The references of a frame. -/
def Part.frameRefs (x : Part) (die f : Nat) : Nat := Tab.getD x.frames (frameKey die f) 0

/-- Lowers a frame's count; at 0 it is released in a window (R227, R231). -/
def Part.dropFrame (x : Part) (die f window : Nat) : Part :=
  let n := x.frameRefs die f
  let x := { x with frames := Tab.put x.frames (frameKey die f) (n - 1) }
  if n = 1 then { x with released := x.released ++ [⟨0, frameKey die f, window⟩] } else x

/-- Store pages of a partition (R237). -/
def Part.storePages (x : Part) : Nat := (x.layout.map (fun y => y.storeGib * 16384)).getD 0

/-- A free store page. -/
def Part.freeStore (x : Part) : Option Nat := firstGap (Tab.keys x.storeUsed) 0 x.storePages

/-- Takes a store page with one reference. -/
def Part.takeStore (x : Part) (g : Nat) : Part := { x with storeUsed := Tab.put x.storeUsed g 1 }
/-- Adds a reference to a store page. -/
def Part.refStore (x : Part) (g : Nat) : Part := { x with storeUsed := Tab.add x.storeUsed g 1 }
/-- Lowers a store page's count; at 0 it is released in a window. -/
def Part.dropStore (x : Part) (g window : Nat) : Part :=
  let n := Tab.getD x.storeUsed g 0
  let x := { x with storeUsed := Tab.put x.storeUsed g (n - 1) }
  if n = 1 then { x with released := x.released ++ [⟨1, g, window⟩] } else x

/-- The table block an allocation for a home die finds (R211). -/
def Part.pickBlock (x : Part) (home : Nat) : Option Nat :=
  let on := fun die => if x.hasDie die then firstGap (Tab.keys x.blocks) (blockKey die 0) (blockKey die tableBlocks) else none
  match on home with
  | some b => some b
  | none => (richest x.freeBlocks x.dieList).bind on

/-- Takes a table block. -/
def Part.takeBlock (x : Part) (b : Nat) : Part := { x with blocks := Tab.put x.blocks b 1 }
/-- Releases a table block in a window. -/
def Part.dropBlock (x : Part) (b window : Nat) : Part := { x with released := x.released ++ [⟨2, b, window⟩] }

/-- Releases what an entry refers to (R231). -/
def Part.dropEntry (x : Part) (e : Entry) (window : Nat) : Part :=
  let x := if e.tier = 0 then x.dropFrame e.die e.frame window else x
  if e.tier = 1 ∨ e.storeCopy then x.dropStore e.store window else x

/-- Whether a released thing returns at a commit that begins window `k`: two boundaries after its window, and
after every walk latched no later than it (R227). `oldest` is the oldest latch of a running walk. -/
def Released.due (r : Released) (k : Nat) (oldest : Option Nat) : Bool :=
  decide (r.window + 2 ≤ k) && (match oldest with
    | some w => decide (r.window < w)
    | none => true)

/-- Returns one released thing to its pool; one that is in use again stays (R270). -/
def Part.giveBack (x : Part) (r : Released) : Part :=
  match r.kind with
  | 0 =>
    if Tab.getD x.frames r.id 0 = 0 then
      { x with
        frames := Tab.del x.frames r.id
        evict := x.evict.filter (fun e => frameKey e.2.die e.2.frame != r.id) }
    else x
  | 1 =>
    if Tab.getD x.storeUsed r.id 0 = 0 then
      { x with
        storeUsed := Tab.del x.storeUsed r.id
        storeSectors := x.storeSectors.filter (fun e => e.1 / 16 != r.id) }
    else x
  | _ => { x with blocks := Tab.del x.blocks r.id }

/-- Returns what is due at the commit that begins window `k` (R221 step 2). -/
def Part.reclaim (x : Part) (k : Nat) (oldest : Option Nat) : Part :=
  let x1 := (x.released.filter (fun r => r.due k oldest)).foldl Part.giveBack x
  { x1 with released := x.released.filter (fun r => !r.due k oldest) }

/-- The clusters of a partition. -/
def Part.clusterList (x : Part) : List Nat := x.dieList.flatMap (fun i => (List.range 8).map (· + 8 * i))
/-- The cores of a partition. -/
def Part.coreList (x : Part) : List Nat := x.dieList.flatMap (fun i => (List.range 64).map (· + 64 * i))

/-- The oldest latch window of the walks that run in a partition (R227). -/
def Dev.oldestWalk (d : Dev) (p : Nat) : Option Nat :=
  ((d.part p).clusterList.flatMap (fun cl => (d.cluster cl).walks.map (·.window))).foldl
    (fun (best : Option Nat) w => match best with
      | none => some w
      | some b => some (min b w)) none

end Sys2Proof.Machine
end

