-- ==== Sys2Proof/Machine/Flash.lean ====
section
/-!
DEFINITION. The Folnas tier (R264 to R280): sectors, migrations, residency, write-back and eviction; and the
order in which frames are obtained (R238).
-/

namespace Sys2Proof.Machine

/-! ## Erase blocks (R264, R275, R280) -/

/-- An erase block that nothing has happened to. -/
def FBlock.fresh : FBlock := ⟨0, 0, false, 0⟩

/-- An erase block. -/
def Tier.block (t : Tier) (b : Nat) : FBlock := Tab.getD t.blocks b FBlock.fresh

/-- Changes an erase block. -/
def Tier.modBlock (t : Tier) (b : Nat) (f : FBlock → FBlock) : Tier := { t with blocks := Tab.put t.blocks b (f (t.block b)) }

/-- Retires a block: a spare replaces it (R275). -/
def Tier.retire (t : Tier) (b : Nat) : Tier :=
  if (t.block b).retired then t
  else { t.modBlock b (fun x => { x with retired := true }) with spares := t.spares - 1 }

/-- The ONFI channel of an erase block: blocks are numbered round the 64 channels (PRESUMED, log 69). -/
def blockChannel (b : Nat) : Nat := b % 64

/-- The block into which a sector of a page is programmed when the choice falls on `v`: the four quarters of a page go to
four different channels, and no retired block is open (R264, R275). -/
def Tier.place (t : Tier) (v i : Nat) : Nat :=
  let chan := (v + i % 16 / 4) % 64
  let n := rawBlocks / 64
  let cands := (List.range 64).map (fun k => (v / 64 + k) % n * 64 + chan)
  (cands.find? (fun b => !(t.block b).retired)).getD (v / 64 % n * 64 + chan)

/-! ## Sectors (R265, R273, R277) -/

/-- A sector that flash does not hold: it reads as zeros. -/
def Sector.blank : Sector := ⟨none, [], 0, 0⟩

/-- The content a sector reads with: the latest that reached flash. -/
def Sector.content (r : Sector) : Content := (r.later.head?).getD (r.durable.getD ⟨[], false⟩)

/-- A sector written back: its content is in flash and not yet durable (R271). -/
def Sector.wrote (r : Sector) (c : Content) (gen block : Nat) : Sector :=
  { r with later := c :: r.later, gen := gen, block := block }

/-- A sector made durable (R272). -/
def Sector.settle (r : Sector) : Sector := { r with durable := some r.content, later := [] }

/-- A sector whose content no read can decode any more (R274). -/
def Sector.lose (r : Sector) : Sector :=
  match r.later with
  | c :: cs => { r with later := { c with bad := true } :: cs }
  | [] => { r with durable := r.durable.map (fun c => { c with bad := true }) }

/-- The bytes of a sector as a migration delivers them. -/
def Sector.deliver (r : Sector) (bad : Bool) : PBytes :=
  if r.content.bad || bad then List.replicate 4096 none else (Mem.read r.content.data 0 4096).map some

/-- What a sector holds of some bytes: poisoned ones leave the marker (R262). -/
def contentOf (bs : PBytes) : Content := ⟨Mem.cells 0 (plain bs), poisoned bs⟩

/-- The sectors of a page that flash holds and that no retry could decode: a sector never written needs no read. -/
def undecoded (t : Tab Sector) (g bad : Nat) : List Nat :=
  (List.range 16).filter (fun i => bitOf bad i && Tab.has t (g * 16 + i))

/-- The 64 KiB of a page as 16 sectors of a table deliver them; `bad` is a mask of sectors that fail now. -/
def pageBytes (t : Tab Sector) (g bad : Nat) : PBytes :=
  (List.range 16).flatMap (fun i => (Tab.getD t (g * 16 + i) Sector.blank).deliver ((undecoded t g bad).contains i))

/-- Marks the sectors that failed as lost: they deliver poison until they are written (R274). -/
def markLost (t : Tab Sector) (g bad : Nat) : Tab Sector :=
  (undecoded t g bad).foldl (fun t i => Tab.put t (g * 16 + i) (Tab.getD t (g * 16 + i) Sector.blank).lose) t

/-- The sectors of a page that a delivery poisons: lost now, or stored with the marker. -/
def badSectors (t : Tab Sector) (g bad : Nat) : List Nat :=
  (List.range 16).filter (fun i => (undecoded t g bad).contains i || (Tab.getD t (g * 16 + i) Sector.blank).content.bad)

/-- A page read counts on the blocks it reads (R275). -/
def Tier.readPage (t : Tier) (s : Tab Sector) (g : Nat) : Tier :=
  (((List.range 16).filterMap (fun i => (Tab.find s (g * 16 + i)).map (·.block))).dedup).foldl
    (fun t b => t.modBlock b (fun x => { x with reads := x.reads + 1 })) t

/-- Records sectors of a page delivered poisoned: the counter, the event of each and the sticky bit; the block of one
that failed its decode now is retired (R274, R275, R280). -/
def Dev.poisonSectors (d : Dev) (p kind : Nat) (t : Tab Sector) (g bad : Nat) (place : Nat → Nat) : Dev :=
  (badSectors t g bad).foldl (fun d i =>
    let b := (Tab.getD t (g * 16 + i) Sector.blank).block
    let d0 := kind * 2 ^ 62 + blockChannel b
    let d := d.count p 8 1
    let tier := if (undecoded t g bad).contains i then d.tier.retire b else d.tier
    let d := { d with tier := { tier with poisonSeen := true } }
    (d.partEvent p { EventRec.blank 0x0005 2 5 with unit := blockChannel b, d0 := d0, d1 := place i }).queueEvents p 0x0005 d0
      (place i)) d

/-! ## Write-back (R271) -/

/-- Sectors of an erase block (R264). -/
def blockSectors : Nat := 6144

/-- Programs sectors into open blocks: full blocks are no longer free (R264, R275). -/
def Dev.program (d : Dev) (n : Nat) : Dev :=
  let w := d.tier.written + n
  { d with tier := { d.tier with written := w % blockSectors, freeBlocks := d.tier.freeBlocks - w / blockSectors } }

/-- Writes sector `i` of a unified page back from its frame, over its die's I/O-die link (R13); `v` chooses the open
blocks of the page's write. -/
def Dev.backSector (d : Dev) (p g die frame v i : Nat) : Dev :=
  let r := d.frameRead p die frame (i * 4096) 4096 1
  let gen := (r.2.part p).gen
  let key := g * 16 + i
  let block := r.2.tier.place v i
  (((r.2.program 1).carriedIo die true 4096).modPart p (fun x =>
    let y := (Tab.getD x.sectors key Sector.blank).wrote (contentOf r.1) gen block
    { x with sectors := Tab.put x.sectors key y })).count p 6 4096

/-- Writes sectors of a page back: the open blocks are a free value, since firmware places them (R275). -/
def Dev.backSectors (d : Dev) (p g die frame : Nat) (go : List Nat) : Dev :=
  if go.isEmpty then d
  else
    let q := d.draw
    go.foldl (fun d i => d.backSector p g die frame q.1 i) q.2

/-- Writes dirty sectors of a resident page back and clears their bits. -/
def Dev.backResident (d : Dev) (p g : Nat) (which : Nat → Bool) : Dev :=
  match Tab.find (d.part p).resident g with
  | none => d
  | some r =>
    let d := d.backSectors p g r.die r.frame ((r.order.map (·.1)).filter which)
    let left := { r with order := r.order.filter (fun e => !which e.1) }
    d.modPart p (fun x => { x with resident := Tab.put x.resident g left })

/-- Makes the sectors of an extent of pages durable (R272); bytes that were waiting are counted. -/
def Dev.settleSectors (d : Dev) (p : Nat) (within : Nat → Bool) : Dev :=
  let x := d.part p
  let n := (x.sectors.filter (fun e => within e.1 && !e.2.later.isEmpty)).length
  (d.setPart p { x with sectors := x.sectors.map (fun e =>
    if within e.1 && !e.2.later.isEmpty then (e.1, e.2.settle) else e) }).count p 7 (4096 * n)

/-! ## Eviction (R238, R270) -/

/-- Whether a unified page belongs to a weight region, which is pinned resident (R270). -/
def Part.pinned (x : Part) (g : Nat) : Bool :=
  x.regions.any (fun e => e.2.key.isSome && decide (e.2.addr < (g + 1) * 65536) && decide (g * 65536 < e.2.addr + e.2.bytes))

/-- Evicts a unified page: its residency entry and every die's copy of it go (step 1); a clean page is released (step 3),
a dirty one when its write-back is done. -/
def Dev.evictPage (d : Dev) (p g : Nat) : Dev :=
  match Tab.find (d.part p).resident g with
  | none => d
  | some r =>
    (d.untranslate p g).modPart p (fun x =>
      let x := { x with resident := Tab.del x.resident g, evict := Tab.put x.evict g ⟨r.die, r.frame, r.order⟩ }
      if r.order.isEmpty then x.dropFrame r.die r.frame x.tick.index else x)

/-- The least of a list by a score, the first on a tie. -/
def leastBy {α : Type} (score : α → Nat) : List α → Option α
  | [] => none
  | a :: xs => some (xs.foldl (fun b c => if score c < score b then c else b) a)

/-- The least recently used resident page of a kind that may be evicted. -/
def Part.coldest (x : Part) (dirty : Bool) : Option Nat :=
  (leastBy (fun (e : Nat × Resident) => e.2.used)
    (x.resident.filter (fun e => (!e.2.order.isEmpty) == dirty && !x.pinned e.1))).map (·.1)

/-- A prefix tree node whose pages no entry references, least recently matched (R238 step 1). -/
def Part.idleNode (x : Part) : Option (Nat × Node) :=
  leastBy (fun (e : Nat × Node) => e.2.matched)
    (x.nodes.filter (fun e => e.2.pins == 0 && e.2.pages.all (fun f => x.frameRefs f.1 f.2 == 1)))

/-- Removes a node: its pages and its table block are released (R227, R229). -/
def Part.removeNode (x : Part) (i window : Nat) : Part :=
  match Tab.find x.nodes i with
  | none => x
  | some n =>
    let x := n.pages.foldl (fun x f => x.dropFrame f.1 f.2 window) { x with nodes := Tab.del x.nodes i }
    let seqs := x.seqs.map (fun e => (e.1, { e.2 with entries := e.2.entries.map (fun y =>
      (y.1, if y.2.node == some i then { y.2 with node := none } else y.2)) }))
    { x with seqs := seqs }.dropBlock n.block window

/-- Whether a sequence's pages may be demoted to serve another (R234, R238 step 3). -/
def Seq.evictableNow (q : Seq) : Bool := q.state == .suspended || (q.state == .active && q.evictable)

/-- The page to demote: the least recently walked sequence's lowest unshared page that is in a frame and not
already on its way to the store, when the store has room. -/
def Part.demotable (x : Part) : Option (Nat × Nat × Entry) :=
  let pages := fun (s : Nat) (q : Seq) => q.entries.find? (fun e =>
    e.2.tier == 0 && !e.2.shared &&
    !x.demoting.any (fun y => y.1 == s && y.2.1 == e.1) && (e.2.storeCopy || x.freeStore.isSome))
  let cands := x.seqs.filter (fun e => e.2.evictableNow && (pages e.1 e.2).isSome)
  (leastBy (fun (e : Nat × Seq) => e.2.walked) cands).bind (fun e => (pages e.1 e.2).map (fun y => (e.1, y.1, y.2)))

/-- The generation under which a store page was written (R213). -/
def Part.storeGen (x : Part) (g z : Nat) : Nat := (Tab.find x.storeSectors (g * 16)).elim z (·.gen)

/-- Switches an entry with a store copy to tier 1 and releases its frame (R236, R238); key_gen is then the store
page's (R213). -/
def Part.toStore (x : Part) (slot page window : Nat) : Part :=
  match x.seq slot with
  | none => x
  | some q => match Tab.find q.entries page with
    | none => x
    | some e =>
      if e.tier = 0 ∧ e.storeCopy then
        let y := { e with tier := 1, storeCopy := false, die := 0, frame := 0, keyGen := x.storeGen e.store e.keyGen }
        (x.setSeq slot { q with entries := Tab.put q.entries page y }).dropFrame e.die e.frame window
      else x

/-- Obtains one frame by the order of R238: it will return to the pool under R227. -/
def Dev.evictOne (d : Dev) (p : Nat) : Dev :=
  let x := d.part p
  let w := x.tick.index
  match x.idleNode with
  | some n => d.setPart p (x.removeNode n.1 w)
  | none => match x.coldest false with
    | some g => d.evictPage p g
    | none => match x.demotable with
      | some (s, page, e) =>
        if e.storeCopy then d.setPart p (x.toStore s page w)
        else d.setPart p { x with demoting := x.demoting ++ [(s, page, false)] }
      | none =>
        if d.tier.readOnly then d
        else match x.coldest true with
          | some g => d.evictPage p g
          | none => d

/-- Frames of a partition that are on their way back to the pool: released ones, and those whose write to flash runs. -/
def Part.framesDue (x : Part) : Nat :=
  (x.released.filter (fun r => r.kind == 0)).length + (x.evict.filter (fun e => !e.2.order.isEmpty)).length +
    (x.demoting.filter (fun y => !y.2.2)).length

/-- Obtains frames until as many as are wanted are on their way, as far as the order of R238 finds any. -/
def Dev.evictFor (d : Dev) (p want : Nat) : Dev :=
  (List.range (want - (d.part p).framesDue)).foldl (fun d _ => d.evictOne p) d

/-! ## Store pages (R236, R277) -/

/-- Writes a page of a frame to a store page; R271's write-backs are of the unified range alone, so writeback_bytes
does not move (DEDUCED). -/
def Dev.writeStore (d : Dev) (p die frame g : Nat) : Dev :=
  let q := d.draw
  (List.range 16).foldl (fun d i =>
    let r := d.frameRead p die frame (i * 4096) 4096 1
    let gen := (r.2.part p).gen
    let key := g * 16 + i
    let block := r.2.tier.place q.1 i
    ((r.2.program 1).carriedIo die true 4096).modPart p (fun x =>
      let y := (Tab.getD x.storeSectors key Sector.blank).wrote (contentOf r.1) gen block
      { x with storeSectors := Tab.put x.storeSectors key y })) q.2

/-- Gives a page of a sequence a store copy (R212), if it is in a frame and the store has room. The copy is written under
the write generation; when the frame's tags are older, the page is converted with it (R213). -/
def Dev.copyToStore (d : Dev) (p slot page : Nat) : Dev :=
  let x := d.part p
  match (x.seq slot).bind (fun q => (Tab.find q.entries page).map (fun e => (q, e))) with
  | none => d
  | some (q, e) =>
    if e.tier = 0 ∧ !e.storeCopy then
      match x.freeStore with
      | none => d
      | some g =>
        let d := d.setPart p ((x.takeStore g).setSeq slot { q with entries := Tab.put q.entries page { e with store := g, storeCopy := true } })
        (d.writeStore p e.die e.frame g).tagFrame p e.die e.frame
    else d

/-- Whether a store page was written under another generation than an entry says (R213). -/
def genDiffers (t : Tab Sector) (g keyGen : Nat) : Bool :=
  (List.range 16).any (fun i => match Tab.find t (g * 16 + i) with
    | some r => r.gen != keyGen
    | none => false)

/-! ## Migrations of unified pages (R267 to R270) -/

/-- Starts the migration of a cold page, unless one runs, with the frame that `pick` finds; without one a frame is
sought by eviction. A migration that a request waits for counts as one cold miss, also when a prefetch has begun it
(R267). -/
def Dev.startMigrOn (d : Dev) (p g die : Nat) (prefetch quiet : Bool) (pick : Part → Option (Nat × Nat)) : Dev :=
  let x := d.part p
  if Tab.has x.resident g then d
  else match Tab.find x.migr g with
  | some m =>
    if prefetch || m.asked then d
    else (d.modPart p (fun x => { x with migr := Tab.put x.migr g { m with asked := true } })).count p 4 1
  | none =>
    let d := if prefetch then d else d.count p 4 1
    let x := d.part p
    let put := fun (x : Part) f => { x with migr := Tab.put x.migr g ⟨d.tc p, prefetch, die, f, false, quiet, !prefetch, false⟩ }
    if Tab.has x.evict g then d.setPart p (put x none)
    else match pick x with
      | some f => d.setPart p (put (x.takeFrame f) (some f))
      | none => (d.setPart p (put x none)).evictOne p

/-- Starts the migration of a cold page by R267's choice of a frame. -/
def Dev.startMigr (d : Dev) (p g die : Nat) (prefetch : Bool) : Dev :=
  d.startMigrOn p g die prefetch false (fun x => x.pickFrame die)

/-- Starts the migrations of a list of pages. -/
def Dev.startMigrs (d : Dev) (p : Nat) (pages : List Nat) (die : Nat) (prefetch : Bool) : Dev :=
  pages.foldl (fun d g => d.startMigr p g die prefetch) d

/-- Makes a request that is no core's wait for pages, whose migrations start (R267). -/
def Dev.ask (d : Dev) (p who : Nat) (pages : List Nat) (die : Nat) : Dev :=
  let new := pages.filter (fun g => !(d.part p).askers.any (fun k => k.who == who && k.page == g && !k.lent))
  (d.modPart p (fun x => { x with askers := x.askers ++ new.map (fun g => ⟨who, g, false⟩) })).startMigrs p pages die false

/-- A reserve frame has some requests fewer to serve (R267). -/
def Part.unlend (x : Part) (g n : Nat) : Part :=
  match Tab.find x.reserve g with
  | some r => { x with reserve := Tab.put x.reserve g { r with waiters := r.waiters - n } }
  | none => x

/-- A request that waited is served: it asks no more, and the reserve frames it used have one request fewer. -/
def Part.unask (x : Part) (who : Nat) : Part :=
  let lent := x.askers.filter (fun k => k.who == who && k.lent)
  lent.foldl (fun x k => x.unlend k.page 1) { x with
    askers := x.askers.filter (fun k => k.who != who), denied := x.denied.filter (· != who) }

/-- Frames of a die's reserve outside the pool (R217). -/
def reserveFrames : Nat := 64

/-- What a landing finds for its page. -/
inductive Landing where
  | wait
  | drop
  | adopt (e : Evict)
  | pool (f : Nat × Nat)
  | lend
  deriving DecidableEq, Repr

/-- Where a landing page goes (R267, R270): discarded by MEM_FREE, adopted, into a pool frame, into the
die's reserve, or it waits. -/
def Part.landing (x : Part) (g : Nat) (m : Migr) : Landing :=
  if m.discard then .drop
  else if Tab.has x.reserve g then .wait
  else match Tab.find x.evict g with
    | some e => .adopt e
    | none => match m.frame with
      | some f => .pool f
      | none => match x.pickFrame m.die with
        | some f => .pool f
        | none =>
          if !m.asked then .drop
          else if Tab.getD x.reserveUsed m.die 0 < reserveFrames then .lend else .wait

/-- The die over whose I/O-die link a landing's page comes, if it comes from flash (R13). -/
def Landing.die (l : Landing) (m : Migr) : Option Nat :=
  match l with
  | .pool f => some f.1
  | .lend => some m.die
  | _ => none

/-- The requests that are no core's and wait for a page are served by its reserve frame: how many, and the partition. -/
def Part.lendAskers (x : Part) (g : Nat) : Nat × Part :=
  let mine := x.askers.filter (fun k => k.page == g && !k.lent)
  (mine.length, { x with askers := x.askers.map (fun k => if k.page == g then { k with lent := true } else k) })

/-- Lands a unified page (R267): `bad` is a mask of the sectors that no retry could decode (R274). The page travels over
the I/O-die link of the die that owns its frame (R13). -/
def Dev.landPage (d : Dev) (p g bad : Nat) : Dev :=
  let x := d.part p
  match Tab.find x.migr g with
  | none => d
  | some m =>
    let done := fun (x : Part) => { x with migr := Tab.del x.migr g }
    let lost := badSectors x.sectors g bad
    let hurt := fun (d : Dev) =>
      ({ d with tier := d.tier.readPage x.sectors g }.modPart p (fun x => { x with sectors := markLost x.sectors g bad })).poisonSectors
        p 1 x.sectors g bad (fun i => g * 65536 + i * 4096)
    match x.landing g m with
    | .wait => d
    | .drop =>
      d.setPart p (match m.frame with
        | some f => (done x).dropFrame f.1 f.2 x.tick.index
        | none => done x)
    | .adopt e =>
      let back := { done x with
        evict := Tab.del x.evict g
        released := x.released.filter (fun r => !(r.kind == 0 && r.id == frameKey e.die e.frame))
        frames := Tab.put x.frames (frameKey e.die e.frame) 1
        resident := Tab.put x.resident g ⟨e.die, e.frame, e.order, d.now⟩ }
      d.setPart p (match m.frame with
        | some f => back.dropFrame f.1 f.2 x.tick.index
        | none => back)
    | .pool f =>
      let y := if m.frame.isSome then done x else (done x).takeFrame f
      let bs := pageBytes x.sectors g bad
      let d := d.setPart p { y with resident := Tab.put y.resident g ⟨f.1, f.2, [], d.now⟩ }
      let d := ((hurt d).carriedIo f.1 false 65536).frameWrite p f.1 f.2 0 bs 1
      if m.prefetch && !m.quiet then d.count p 5 1 else d
    | .lend =>
      let bs := pageBytes x.sectors g bad
      let y := (done x).lendAskers g
      (hurt (d.setPart p { y.2 with
        reserveUsed := Tab.add x.reserveUsed m.die 1
        reserve := Tab.put x.reserve g ⟨m.die, 0, Mem.cells 0 (plain bs), lost, [], y.1⟩ })).carriedIo m.die false 65536

end Sys2Proof.Machine
end

