-- ==== Sys2Proof/Machine/Num.lean ====
section
/-!
DEFINITION. Exact numbers and their rounding: the element and scale encodings of R109, the formats of
R82, and FP32 arithmetic with a named rounding (R92, R122, R134).
-/

namespace Sys2Proof.Machine

/-- A value read from a format: sign, magnitude `m * 2^e`, or a special. -/
inductive Val where
  | nan
  | inf (neg : Bool)
  | fin (neg : Bool) (m : Nat) (e : Int)
  deriving DecidableEq, Repr

/-- The rounding directions the spec names: to nearest even, toward +∞, toward −∞. -/
inductive RMode where
  | near
  | up
  | down
  deriving DecidableEq, Repr

/-- What a format spends its top codes on (R109). -/
inductive FKind where
  | ieee      -- infinities and NaNs
  | e4m3      -- no infinity, S.1111.111 is NaN
  | finite    -- neither
  deriving DecidableEq, Repr

/-- A binary floating format: exponent bits, mantissa bits, bias. -/
structure FFmt where
  eb : Nat
  mb : Nat
  bias : Nat
  kind : FKind
  deriving DecidableEq, Repr

/-- FP4 E2M1 (R109). -/
def fE2M1 : FFmt := ⟨2, 1, 1, .finite⟩
/-- FP6 E2M3 (R109). -/
def fE2M3 : FFmt := ⟨2, 3, 1, .finite⟩
/-- FP6 E3M2 (R109). -/
def fE3M2 : FFmt := ⟨3, 2, 3, .finite⟩
/-- FP8 E4M3 (R109). -/
def fE4M3 : FFmt := ⟨4, 3, 7, .e4m3⟩
/-- FP8 E5M2 (R109). -/
def fE5M2 : FFmt := ⟨5, 2, 15, .ieee⟩
/-- BF16. -/
def fBF16 : FFmt := ⟨8, 7, 127, .ieee⟩
/-- FP16. -/
def fFP16 : FFmt := ⟨5, 10, 15, .ieee⟩
/-- FP32. -/
def fFP32 : FFmt := ⟨8, 23, 127, .ieee⟩

/-- Width of a format in bits. -/
def FFmt.width (f : FFmt) : Nat := 1 + f.eb + f.mb
/-- Exponent of the last place of subnormals. -/
def FFmt.emin (f : FFmt) : Int := 1 - (f.bias : Int) - (f.mb : Int)
/-- The code of the largest finite magnitude. -/
def FFmt.maxCode (f : FFmt) : Nat :=
  match f.kind with
  | .ieee => (2 ^ f.eb - 1) * 2 ^ f.mb - 1
  | .e4m3 => 2 ^ (f.eb + f.mb) - 2
  | .finite => 2 ^ (f.eb + f.mb) - 1

/-- The magnitude a finite code stands for: integer part and exponent. -/
def FFmt.magOf (f : FFmt) (code : Nat) : Nat × Int :=
  let e := code / 2 ^ f.mb
  let m := code % 2 ^ f.mb
  if e = 0 then (m, f.emin) else (m + 2 ^ f.mb, (e : Int) - 1 + f.emin)

/-- The value of a code (R109). -/
def FFmt.decode (f : FFmt) (code : Nat) : Val :=
  let neg := bitOf code (f.eb + f.mb)
  let c := code % 2 ^ (f.eb + f.mb)
  if c ≤ f.maxCode then let p := f.magOf c; .fin neg p.1 p.2
  else if f.kind = .ieee && c % 2 ^ f.mb == 0 then .inf neg
  else .nan

/-- Bit length of a magnitude. -/
def bitLen (m : Nat) : Nat := if m = 0 then 0 else m.log2 + 1

/-- The grid of `p` significant bits with last place at least `2^emin`: an integer count of last
places and that place's exponent. `away` and `near` choose how the part below the place is rounded. -/
def roundMag (p : Nat) (emin : Int) (mode : RMode) (neg : Bool) (m : Nat) (e : Int) : Nat × Int :=
  let t := max (e + (bitLen m : Int) - (p : Int)) emin
  if t ≤ e then (m * 2 ^ (e - t).toNat, t)
  else
    let s := (t - e).toNat
    let q := m / 2 ^ s
    let r := m % 2 ^ s
    let half := 2 ^ (s - 1)
    let bump := match mode with
      | .near => decide (half < r) || (r == half && q % 2 == 1)
      | .up => !neg && r != 0
      | .down => neg && r != 0
    (if bump then q + 1 else q, t)

/-- The code of a rounded magnitude, which may lie above the largest finite code. -/
def FFmt.codeOf (f : FFmt) (q : Nat) (t : Int) : Nat :=
  if q = 0 then 0
  else
    let (q, t) := if q = 2 ^ (f.mb + 1) then (2 ^ f.mb, t + 1) else (q, t)
    if q < 2 ^ f.mb then q else ((t - f.emin).toNat + 1) * 2 ^ f.mb + (q - 2 ^ f.mb)

/-- A NaN code: FP32 and the 16-bit formats keep the quiet bit; which payload is open. -/
def FFmt.nanCode (f : FFmt) : Nat :=
  match f.kind with
  | .ieee => (2 ^ (f.eb + 1) - 1) * 2 ^ (f.mb - 1) + Config.nanPayload f.width % 2 ^ (f.mb - 1)
  | _ => 2 ^ (f.eb + f.mb) - 1

/-- The canonical positive quiet NaN of R140. -/
def FFmt.canonNan (f : FFmt) : Nat :=
  match f.kind with
  | .ieee => (2 ^ (f.eb + 1) - 1) * 2 ^ (f.mb - 1)
  | _ => 2 ^ (f.eb + f.mb) - 1

/-- The sign bit of a format. -/
def FFmt.signBit (f : FFmt) (neg : Bool) : Nat := if neg then 2 ^ (f.eb + f.mb) else 0

/-- Rounds a value into a format. `sat` puts the largest finite magnitude in place of an infinity that
a finite value overflowed to. A format without infinities always saturates. -/
def FFmt.round (f : FFmt) (mode : RMode) (sat : Bool) (nanC : Nat) (v : Val) : Nat :=
  match v with
  | .nan => nanC
  | .inf neg => f.signBit neg + (if f.kind = .ieee then f.maxCode + 1 else f.maxCode)
  | .fin neg m e =>
    let r := roundMag (f.mb + 1) f.emin mode neg m e
    let c := f.codeOf r.1 r.2
    let toward := match mode with
      | .near => false
      | .up => neg
      | .down => !neg
    f.signBit neg +
      (if c ≤ f.maxCode then c
       else if f.kind = .ieee && !sat && !toward then f.maxCode + 1 else f.maxCode)

/-- Zero with a sign. -/
def vZero (neg : Bool) : Val := .fin neg 0 0
/-- A natural number. -/
def vNat (n : Nat) : Val := .fin false n 0
/-- An integer. -/
def vInt (i : Int) : Val := .fin (decide (i < 0)) i.natAbs 0

/-- Whether a value is a zero of either sign. -/
def Val.isZero : Val → Bool
  | .fin _ m _ => m == 0
  | _ => false
/-- Whether a value is NaN. -/
def Val.isNan : Val → Bool
  | .nan => true
  | _ => false
/-- Whether a value is finite. -/
def Val.isFin : Val → Bool
  | .fin .. => true
  | _ => false
/-- The sign of a value that is not NaN. -/
def Val.isNeg : Val → Bool
  | .nan => false
  | .inf n => n
  | .fin n _ _ => n
/-- The value with its sign changed. -/
def Val.neg : Val → Val
  | .nan => .nan
  | .inf n => .inf (!n)
  | .fin n m e => .fin (!n) m e
/-- The magnitude. -/
def Val.abs : Val → Val
  | .nan => .nan
  | .inf _ => .inf false
  | .fin _ m e => .fin false m e

/-- The signed integer of a finite value at a common exponent no higher than its own. -/
def scaledInt (neg : Bool) (m : Nat) (e t : Int) : Int :=
  let x : Int := (m : Int) * 2 ^ (e - t).toNat
  if neg then -x else x

/-- The exact sum (IEEE 754 specials; an exact zero of unlike signs is −0 only toward −∞). -/
def Val.add (mode : RMode) (a b : Val) : Val :=
  match a, b with
  | .nan, _ => .nan
  | _, .nan => .nan
  | .inf x, .inf y => if x = y then .inf x else .nan
  | .inf x, _ => .inf x
  | _, .inf y => .inf y
  | .fin na ma ea, .fin nb mb eb =>
    let t := min ea eb
    let s := scaledInt na ma ea t + scaledInt nb mb eb t
    if s = 0 then
      .fin (if ma = 0 ∧ mb = 0 ∧ na = nb then na else decide (mode = .down)) 0 t
    else .fin (decide (s < 0)) s.natAbs t

/-- The exact product. -/
def Val.mul (a b : Val) : Val :=
  match a, b with
  | .nan, _ => .nan
  | _, .nan => .nan
  | .inf x, .inf y => .inf (xor x y)
  | .inf x, .fin y m _ => if m = 0 then .nan else .inf (xor x y)
  | .fin y m _, .inf x => if m = 0 then .nan else .inf (xor x y)
  | .fin na ma ea, .fin nb mb eb => .fin (xor na nb) (ma * mb) (ea + eb)

/-- A quotient with 80 bits and a sticky last bit: enough to round correctly to any format here. -/
def Val.div (a b : Val) : Val :=
  match a, b with
  | .nan, _ => .nan
  | _, .nan => .nan
  | .inf _, .inf _ => .nan
  | .inf x, .fin y _ _ => .inf (xor x y)
  | .fin x _ _, .inf y => .fin (xor x y) 0 0
  | .fin na ma ea, .fin nb mb eb =>
    if mb = 0 then (if ma = 0 then .nan else .inf (xor na nb))
    else
      let k := 80 + bitLen mb
      let n := ma * 2 ^ k
      let q := n / mb
      let r := n % mb
      .fin (xor na nb) (2 * q + (if r = 0 then 0 else 1)) (ea - eb - (k : Int) - 1)

/-- Whether `a < b` on values (false with a NaN). -/
def Val.lt (a b : Val) : Bool :=
  match a, b with
  | .nan, _ => false
  | _, .nan => false
  | .inf x, .inf y => x && !y
  | .inf x, _ => x
  | _, .inf y => !y
  | .fin na ma ea, .fin nb mb eb =>
    let t := min ea eb
    decide (scaledInt na ma ea t < scaledInt nb mb eb t)

/-- Whether `a ≤ b` on values (false with a NaN). -/
def Val.le (a b : Val) : Bool :=
  !a.isNan && !b.isNan && !b.lt a

/-- The value times a power of two. -/
def Val.shift (a : Val) (k : Int) : Val :=
  match a with
  | .fin n m e => .fin n m (e + k)
  | v => v

/-- `floor(log2 |v|)` of a nonzero finite magnitude. -/
def floorLog2 (m : Nat) (e : Int) : Int := (m.log2 : Int) + e

/-- The integer part toward −∞ of a finite value. -/
def floorVal (neg : Bool) (m : Nat) (e : Int) : Int :=
  let x : Int := if neg then -(m : Int) else (m : Int)
  if 0 ≤ e then x * 2 ^ e.toNat else x / (2 ^ (-e).toNat : Int)

/-! FP32 operations, each rounding once in the named direction. -/

/-- The value of an FP32 code. -/
def d32 (c : Nat) : Val := fFP32.decode c
/-- Rounds into FP32. -/
def r32 (mode : RMode) (v : Val) : Nat := fFP32.round mode false fFP32.nanCode v
/-- FP32 addition. -/
def add32 (a b : Nat) : Nat := r32 .near (Val.add .near (d32 a) (d32 b))
/-- FP32 subtraction. -/
def sub32 (a b : Nat) : Nat := r32 .near (Val.add .near (d32 a) (d32 b).neg)
/-- FP32 multiplication. -/
def mul32 (a b : Nat) : Nat := r32 .near ((d32 a).mul (d32 b))
/-- FP32 division. -/
def div32 (a b : Nat) : Nat := r32 .near ((d32 a).div (d32 b))
/-- FP32 fused multiply-add, rounding once. -/
def fma32 (a b c : Nat) : Nat := r32 .near (Val.add .near ((d32 a).mul (d32 b)) (d32 c))

/-- `ru()` of R121: FP32 toward +∞. -/
def ru (v : Val) : Val := d32 (r32 .up v)
/-- `rd()` of R122: FP32 toward −∞. -/
def rd (v : Val) : Val := d32 (r32 .down v)

/-- +0, 1 and the specials as FP32 codes. -/
def one32 : Nat := 0x3F800000
/-- FP32 −∞. -/
def negInf32 : Nat := 0xFF800000
/-- The FP32 quiet NaN that R114 names. -/
def qnan32 : Nat := 0x7FC00000

end Sys2Proof.Machine
end

