-- ==== Sys2Proof/Machine/Operands.lean ====
section
/-!
DEFINITION. The operand forms of operation words (R67, R80 to R108): header fields, sp_ref, endpoints,
format codes, element areas, operand areas of the array; and the checks of one word in the two passes
of R83, made by the loader (no registers) or at issue (with the core's registers).
-/

namespace Sys2Proof.Machine

/-! ## Header fields (R67, R68) -/

/-- Class code. -/
def opClass (w : Bytes) : Nat := fieldOf w 0 1
/-- Operation within the class. -/
def opCode (w : Bytes) : Nat := fieldOf w 1 1
/-- fence. -/
def opFence (w : Bytes) : Bool := bitOf (fieldOf w 2 1) 0
/-- pred_en. -/
def opPredEn (w : Bytes) : Bool := bitOf (fieldOf w 2 1) 1
/-- pred_neg. -/
def opPredNeg (w : Bytes) : Bool := bitOf (fieldOf w 2 1) 2
/-- set_en. -/
def opSetEn (w : Bytes) : Bool := bitOf (fieldOf w 2 1) 4
/-- set_neg. -/
def opSetNeg (w : Bytes) : Bool := bitOf (fieldOf w 2 1) 5
/-- pred. -/
def opPred (w : Bytes) : Nat := bitsOf (fieldOf w 3 1) 4 0
/-- set_pred. -/
def opSetPred (w : Bytes) : Nat := bitsOf (fieldOf w 4 1) 4 0
/-- tag. -/
def opTag (w : Bytes) : Nat := fieldOf w 6 2
/-- debug_tag. -/
def opDebugTag (w : Bytes) : Nat := fieldOf w 8 4

/-- Number of operations of a class; 0 for a class that is not assigned. -/
def opsOfClass : Nat → Nat
  | 1 => 3 | 2 => 2 | 3 => 4 | 4 => 2 | 5 => 4 | 6 => 4
  | 7 => 7 | 8 => 3 | 9 => 4 | 10 => 4 | 11 => 4 | 12 => 9
  | _ => 0

/-- Whether an operation defines a condition (the Condition columns of the class tables). -/
def hasCondition (cls op : Nat) : Bool :=
  match cls with
  | 1 => op == 1 || op == 2
  | 2 => op == 1
  | 3 => op ≤ 3
  | 4 => true
  | 5 => op ≤ 3
  | 6 => op == 3
  | 7 => op == 1 || op == 3 || op == 5 || op == 6
  | 8 => op == 1 || op == 2
  | 9 => op != 2
  | 12 => op == 3 || op == 4
  | _ => false

/-- The RSV fields of an operation's bytes 16 to 63: offset, length, reserved bits. A run of bytes that the tables do
not list is one field: a nonzero byte anywhere in it is reported at the run's first byte (DESIGN CHOICE, log 146: R5
and R80 give such bytes no field of their own). -/
def rsvRuns (cls op : Nat) : List (Nat × Nat × Nat) :=
  let whole := fun o n => (o, n, 2 ^ (8 * n) - 1)
  match cls, op with
  | 1, 1 => [(45, 1, 0xE0), (46, 1, 0xFC), whole 47 1, whole 54 2]
  | 1, 2 => [(51, 1, 0xC8), whole 62 2]
  | 1, 3 => [(20, 1, 0xFE), whole 22 2, whole 28 36]
  | 2, _ => [whole 38 26]
  | 3, _ => [(45, 1, 0xFE), whole 46 2, whole 52 12]
  | 4, _ => [whole 39 1, whole 48 16]
  | 5, _ => [(36, 1, 0xF8), whole 37 3, whole 44 20]
  | 6, 1 => [(48, 1, 0xC0), (49, 1, 0xFC), whole 51 1, whole 54 2, whole 60 4]
  | 6, 2 => [whole 20 4, (56, 1, 0xF0), whole 57 1]
  | 6, 3 => [whole 32 32]
  | 6, 4 => [whole 36 28]
  | 7, _ => [(18, 1, 0xC0), whole 19 1, whole 40 24]
  | 8, _ => [whole 22 2, (32, 1, 0xFE), whole 33 31]
  | 9, _ => [whole 44 20]
  | 10, _ => [(38, 1, 0xFC), whole 39 1, whole 44 20]
  | 11, 1 => [(16, 1, 0xFE), whole 17 47]
  | 11, 2 => [whole 16 48]
  | 11, 3 => [(16, 1, 0xFC), whole 17 1, whole 20 4, whole 40 24]
  | 11, 4 => [whole 20 44]
  | 12, 1 => [whole 17 3, whole 24 40]
  | 12, 2 => [whole 24 40]
  | 12, 3 => [whole 16 1, whole 24 40]
  | 12, 4 => [whole 16 1, (17, 1, 0xE0), (18, 1, 0xE0), whole 20 44]
  | 12, 5 => [whole 18 46]
  | 12, 6 => [(16, 1, 0xF8), whole 17 1, whole 20 44]
  | 12, 7 => [whole 17 3, (24, 1, 0xE0), whole 25 39]
  | 12, 8 => [whole 16 1, whole 18 2, (24, 1, 0xE0), whole 25 39]
  | 12, 9 => [whole 16 48]
  | _, _ => []

/-- The checks of the header and of the RSV fields (R67, R68, R57, R80). -/
def headerChecks (w : Bytes) : List (Nat × Nat × Bool) :=
  let cls := opClass w
  let op := opCode w
  let n := opsOfClass cls
  [(0, stInvalid, n == 0),
   (1, stUnsupported, n != 0 && (op == 0 || decide (n < op))),
   (2, stInvalid, Nat.land (fieldOf w 2 1) 0xC8 != 0),
   (2, stInvalid, opSetEn w && !hasCondition cls op),
   (2, stInvalid, cls == 12 && op == 4 && !opSetEn w),
   (3, stInvalid, Nat.land (fieldOf w 3 1) 0xE0 != 0),
   (4, stInvalid, Nat.land (fieldOf w 4 1) 0xE0 != 0),
   (4, stInvalid, opSetEn w && decide (opSetPred w < 8)),
   (5, stInvalid, fieldOf w 5 1 != 0),
   (12, stInvalid, fieldOf w 12 4 != 0)] ++
  (rsvRuns cls op).map (fun r => (r.1, stInvalid, Nat.land (fieldOf w r.1 r.2.1) r.2.2 != 0))

/-! ## sp_ref (R81) -/

/-- Scratchpad bytes (R49). -/
def spBytes : Nat := 0x600000

/-- absent. -/
def spAbsent (r : Nat) : Bool := bitOf r 29
/-- reg_en. -/
def spRegEn (r : Nat) : Bool := bitOf r 28
/-- reg. -/
def spReg (r : Nat) : Nat := bitsOf r 27 24
/-- offset. -/
def spOff (r : Nat) : Nat := bitsOf r 22 0

/-- The effective offset; `none` when it needs registers that the loader does not have. -/
def spEff (regs : Option (Tab Nat)) (r : Nat) : Option Nat :=
  if spRegEn r then regs.map (fun t => spOff r + Tab.getD t (spReg r) 0) else some (spOff r)

/-- The effective offset at issue. -/
def spAt (regs : Tab Nat) (r : Nat) : Nat := (spEff (some regs) r).getD 0

/-- First-pass checks of the sp_ref at byte `b`. -/
def spPass1 (regs : Option (Tab Nat)) (w : Bytes) (b : Nat) (need empty : Bool) : List (Nat × Nat × Bool) :=
  let r := fieldOf w b 4
  [(b, stInvalid, bitsOf r 31 30 != 0 || bitOf r 23),
   (b, stInvalid, spAbsent r && r != 2 ^ 29),
   (b, stInvalid, need && spAbsent r),
   (b, stAlign, !empty && !spAbsent r && (match spEff regs r with
     | some o => o % 128 != 0
     | none => spOff r % 128 != 0))]

/-- Extent check of the sp_ref at byte `b` for an area of `size` bytes. -/
def spPass2 (regs : Option (Tab Nat)) (w : Bytes) (b size : Nat) (empty : Bool) : List (Nat × Nat × Bool) :=
  let r := fieldOf w b 4
  [(b, stBounds, !empty && !spAbsent r && (match spEff regs r with
     | some o => decide (spBytes < o + size)
     | none => false))]

/-! ## Formats (R82, R109) -/

/-- Bits of one element. -/
def fmtBits : Nat → Nat
  | 0x01 => 4 | 0x02 => 6 | 0x03 => 6 | 0x04 => 8 | 0x05 => 8 | 0x06 => 8
  | 0x07 => 8 | 0x08 => 8 | 0x09 => 16 | 0x0A => 16 | 0x0B => 4 | 0x0C => 8
  | 0x0D => 4 | 0x0E => 4 | 0x10 => 32 | 0x11 => 32
  | _ => 0

/-- MX formats. -/
def fmtMx (f : Nat) : Bool := decide (1 ≤ f) && decide (f ≤ 6)
/-- VB4 formats. -/
def fmtVb4 (f : Nat) : Bool := f == 0x0D || f == 0x0E
/-- The block formats (R110). -/
def fmtBlock (f : Nat) : Bool := fmtMx f || fmtVb4 f
/-- Plain INT4 and INT8 (R110). -/
def fmtInt (f : Nat) : Bool := f == 0x0B || f == 0x0C
/-- Legal mm. operands. -/
def fmtMm (f : Nat) : Bool := decide (1 ≤ f) && decide (f ≤ 0x0E)
/-- Legal mm. outputs. -/
def fmtMmOut (f : Nat) : Bool := f == 0x07 || f == 0x09 || f == 0x0A || f == 0x10 || f == 0x11
/-- Legal in vx., sf. and rs. -/
def fmtVec (f : Nat) : Bool := f == 0x07 || f == 0x08 || f == 0x09 || f == 0x0A || f == 0x10
/-- Legal qz.quant output. -/
def fmtQuantOut (f : Nat) : Bool := (decide (1 ≤ f) && decide (f ≤ 8)) || (decide (0x0B ≤ f) && decide (f ≤ 0x0E))
/-- Legal qz.dequant output. -/
def fmtDequantOut (f : Nat) : Bool := f == 0x09 || f == 0x0A || f == 0x10

/-- The rung of an operand format (R110); plain integers and FP8 have none and never escalate. -/
def rungOf (f : Nat) : Nat :=
  match f with
  | 0x01 => 0 | 0x0D => 0 | 0x0E => 0
  | 0x02 => 1 | 0x03 => 1
  | 0x04 => 2 | 0x05 => 2 | 0x06 => 2
  | 0x09 => 3 | 0x0A => 3
  | _ => 0

/-- The exact encoding of a floating format code; codes that are not floating give FP32. -/
def floatFmt (f : Nat) : FFmt :=
  match f with
  | 0x01 => fE2M1 | 0x0D => fE2M1
  | 0x02 => fE2M3 | 0x03 => fE3M2
  | 0x04 => fE4M3 | 0x07 => fE4M3
  | 0x05 => fE5M2 | 0x08 => fE5M2
  | 0x09 => fBF16 | 0x0A => fFP16
  | _ => fFP32

/-- A two's complement code of `n` bits. -/
def signed (n c : Nat) : Int := if 2 ^ (n - 1) ≤ c then (c : Int) - 2 ^ n else c

/-- The value of one element code (R109). -/
def elemVal (f c : Nat) : Val :=
  match f with
  | 0x06 => (vInt (signed 8 c)).shift (-6)
  | 0x0B => vInt (signed 4 c)
  | 0x0E => vInt (signed 4 c)
  | 0x0C => vInt (signed 8 c)
  | _ => (floatFmt f).decode c

/-- The value of an E8M0 scale. -/
def e8m0 (c : Nat) : Val := if c = 0xFF then .nan else .fin false 1 ((c : Int) - 127)

/-- The value of a UE5M3 scale. -/
def ue5m3 (c : Nat) : Val :=
  if c = 0xFF then .nan
  else if c / 8 = 0 then .fin false (c % 8) (-17)
  else .fin false (8 + c % 8) ((c / 8 : Nat) - 15 - 3)

/-! ## Operand areas of the array (R111, R112, R432) -/

/-- Line pitch of a line-major operand of K = 128 × kb elements. -/
def linePitch (f kb : Nat) : Nat := roundUp (128 * kb * fmtBits f / 8) 128

/-- Bytes of a block-format scale plane of 128 lines. -/
def scalePlane (f kb : Nat) : Nat := if fmtVb4 f then 1024 * kb else 512 * kb
/-- Bytes of a block-format statistics plane of 128 lines. -/
def statPlane (f kb : Nat) : Nat := if fmtVb4 f then 1024 * kb else 2048 * kb

/-- Bytes of an operand area of 128 lines. -/
def operandBytes (f kb : Nat) (trans : Bool) : Nat :=
  if fmtBlock f then
    128 * linePitch f kb + scalePlane f kb + statPlane f kb + (if fmtVb4 f then 512 else 0)
  else if trans then 128 * kb * 16 * fmtBits f
  else 128 * linePitch f kb

/-- Bytes of a residual plane (R111). -/
def residBytes (kb : Nat) : Nat := 128 * linePitch 0x0B kb
/-- Bytes of a wide copy (R112). -/
def wideBytes (kb : Nat) : Nat := 32768 * kb
/-- Bytes of an output area (R432). -/
def outBytes (f : Nat) : Nat := 2048 * fmtBits f

/-! ## Element areas (R84) and block-format areas (R431) -/

/-- Bytes of one packed row. -/
def rowBytes (f n : Nat) : Nat := ceilDiv (n * fmtBits f) 8

/-- Bytes from the first to the last byte of an element area. -/
def areaBytes (f rows n pitch : Nat) : Nat := (rows - 1) * (pitch * 128) + rowBytes f n

/-- Where the planes of a block-format area lie: scale, statistics, row scales, end. -/
def blockPlanes (f rows n pitch : Nat) : Nat × Nat × Nat × Nat :=
  let e := rows * pitch * 128
  let perScale := if fmtVb4 f then ceilDiv n 16 else ceilDiv n 32
  let perStat := if fmtVb4 f then ceilDiv n 64 else ceilDiv n 32
  let t := e + roundUp (rows * perScale) 128
  let r := t + roundUp (rows * perStat * 4) 128
  (e, t, r, if fmtVb4 f then r + roundUp (rows * 4) 128 else r)

/-- Bytes of a qz. source or destination area. -/
def qzBytes (f rows n pitch : Nat) : Nat :=
  if fmtBlock f then (blockPlanes f rows n pitch).2.2.2 else areaBytes f rows n pitch

/-! ## DMA endpoints (R96) -/

/-- End of the user region of cluster memory (R70). -/
def userBytes : Nat := 0x1700000

/-- An endpoint with its base register added: offset or address; cluster number die × 8 + cluster. -/
structure Endpoint where
  space : Nat
  cluster : Nat
  addr : Nat
  deriving DecidableEq, Repr

/-- Reads an endpoint of spaces 0 to 2; `add` is the base register's value. -/
def endpoint (space v add : Nat) : Endpoint :=
  match space with
  | 0 => ⟨0, 0, bitsOf v 22 0 + add⟩
  | 1 => ⟨1, bitsOf v 36 35 * 8 + bitsOf v 34 32, bitsOf v 24 0 + add⟩
  | _ => ⟨2, 0, v + add⟩

/-- Whether an endpoint has a bit its space does not use. -/
def endpointRsv (space v : Nat) : Bool :=
  match space with
  | 0 => decide (2 ^ 23 ≤ v)
  | 1 => bitsOf v 31 25 != 0 || decide (2 ^ 37 ≤ v)
  | _ => decide (2 ^ 48 ≤ v)

/-- The extent of rows: from the base to one past the last byte (R189). -/
def spanBytes (rows rowB pitch : Nat) : Nat := if rows = 0 ∨ rowB = 0 then 0 else (rows - 1) * pitch + rowB

/-- Extent and ownership of an endpoint's area (R189 steps 4 and 5): the status of the failure. -/
def endpointFail (x : Part) (e : Endpoint) (span : Nat) : Option Nat :=
  match e.space with
  | 0 => if spBytes < e.addr + span then some stBounds else none
  | 1 => if userBytes < e.addr + span then some stBounds
         else if !x.hasDie (e.cluster / 8) then some stPartition else none
  | 3 => if 65536 < e.addr % 65536 + span then some stBounds else none
  | _ => if x.extent e.addr span = .outside then some stPartition else none

/-- The alignment an endpoint asks of its offset: 128 in the scratchpad, 32 in cluster memory. -/
def endpointMisaligned (e : Endpoint) : Bool :=
  match e.space with
  | 0 => e.addr % 128 != 0
  | 1 => e.addr % 32 != 0
  | _ => false

/-- Whether two sets of rows share a byte (R189 step 6). -/
def rowsMeet (a pa b pb rows rowB : Nat) : Bool :=
  (List.range rows).any (fun i => (List.range rows).any (fun j =>
    decide (a + i * pa < b + j * pb + rowB) && decide (b + j * pb < a + i * pa + rowB)))

/-- The overlap rule of R189 step 6. -/
def overlapFail (s t : Endpoint) (rows rowB ps pd : Nat) : Bool :=
  (decide (1 < rows) && decide (pd < rowB)) ||
    (s.space == t.space && s.cluster == t.cluster && rowsMeet s.addr ps t.addr pd rows rowB)

/-! ## The checks of one word (R83) -/

/-- What the checks of a word need to know: the registers (none in the loader), the partition, the
program's word_count, the halo table and the number of groups of the pipeline. -/
structure CheckEnv where
  regs : Option (Tab Nat)
  part : Part
  words : Nat
  halos : List Halo
  groups : Nat

/-- The checks of one endpoint in the first pass. Bits that its space does not use are RSV and are checked for an
empty item too; bits [63:48] of a device address belong to the address (R14, R203). -/
def endPass1 (b : Nat) (space v : Nat) (e : Option Endpoint) (empty : Bool) : List (Nat × Nat × Bool) :=
  [(b, stInvalid, (decide (space < 2) || !empty) && endpointRsv space v),
   (b, stAlign, !empty && (e.map endpointMisaligned).getD false)]

/-- The checks of one endpoint in the second pass. -/
def endPass2 (b : Nat) (x : Part) (e : Option Endpoint) (span : Nat) (empty : Bool) : List (Nat × Nat × Bool) :=
  match e with
  | some e => match endpointFail x e span with
    | some st => [(b, st, !empty)]
    | none => []
  | none => []

/-- An FP16 threshold field must be a finite number without a sign (R124). -/
def badThreshold (c : Nat) : Bool := decide (0x7C00 ≤ c)

/-- mm.tile (R86, R87, R111, R118, R124, R432). -/
def checkMmTile (v : CheckEnv) (w : Bytes) : List (Nat × Nat × Bool) × List (Nat × Nat × Bool) :=
  let kb := fieldOf w 40 2
  let a := fieldOf w 42 1
  let b := fieldOf w 43 1
  let o := fieldOf w 44 1
  let f := fieldOf w 45 1
  let ta := bitOf f 2
  let tb := bitOf f 3
  let resid := bitOf f 4
  let esc := bitsOf (fieldOf w 46 1) 1 0
  let empty := kb == 0
  let both := fmtBlock a && fmtBlock b
  let eight := a == 0x0C && b == 0x0C
  let mixed := (a == 0x0B && b == 0x0C) || (a == 0x0C && b == 0x0B)
  let addr := fieldOf w 32 8
  (spPass1 v.regs w 16 true empty ++ spPass1 v.regs w 20 true empty ++
   spPass1 v.regs w 24 false empty ++ spPass1 v.regs w 28 false empty ++
   [(32, stInvalid, !empty && resid && decide (2 ^ 48 ≤ addr)),
    (40, stCount, (eight && decide (1023 < kb)) || (mixed && decide (16383 < kb))),
    (42, stUnsupported, !fmtMm a),
    (43, stUnsupported, !fmtMm b || fmtInt a != fmtInt b),
    (44, stUnsupported, !fmtMmOut o || (o == 0x11 && !fmtInt a)),
    (45, stInvalid, (ta && fmtBlock a) || (tb && fmtBlock b)),
    (46, stInvalid, esc != 0 && !both),
    (46, stInvalid, decide (rungOf a < esc) && spAbsent (fieldOf w 28 4)),
    (46, stInvalid, decide (rungOf b < esc) && spAbsent (fieldOf w 60 4)),
    (48, stInvalid, badThreshold (fieldOf w 48 2)),
    (50, stInvalid, badThreshold (fieldOf w 50 2))] ++
   spPass1 v.regs w 60 false empty,
   spPass2 v.regs w 16 (operandBytes a kb ta) empty ++ spPass2 v.regs w 20 (operandBytes b kb tb) empty ++
   spPass2 v.regs w 24 (outBytes o) empty ++ spPass2 v.regs w 28 (wideBytes kb) empty ++
   [(32, stPartition, !empty && resid && v.part.extent addr (residBytes kb) == .outside)] ++
   spPass2 v.regs w 60 (if resid then residBytes kb else wideBytes kb) empty)

/-- The geometry of a mm.conv window (R173, R176): frames, rows, positions, segment bytes, segments. -/
structure ConvGeo where
  tIn : Nat
  hIn : Nat
  wIn : Nat
  cblk : Nat
  seg : Nat
  nseg : Nat
  taps : Nat
  deriving DecidableEq, Repr

/-- Reads the geometry of a mm.conv word. -/
def convGeo (w : Bytes) : ConvGeo :=
  let kt := fieldOf w 34 1
  let kh := fieldOf w 35 1
  let kw := fieldOf w 36 1
  let strideW := bitsOf (fieldOf w 38 1) 3 0
  let dilT := bitsOf (fieldOf w 38 1) 7 4
  let dilH := bitsOf (fieldOf w 39 1) 3 0
  let dilW := bitsOf (fieldOf w 39 1) 7 4
  let xf := fieldOf w 48 1
  let cblk := if bitOf (fieldOf w 51 1) 2 then 32 else 16
  let wIn := 127 * strideW + (kw - 1) * dilW + 1
  let elem := roundUp (ceilDiv (wIn * cblk * fmtBits xf) 8) 128
  let seg := if fmtMx xf then elem + roundUp wIn 128 + roundUp (4 * wIn) 128 else elem
  ⟨(kt - 1) * dilT + 1, (kh - 1) * dilH + 1, wIn, cblk, seg, 128 * fieldOf w 32 2 / cblk, kt * kh * kw⟩

/-- The segment stride of a mm.conv wide copy (R179). -/
def ConvGeo.wideSeg (g : ConvGeo) : Nat := roundUp (g.wIn * g.cblk * 2) 128

/-- mm.conv (R89, R177 to R181). Too large a product kt × kh × kw is reported at kt, byte 34 (DESIGN CHOICE, log 151:
R89 names no field for the product). -/
def checkMmConv (v : CheckEnv) (w : Bytes) : List (Nat × Nat × Bool) × List (Nat × Nat × Bool) :=
  let cb := fieldOf w 32 2
  let kt := fieldOf w 34 1
  let kh := fieldOf w 35 1
  let kw := fieldOf w 36 1
  let lo := fun o => bitsOf (fieldOf w o 1) 3 0
  let hi := fun o => bitsOf (fieldOf w o 1) 7 4
  let ph := fieldOf w 40 4
  let pt := fieldOf w 44 4
  let x := fieldOf w 48 1
  let f := fieldOf w 49 1
  let o := fieldOf w 50 1
  let m := fieldOf w 51 1
  let esc := bitsOf m 5 4
  let empty := cb == 0 || kt == 0 || kh == 0 || kw == 0
  let both := fmtBlock x && fmtBlock f
  let g := convGeo w
  let needWide := both && decide (rungOf x < esc)
  let range := fun (b : Nat) => [(b, stInvalid, lo b == 0 || hi b == 0), (b, stCount, decide (8 < lo b) || decide (8 < hi b))]
  let rowB := g.nseg * g.seg
  let winEnd := (g.tIn - 1) * pt + (g.hIn - 1) * ph + rowB
  let wideEnd := g.tIn * g.hIn * g.nseg * g.wideSeg
  let filt := g.taps * operandBytes f cb false +
    (if fmtBlock f && fmtBits f == 4 && esc != 0 then g.taps * residBytes cb else 0)
  (spPass1 v.regs w 16 true empty ++ spPass1 v.regs w 20 true empty ++
   spPass1 v.regs w 24 false empty ++ spPass1 v.regs w 28 false empty ++
   [(34, stCount, decide (7 < kt) || decide (1024 < g.taps)),
    (35, stCount, decide (15 < kh)), (36, stCount, decide (15 < kw))] ++
   range 37 ++ range 38 ++ range 39 ++
   [(40, stAlign, !empty && ph % 128 != 0), (44, stAlign, !empty && pt % 128 != 0),
    (48, stUnsupported, !fmtMm x || fmtVb4 x),
    (49, stUnsupported, !fmtMm f || fmtInt x != fmtInt f),
    (50, stUnsupported, !fmtMmOut o || (o == 0x11 && !fmtInt x)),
    (51, stInvalid, fmtMx x && !bitOf m 2),
    (51, stInvalid, esc != 0 && !both),
    (51, stInvalid, esc != 0 && fmtBlock f && rungOf f != 0),
    (51, stInvalid, needWide && spAbsent (fieldOf w 28 4)),
    (52, stInvalid, badThreshold (fieldOf w 52 2)),
    (54, stInvalid, badThreshold (fieldOf w 54 2))],
   spPass2 v.regs w 16 winEnd empty ++ spPass2 v.regs w 20 filt empty ++
   spPass2 v.regs w 24 (outBytes o) empty ++
   (if needWide then spPass2 v.regs w 28 wideEnd empty else []) ++
   (if spRegEn (fieldOf w 16 4) && v.regs.isNone then [] else
   [(40, stBounds, !empty && g.hIn != 1 && decide (ph < rowB)),
    (44, stBounds, !empty && g.tIn != 1 && (pt == 0 || decide (pt < g.hIn * ph)))]))

/-- mm.drain (R90). -/
def checkMmDrain (v : CheckEnv) (w : Bytes) : List (Nat × Nat × Bool) × List (Nat × Nat × Bool) :=
  (spPass1 v.regs w 16 true false ++ [(21, stUnsupported, !fmtMmOut (fieldOf w 21 1))],
   spPass2 v.regs w 16 (outBytes (fieldOf w 21 1)) false)

/-- qz. (R91, R431). A row that does not fit its pitch is reported in the second pass at the pitch field (DESIGN
CHOICE, log 150: R84 gives the status alone); so it is for vx., sf. and rs. -/
def checkQz (v : CheckEnv) (w : Bytes) : List (Nat × Nat × Bool) × List (Nat × Nat × Bool) :=
  let quant := opCode w == 1
  let rows := fieldOf w 28 2
  let n := fieldOf w 30 2
  let sp := fieldOf w 32 2
  let dp := fieldOf w 34 2
  let sf := fieldOf w 36 1
  let df := fieldOf w 37 1
  let empty := rows == 0 || n == 0
  let grain := if quant then (if fmtMx df then 32 else if fmtVb4 df then 16 else 1) else 1
  (spPass1 v.regs w 16 true empty ++ spPass1 v.regs w 20 true empty ++ spPass1 v.regs w 24 false empty ++
   [(24, stInvalid, !spAbsent (fieldOf w 24 4) && !(quant && fmtVb4 df)),
    (30, stAlign, !empty && n % grain != 0),
    (36, stUnsupported, !(if quant then fmtVec sf else fmtBlock sf)),
    (37, stUnsupported, !(if quant then fmtQuantOut df else fmtDequantOut df))],
   spPass2 v.regs w 16 (qzBytes sf rows n sp) empty ++ spPass2 v.regs w 20 (qzBytes df rows n dp) empty ++
   spPass2 v.regs w 24 (rows * 4) empty ++
   [(32, stBounds, !empty && decide (sp * 128 < rowBytes sf n)),
    (34, stBounds, !empty && decide (dp * 128 < rowBytes df n))])

/-- vx. (R92). A format field holds a legal code whether or not the operation uses its operand (R82). -/
def checkVx (v : CheckEnv) (w : Bytes) : List (Nat × Nat × Bool) × List (Nat × Nat × Bool) :=
  let op := opCode w
  let rows := fieldOf w 32 2
  let n := fieldOf w 34 2
  let xp := fieldOf w 36 2
  let dp := fieldOf w 38 2
  let xf := fieldOf w 40 1
  let yf := fieldOf w 41 1
  let zf := fieldOf w 42 1
  let df := fieldOf w 43 1
  let func := fieldOf w 44 1
  let empty := rows == 0 || n == 0
  let fill := op == 4
  let hasY := !fill && !spAbsent (fieldOf w 20 4)
  let hasZ := !fill && func == 3
  let side := fun f => if op = 1 then areaBytes f rows n xp else if op = 2 then rowBytes f rows else rowBytes f n
  (spPass1 v.regs w 16 (!fill) empty ++ spPass1 v.regs w 20 false empty ++
   spPass1 v.regs w 24 hasZ empty ++ spPass1 v.regs w 28 true empty ++
   [(40, stUnsupported, !fmtVec xf), (41, stUnsupported, !fmtVec yf),
    (42, stUnsupported, !fmtVec zf), (43, stUnsupported, !fmtVec df),
    (44, stInvalid, decide (8 < func))],
   (if fill then [] else spPass2 v.regs w 16 (areaBytes xf rows n xp) empty) ++
   (if hasY then spPass2 v.regs w 20 (side yf) empty else []) ++
   (if hasZ then spPass2 v.regs w 24 (side zf) empty else []) ++
   spPass2 v.regs w 28 (areaBytes df rows n dp) empty ++
   [(36, stBounds, !fill && !empty && (decide (xp * 128 < rowBytes xf n) ||
      (op == 1 && ((hasY && decide (xp * 128 < rowBytes yf n)) || (hasZ && decide (xp * 128 < rowBytes zf n)))))),
    (38, stBounds, !empty && decide (dp * 128 < rowBytes df n))])

/-- sf. (R93). -/
def checkSf (v : CheckEnv) (w : Bytes) : List (Nat × Nat × Bool) × List (Nat × Nat × Bool) :=
  let rows := fieldOf w 28 2
  let n := fieldOf w 30 2
  let xp := fieldOf w 32 2
  let dp := fieldOf w 34 2
  let xf := fieldOf w 36 1
  let df := fieldOf w 37 1
  let func := fieldOf w 38 1
  let empty := rows == 0 || n == 0
  (spPass1 v.regs w 16 true empty ++ spPass1 v.regs w 20 true empty ++ spPass1 v.regs w 24 false empty ++
   [(36, stUnsupported, !fmtVec xf), (37, stUnsupported, !fmtVec df),
    (38, stInvalid, opCode w == 1 && decide (3 < func)),
    (38, stBounds, opCode w == 2 && decide (63 < func))],
   spPass2 v.regs w 16 (areaBytes xf rows n xp) empty ++ spPass2 v.regs w 20 (areaBytes df rows n dp) empty ++
   spPass2 v.regs w 24 (rows * 4) empty ++
   [(32, stBounds, !empty && decide (xp * 128 < rowBytes xf n)),
    (34, stBounds, !empty && decide (dp * 128 < rowBytes df n))])

/-- rs. (R94, R95, R184). -/
def checkRs (v : CheckEnv) (w : Bytes) : List (Nat × Nat × Bool) × List (Nat × Nat × Bool) :=
  let op := opCode w
  let rows := fieldOf w 28 2
  let n := fieldOf w 30 2
  let xp := fieldOf w 32 2
  let xf := fieldOf w 34 1
  let mode := fieldOf w 35 1
  let fl := fieldOf w 36 1
  let empty := rows == 0 || n == 0
  let gap := op == 4
  let cblk := if bitOf fl 2 then 32 else 16
  let needAux := (op == 1 && mode == 2) || op == 3
  let blockB := ceilDiv (rows * cblk * fmtBits xf) 8
  let rec_ := if op = 1 then 16 * rows else if op = 2 then 4 * rows else if op = 3 then 8 * rows else 4 * n
  (spPass1 v.regs w 16 true empty ++ spPass1 v.regs w 20 true empty ++ spPass1 v.regs w 24 needAux empty ++
   [(30, stAlign, !empty && gap && n % cblk != 0),
    (34, stUnsupported, !fmtVec xf),
    (35, stInvalid, op == 1 && (decide (2 < mode) || (mode == 1 && bitOf fl 0))),
    (35, stInvalid, op == 3 && decide (1 < mode)),
    (40, stCount, gap && bitOf fl 1 && fieldOf w 40 4 == 0)],
   spPass2 v.regs w 16 (if gap then (n / cblk - 1) * (xp * 128) + blockB else areaBytes xf rows n xp) empty ++
   spPass2 v.regs w 20 rec_ empty ++
   (if needAux then spPass2 v.regs w 24 (4 * rows) empty else []) ++
   [(32, stBounds, !empty && decide (xp * 128 < (if gap then blockB else rowBytes xf n)))])

/-- The register a base field adds: `none` when the loader cannot know it. -/
def baseAdd (regs : Option (Tab Nat)) (en : Bool) (r : Nat) : Option Nat :=
  if en then regs.map (fun t => Tab.getD t r 0) else some 0

/-- The source and destination endpoints of a dma.copy word. -/
def copyEnds (regs : Option (Tab Nat)) (w : Bytes) : Option Endpoint × Option Endpoint :=
  let s := fieldOf w 48 1
  let e := fieldOf w 49 1
  let r := fieldOf w 50 1
  ((baseAdd regs (bitOf e 0) (bitsOf r 3 0)).map (endpoint (bitsOf s 1 0) (fieldOf w 16 8)),
   (baseAdd regs (bitOf e 1) (bitsOf r 7 4)).map (endpoint (bitsOf s 3 2) (fieldOf w 24 8)))

/-- The multiple that the pitch of an endpoint of a space must be: 128 in the scratchpad, else 32 (R97). -/
def pitchGrain (space : Nat) : Nat := if space = 0 then 128 else 32

/-- dma.copy (R96, R97, R189). An overlap is reported in the second pass at byte 44, where dst_pitch stands (DESIGN
CHOICE, log 154: R189 names no field for it). -/
def checkDmaCopy (v : CheckEnv) (w : Bytes) : List (Nat × Nat × Bool) × List (Nat × Nat × Bool) :=
  let ss := bitsOf (fieldOf w 48 1) 1 0
  let ds := bitsOf (fieldOf w 48 1) 3 2
  let rb := fieldOf w 32 4
  let rows := fieldOf w 36 4
  let sp := fieldOf w 40 4
  let dp := fieldOf w 44 4
  let empty := rb == 0 || rows == 0
  let q := if ss = 0 ∨ ds = 0 then 128 else 32
  let e := copyEnds v.regs w
  (endPass1 16 ss (fieldOf w 16 8) e.1 empty ++ endPass1 24 ds (fieldOf w 24 8) e.2 empty ++
   [(32, stAlign, !empty && rb % q != 0), (40, stAlign, !empty && sp % pitchGrain ss != 0),
    (44, stAlign, !empty && dp % pitchGrain ds != 0),
    (48, stInvalid, ss == 3 || ds == 3 || (ss == 0 && ds == 0)),
    (52, stBounds, decide (255 < fieldOf w 52 2))],
   endPass2 16 v.part e.1 (spanBytes rows rb sp) empty ++ endPass2 24 v.part e.2 (spanBytes rows rb dp) empty ++
   (match e.1, e.2 with
    | some s, some t => if (endpointFail v.part s (spanBytes rows rb sp)).isSome || (endpointFail v.part t (spanBytes rows rb dp)).isSome then []
        else [(44, stInvalid, !empty && overlapFail s t rows rb sp dp)]
    | _, _ => []))

/-- dma.seq (R98). A seq_offset of 2^40 or more is BOUNDS at its field (DESIGN CHOICE, log 155: the table says only
"below 2^40"). -/
def checkDmaSeq (v : CheckEnv) (w : Bytes) : List (Nat × Nat × Bool) × List (Nat × Nat × Bool) :=
  let ds := bitsOf (fieldOf w 56 1) 1 0
  let rb := fieldOf w 32 4
  let rows := fieldOf w 36 4
  let dp := fieldOf w 44 4
  let empty := rb == 0 || rows == 0
  let e := some (endpoint ds (fieldOf w 48 8) 0)
  ([(24, stBounds, !empty && decide (2 ^ 40 ≤ fieldOf w 24 8)),
    (32, stAlign, !empty && rb % 128 != 0), (40, stAlign, !empty && fieldOf w 40 4 % 128 != 0),
    (44, stAlign, !empty && dp % 128 != 0)] ++
   endPass1 48 ds (fieldOf w 48 8) e empty ++
   [(56, stInvalid, decide (1 < ds)), (58, stBounds, decide (255 < fieldOf w 58 2))],
   [(44, stInvalid, !empty && decide (1 < rows) && decide (dp < rb))] ++
   endPass2 48 v.part e (spanBytes rows rb dp) empty)

/-- dma.prefetch (R99, R269). -/
def checkDmaPrefetch (v : CheckEnv) (w : Bytes) : List (Nat × Nat × Bool) × List (Nat × Nat × Bool) :=
  let n := fieldOf w 24 8
  ([(16, stInvalid, n != 0 && decide (2 ^ 48 ≤ fieldOf w 16 8))],
   [(16, stPartition, n != 0 && v.part.extent (fieldOf w 16 8) n == .outside)])

/-- dma.ring (R98, R191). -/
def checkDmaRing (v : CheckEnv) (w : Bytes) : List (Nat × Nat × Bool) × List (Nat × Nat × Bool) :=
  let entries := fieldOf w 24 4
  let count := fieldOf w 32 4
  let empty := count == 0
  let e := endpoint 1 (fieldOf w 16 8) 0
  ([(16, stInvalid, endpointRsv 1 (fieldOf w 16 8)), (16, stAlign, !empty && e.addr % 1024 != 0),
    (24, stCount, !isPow2 entries || decide (entries < 32) || decide (4096 < entries)),
    (28, stBounds, decide (entries ≤ fieldOf w 28 4)), (32, stBounds, decide (entries < count))],
   endPass2 16 v.part (some e) (32 * entries) empty)

/-- cnt. (R101). -/
def checkCnt (v : CheckEnv) (w : Bytes) : List (Nat × Nat × Bool) × List (Nat × Nat × Bool) :=
  let op := opCode w
  let index := fieldOf w 16 2
  let place := fieldOf w 18 1
  let limit := if op ≤ 4 then 4096 else if op = 7 then 1024 else 65536
  (  [(16, stBounds, decide (limit ≤ index)),
      (18, stInvalid, !bitOf place 5 && bitsOf place 4 0 != 0),
      (18, stPartition, bitOf place 5 && !v.part.hasDie (bitsOf place 4 3))] ++
   spPass1 v.regs w 20 false false,
   spPass2 v.regs w 20 128 false)

/-- hx. (R100, R162, R205). -/
def checkHx (v : CheckEnv) (w : Bytes) : List (Nat × Nat × Bool) × List (Nat × Nat × Bool) :=
  let op := opCode w
  let n := fieldOf w 28 4
  let halo := fieldOf w 20 2
  let empty := op != 3 && n == 0
  (spPass1 v.regs w 16 (op != 3) empty ++
   [(16, stInvalid, op == 3 && !spAbsent (fieldOf w 16 4)),
    (20, stBounds, decide (v.halos.length ≤ halo)),
    (28, stAlign, !empty && n % 128 != 0)],
   spPass2 v.regs w 16 n empty ++
   [(28, stBounds, !empty && (match v.halos[halo]? with
      | some h => decide (h.slotBytes < n)
      | none => false))])

/-- pg. (R102 to R104). -/
def checkPg (v : CheckEnv) (w : Bytes) : List (Nat × Nat × Bool) × List (Nat × Nat × Bool) :=
  let op := opCode w
  let n := fieldOf w 32 8
  let count := fieldOf w 40 4
  let extent := op == 1 || op == 3
  let empty := (extent && n == 0) || (op == 2 && count == 0)
  (spPass1 v.regs w 20 (op != 3) empty ++
   [(24, stBounds, extent && !empty && decide (2 ^ 40 ≤ fieldOf w 24 8)),
    (32, stAlign, extent && !empty && n % 128 != 0),
    (40, stCount, op == 2 && decide (4096 < count))],
   if op = 3 then [] else
     spPass2 v.regs w 20 (if op = 1 then n else if op = 2 then 32 * count else 32) empty)

/-- col. (R105, R106). -/
def checkCol (v : CheckEnv) (w : Bytes) : List (Nat × Nat × Bool) × List (Nat × Nat × Bool) :=
  let op := opCode w
  let n := fieldOf w 32 4
  let group := fieldOf w 40 1
  let badGroup := decide (2 < group) && (decide (group < 16) || decide (16 + v.groups ≤ group))
  match op with
  | 1 =>
    let ss := bitsOf (fieldOf w 38 1) 1 0
    let empty := n == 0
    let s := some (endpoint ss (fieldOf w 16 8) 0)
    let t := some (endpoint 1 (fieldOf w 24 8) 0)
    (endPass1 16 ss (fieldOf w 16 8) s empty ++ endPass1 24 1 (fieldOf w 24 8) t empty ++
     [(32, stAlign, !empty && n % 128 != 0), (36, stBounds, decide (255 < fieldOf w 36 2)),
      (38, stInvalid, decide (1 < ss))],
     endPass2 16 v.part s n empty ++ endPass2 24 v.part t n empty)
  | 2 =>
    ([(32, stAlign, n != 0 && n % 128 != 0), (36, stBounds, decide (255 < fieldOf w 36 2))], [])
  | 3 =>
    let o := fieldOf w 41 1
    let ty := fieldOf w 42 1
    let el := fieldOf w 43 1
    let empty := el == 0
    (spPass1 v.regs w 16 true empty ++ [(16, stInvalid, fieldOf w 20 4 != 0)] ++
     spPass1 v.regs w 24 true empty ++ [(24, stInvalid, fieldOf w 28 4 != 0)] ++
     [(40, stInvalid, badGroup), (41, stInvalid, decide (4 < o)), (42, stInvalid, decide (2 < ty)),
      (42, stInvalid, (ty == 1 && decide (3 ≤ o)) || (ty == 2 && decide (o < 3))),
      (43, stCount, decide (16 < el))],
     spPass2 v.regs w 16 (4 * el) empty ++ spPass2 v.regs w 24 (4 * el) empty)
  | _ => ([(40, stInvalid, badGroup)], [])

/-- sync. (R107). -/
def checkSync (v : CheckEnv) (w : Bytes) : List (Nat × Nat × Bool) × List (Nat × Nat × Bool) :=
  match opCode w with
  | 3 =>
    let mode := bitsOf (fieldOf w 16 1) 1 0
    let e := endpoint 1 (fieldOf w 32 8) 0
    ([(16, stInvalid, mode == 3), (18, stBounds, mode == 1 && decide (1023 < fieldOf w 18 2)),
      (32, stInvalid, mode == 2 && endpointRsv 1 (fieldOf w 32 8)),
      (32, stAlign, mode == 2 && e.addr % 8 != 0)],
     if mode = 2 then endPass2 32 v.part (some e) 8 false else [])
  | 4 => (spPass1 v.regs w 16 true false, spPass2 v.regs w 16 16 false)
  | _ => ([], [])

/-- Whether a register id is one of a0 to a15, l0 to l7. -/
def badReg (r : Nat) : Bool := decide (0x17 < r)

/-- ctl. (R108). -/
def checkCtl (v : CheckEnv) (w : Bytes) : List (Nat × Nat × Bool) × List (Nat × Nat × Bool) :=
  let b := fun o => fieldOf w o 1
  let rs2 := b 18 != 0xFF && badReg (b 18)
  match opCode w with
  | 1 => ([(16, stInvalid, badReg (b 16))], [])
  | 2 => ([(16, stInvalid, badReg (b 16)), (17, stInvalid, badReg (b 17)), (18, stInvalid, rs2),
           (19, stInvalid, decide (7 < b 19))], [])
  | 3 => ([(17, stInvalid, badReg (b 17)), (18, stInvalid, rs2), (19, stInvalid, decide (5 < b 19))], [])
  | 4 => ([(19, stInvalid, decide (5 < b 19))], [])
  | 5 => ([(16, stBounds, decide (v.words ≤ fieldOf w 16 2))], [])
  | 6 => ([(18, stBounds, decide (v.words ≤ fieldOf w 18 2))], [])
  | 7 => ([(16, stInvalid, badReg (b 16))] ++ spPass1 v.regs w 20 true false, spPass2 v.regs w 20 128 false)
  | 8 => ([(17, stInvalid, badReg (b 17))] ++ spPass1 v.regs w 20 true false, spPass2 v.regs w 20 128 false)
  | _ => ([], [])

/-- The class-specific checks of a word. -/
def classChecks (v : CheckEnv) (w : Bytes) : List (Nat × Nat × Bool) × List (Nat × Nat × Bool) :=
  match opClass w with
  | 1 => (match opCode w with
    | 1 => checkMmTile v w
    | 2 => checkMmConv v w
    | _ => checkMmDrain v w)
  | 2 => checkQz v w
  | 3 => checkVx v w
  | 4 => checkSf v w
  | 5 => checkRs v w
  | 6 => (match opCode w with
    | 1 => checkDmaCopy v w
    | 2 => checkDmaSeq v w
    | 3 => checkDmaPrefetch v w
    | _ => checkDmaRing v w)
  | 7 => checkCnt v w
  | 8 => checkHx v w
  | 9 => checkPg v w
  | 10 => checkCol v w
  | 11 => checkSync v w
  | 12 => checkCtl v w
  | _ => ([], [])

/-- The first failure of a word: status and offset (R83). An unknown class or op has no fields to check. -/
def checkWord (v : CheckEnv) (w : Bytes) : Option (Nat × Nat) :=
  let n := opsOfClass (opClass w)
  if n = 0 ∨ opCode w = 0 ∨ n < opCode w then firstFail (headerChecks w)
  else
    let c := classChecks v w
    twoPass (headerChecks w ++ c.1) c.2

/-- What the P8 encoding does not allow (R55). -/
def checkP8 (w : Bytes) : List (Nat × Nat × Bool) :=
  let cls := opClass w
  let op := opCode w
  let bad := fun f => (decide (1 ≤ f) && decide (f ≤ 3)) || fmtVb4 f
  let fmts : List Nat :=
    match cls, op with
    | 1, 1 => [42, 43, 44]
    | 1, 3 => [21]
    | 2, _ => [36, 37]
    | 3, _ => [40, 41, 42, 43]
    | 4, _ => [36, 37]
    | 5, _ => [34]
    | _, _ => []
  [(0, stUnsupported, cls == 8 || cls == 9 || cls == 10),
   (1, stUnsupported, (cls == 1 && op == 2) || (cls == 6 && op == 2))] ++
  fmts.map (fun b => (b, stUnsupported, bad (fieldOf w b 1))) ++
  (if cls = 1 ∧ op = 1 then
    [(45, stInvalid, bitOf (fieldOf w 45 1) 4), (46, stInvalid, bitsOf (fieldOf w 46 1) 1 0 != 0)] else []) ++
  (if cls = 6 ∧ op = 1 then [(48, stInvalid, bitsOf (fieldOf w 48 1) 5 4 != 0)] else [])

end Sys2Proof.Machine
end

