-- ==== Sys2Proof/Machine/Flags.lean ====
section
/-!
DEFINITION. Predicates and conditions (R57, R63, R67), and the read and write sets from which the
sequencer finds hazards (R59).
-/

namespace Sys2Proof.Machine

/-- The value of predicate `i`. -/
def Core.pred (k : Core) (i : Nat) : Bool := bitOf k.preds i

/-- The predicates with one of them set to a value. -/
def predsWith (ps i : Nat) (v : Bool) : Nat :=
  ps - (if bitOf ps i then 2 ^ i else 0) + (if v then 2 ^ i else 0)

/-- Sets predicate `i`. -/
def Core.setPred (k : Core) (i : Nat) (v : Bool) : Core := { k with preds := predsWith k.preds i v }

/-- Whether a word's guard lets it execute (R63, R67). -/
def Core.guardOn (k : Core) (w : Bytes) : Bool :=
  !opPredEn w || (k.pred (opPred w) != opPredNeg w)

/-- Stores an operation's condition into set_pred, complemented under set_neg (R67). -/
def Core.storeCond (k : Core) (w : Bytes) (cond : Bool) : Core :=
  if opSetEn w then k.setPred (opSetPred w) (cond != opSetNeg w) else k

/-- The line interval of an area. -/
def lineSpan (off size : Nat) : List (Nat × Nat) :=
  if size = 0 then [] else [(off / 128, ceilDiv (off + size) 128)]

/-- The line interval of the area an sp_ref names. -/
def refSpan (regs : Tab Nat) (w : Bytes) (b size : Nat) : List (Nat × Nat) :=
  let r := fieldOf w b 4
  if spAbsent r then [] else lineSpan (spAt regs r) size

/-- Whether an 8-byte word of the scratchpad lies in the lines of an interval list (R52, R59). -/
def inSpans (spans : List (Nat × Nat)) (word : Nat) : Bool :=
  spans.any (fun x => decide (x.1 ≤ word / 16) && decide (word / 16 < x.2))

/-- Single-bit errors in the lines that are read are corrected and counted (R52). -/
def Core.corrected (k : Core) (spans : List (Nat × Nat)) : Core :=
  { k with
    eccFixed := satAdd k.eccFixed (k.soft.filter (inSpans spans)).length
    soft := k.soft.filter (fun x => !inSpans spans x) }

/-- Lines that are written whole hold sound words again. -/
def Core.rewritten (k : Core) (spans : List (Nat × Nat)) : Core :=
  { k with bad := k.bad.filter (fun x => !inSpans spans x), soft := k.soft.filter (fun x => !inSpans spans x) }

/-- Whether two interval lists share a line. -/
def spansMeet (a b : List (Nat × Nat)) : Bool :=
  a.any (fun x => b.any (fun y => decide (x.1 < y.2) && decide (y.1 < x.2)))

/-- The mask bit of a predicate, an address register, a loop counter (R59). -/
def predBit (i : Nat) : Nat := 2 ^ (2 + i)
/-- The mask bit of a register id of ctl.: 0x00 to 0x0F, then 0x10 to 0x17. -/
def regBit (r : Nat) : Nat := 2 ^ (34 + r)

/-- The address registers that the sp_refs at the given bytes read. -/
def refRegs (w : Bytes) (bs : List Nat) : Nat :=
  bs.foldl (fun m b => let r := fieldOf w b 4
    if !spAbsent r && spRegEn r then Nat.lor m (regBit (spReg r)) else m) 0

/-- Read lines, write lines, read mask and write mask of an operation's own operands. -/
def bodyFoot (regs : Tab Nat) (w : Bytes) : Foot :=
  let f := fun o n => fieldOf w o n
  let sp := fun b size => refSpan regs w b size
  match opClass w, opCode w with
  | 1, 1 =>
    let kb := f 40 2
    if kb = 0 then ⟨[], [], 0, 0⟩ else
    let fl := f 45 1
    let land := sp 60 (if bitOf fl 4 then residBytes kb else wideBytes kb)
    ⟨sp 16 (operandBytes (f 42 1) kb (bitOf fl 2)) ++ sp 20 (operandBytes (f 43 1) kb (bitOf fl 3)) ++
       sp 28 (wideBytes kb) ++ land,
     sp 24 (outBytes (f 44 1)) ++ (if bitOf fl 4 then land else []),
     refRegs w [16, 20, 24, 28, 60] + (if bitOf fl 1 then 2 ^ bitsOf fl 0 0 else 0), 2 ^ bitsOf fl 0 0⟩
  | 1, 2 =>
    let g := convGeo w
    let m := f 51 1
    let cb := f 32 2
    if cb = 0 ∨ g.taps = 0 then ⟨[], [], 0, 0⟩ else
    ⟨sp 16 ((g.tIn - 1) * f 44 4 + (g.hIn - 1) * f 40 4 + g.nseg * g.seg) ++
       sp 20 (g.taps * (operandBytes (f 49 1) cb false + (if bitsOf m 5 4 != 0 then residBytes cb else 0))) ++
       sp 28 (g.tIn * g.hIn * g.nseg * g.wideSeg),
     sp 24 (outBytes (f 50 1)),
     refRegs w [16, 20, 24, 28] + (if bitOf m 1 then 2 ^ bitsOf m 0 0 else 0), 2 ^ bitsOf m 0 0⟩
  | 1, _ => ⟨[], sp 16 (outBytes (f 21 1)), refRegs w [16] + 2 ^ bitsOf (f 20 1) 0 0, 0⟩
  | 2, _ =>
    ⟨sp 16 (qzBytes (f 36 1) (f 28 2) (f 30 2) (f 32 2)) ++ sp 24 (4 * f 28 2),
     sp 20 (qzBytes (f 37 1) (f 28 2) (f 30 2) (f 34 2)), refRegs w [16, 20, 24], 0⟩
  | 3, op =>
    let rows := f 32 2
    let n := f 34 2
    let side := fun q => if op = 1 then areaBytes q rows n (f 36 2) else if op = 2 then rowBytes q rows else rowBytes q n
    ⟨(if op = 4 then [] else sp 16 (areaBytes (f 40 1) rows n (f 36 2)) ++ sp 20 (side (f 41 1)) ++
        (if f 44 1 = 3 then sp 24 (side (f 42 1)) else [])),
     sp 28 (areaBytes (f 43 1) rows n (f 38 2)), refRegs w [16, 20, 24, 28], 0⟩
  | 4, _ =>
    ⟨sp 16 (areaBytes (f 36 1) (f 28 2) (f 30 2) (f 32 2)) ++ sp 24 (4 * f 28 2),
     sp 20 (areaBytes (f 37 1) (f 28 2) (f 30 2) (f 34 2)), refRegs w [16, 20, 24], 0⟩
  | 5, op =>
    let rows := f 28 2
    let n := f 30 2
    let cblk := if bitOf (f 36 1) 2 then 32 else 16
    let x := if op = 4 then (n / cblk - 1) * (f 32 2 * 128) + ceilDiv (rows * cblk * fmtBits (f 34 1)) 8
      else areaBytes (f 34 1) rows n (f 32 2)
    let d := if op = 1 then 16 * rows else if op = 2 then 4 * rows else if op = 3 then 8 * rows else 4 * n
    let acc := bitOf (f 36 1) 0 || op == 3
    let auxRead := (op == 1 && f 35 1 == 2) || (op == 3 && f 35 1 == 1)
    let auxWrite := op == 3 && f 35 1 == 0
    ⟨sp 16 x ++ (if acc then sp 20 d else []) ++ (if auxRead then sp 24 (4 * rows) else []),
     sp 20 d ++ (if auxWrite then sp 24 (4 * rows) else []), refRegs w [16, 20, 24], 0⟩
  | 6, 1 =>
    let e := copyEnds (some regs) w
    let area := fun (x : Option Endpoint) pitch => match x with
      | some x => if x.space = 0 then lineSpan x.addr (spanBytes (f 36 4) (f 32 4) pitch) else []
      | none => []
    let en := f 49 1
    ⟨area e.1 (f 40 4), area e.2 (f 44 4),
     (if bitOf en 0 then regBit (bitsOf (f 50 1) 3 0) else 0) + (if bitOf en 1 && bitsOf (f 50 1) 3 0 != bitsOf (f 50 1) 7 4 then regBit (bitsOf (f 50 1) 7 4) else 0), 0⟩
  | 6, 2 =>
    ⟨[], if bitsOf (f 56 1) 1 0 = 0 then lineSpan (bitsOf (f 48 8) 22 0) (spanBytes (f 36 4) (f 32 4) (f 44 4)) else [], 0, 0⟩
  | 7, _ => ⟨[], sp 20 128, refRegs w [20], 0⟩
  | 8, 1 => ⟨sp 16 (f 28 4), [], refRegs w [16], 0⟩
  | 8, 2 => ⟨[], sp 16 (f 28 4), refRegs w [16], 0⟩
  | 9, 1 => ⟨sp 20 (f 32 8), [], refRegs w [20], 0⟩
  | 9, 2 => ⟨sp 20 (32 * f 40 4), [], refRegs w [20], 0⟩
  | 9, 4 => ⟨[], sp 20 32, refRegs w [20], 0⟩
  | 10, 1 => ⟨if bitsOf (f 38 1) 1 0 = 0 then lineSpan (bitsOf (f 16 8) 22 0) (f 32 4) else [], [], 0, 0⟩
  | 10, 3 => ⟨sp 16 (4 * f 43 1), sp 24 (4 * f 43 1), refRegs w [16, 24], 0⟩
  | 11, 4 => ⟨[], sp 16 16, refRegs w [16], 0⟩
  | 12, 1 => ⟨[], [], 0, regBit (f 16 1)⟩
  | 12, 2 => ⟨[], [], Nat.lor (regBit (f 17 1)) (if f 18 1 = 0xFF then 0 else regBit (f 18 1)), regBit (f 16 1)⟩
  | 12, 3 => ⟨[], [], Nat.lor (regBit (f 17 1)) (if f 18 1 = 0xFF then 0 else regBit (f 18 1)), 0⟩
  | 12, 4 => ⟨[], [], Nat.lor (predBit (bitsOf (f 17 1) 4 0)) (predBit (bitsOf (f 18 1) 4 0)), 0⟩
  | 12, 6 => ⟨[], [], regBit (0x10 + bitsOf (f 16 1) 2 0), regBit (0x10 + bitsOf (f 16 1) 2 0)⟩
  | 12, 7 => ⟨sp 20 128, [], refRegs w [20], regBit (f 16 1)⟩
  | 12, 8 => ⟨[], sp 20 128, Nat.lor (refRegs w [20]) (regBit (f 17 1)), 0⟩
  | _, _ => ⟨[], [], 0, 0⟩

/-- The read and write sets of a word, its guard and its stored predicate among them (R59). -/
def footOf (regs : Tab Nat) (w : Bytes) : Foot :=
  let b := bodyFoot regs w
  { b with
    rdMask := if opPredEn w then Nat.lor b.rdMask (predBit (opPred w)) else b.rdMask
    wrMask := if opSetEn w then Nat.lor b.wrMask (predBit (opSetPred w)) else b.wrMask }

/-- Whether a word must wait for an earlier operation of the window (R59). -/
def hazard (x e : Foot) : Bool :=
  spansMeet x.wr e.rd || spansMeet x.wr e.wr || spansMeet x.rd e.wr ||
    Nat.land x.wrMask (Nat.lor e.rdMask e.wrMask) != 0 || Nat.land x.rdMask e.wrMask != 0

/-- Whether an earlier operation of the window still has to write a word's guard predicate (R63). -/
def guardPending (k : Core) (w : Bytes) : Bool :=
  opPredEn w && k.window.any (fun e => Nat.land (predBit (opPred w)) e.foot.wrMask != 0)

end Sys2Proof.Machine
end

