-- ==== Sys2Proof/Machine/Issue.lean ====
section
/-!
DEFINITION. The sequencer: issue, the window, completion, faults and stopping (R58 to R66, R83, R85),
and the ledger records that operations add (R132, R133).
-/

namespace Sys2Proof.Machine

/-! ## Where a core runs -/

/-- The pipeline a core runs, with its partition, slot and stage index. -/
def Dev.coreRun (d : Dev) (c : Nat) : Option (Nat × Nat × Nat × Pipe × Stage) :=
  match (d.core c).run with
  | none => none
  | some (p, slot, st) =>
    match Tab.find (d.part p).pipes slot with
    | none => none
    | some x => match x.stages[st]? with
      | none => none
      | some y => some (p, slot, st, x, y)

/-- The tick counter a core's replica shows: within 2 tc of its generator's (R21). -/
def Dev.coreTc (d : Dev) (c : Nat) : Nat :=
  match (d.core c).run with
  | some (p, _, _) => d.tc p + Tab.getD (d.part p).tick.skew (dieOfCore c) 2 - 2
  | none => d.now

/-- The cores of a pipeline, ascending within each stage. -/
def Pipe.cores (x : Pipe) : List Nat := x.stages.flatMap (·.cores)

/-- Words of the program in a core's program memory (R54). -/
def Core.words (k : Core) : Nat := fieldOf k.progMem 2 2
/-- entry of the program header. -/
def Core.entry (k : Core) : Nat := fieldOf k.progMem 4 2
/-- window_entry of the program header. -/
def Core.windowEntry (k : Core) : Nat := fieldOf k.progMem 6 2
/-- Operation word `i`, which follows the header (R54). -/
def Core.wordAt (k : Core) (i : Nat) : Bytes := sliceOf k.progMem (64 * (i + 1)) 64

/-- The environment in which a core's words are checked at issue. -/
def Dev.checkEnv (d : Dev) (c : Nat) : CheckEnv :=
  let k := d.core c
  match d.coreRun c with
  | some (p, _, _, x, _) => ⟨some k.aregs, d.part p, k.words, x.halos, x.groups.length⟩
  | none => ⟨some k.aregs, Part.reset, k.words, [], 0⟩

/-! ## The ledger (R132, R133) -/

/-- Entries of the ring, and those reserved for OVERRUN records. -/
def ledgerSize : Nat := 1048576
/-- Entries reserved for OVERRUN records. -/
def ledgerReserved : Nat := 4096

/-- Posts the ledger EVENTs for a rise to a level of R133. -/
def Dev.ledgerLevels (d : Dev) (p : Nat) : Dev :=
  let l := (d.part p).ledger
  let n := l.recs.length
  let d := if !l.threeQuarter && decide (786432 ≤ n) then
      ((d.modPart p (fun x => { x with ledger := { x.ledger with threeQuarter := true } })).partEvent p
        { EventRec.blank 0x0003 4 8 with d0 := ledgerSize - n }).queueEvents p 0x0003 (ledgerSize - n) 0
    else d
  if !l.full && decide (ledgerSize - ledgerReserved ≤ n) then
    ((d.modPart p (fun x => { x with ledger := { x.ledger with full := true } })).partEvent p
      (EventRec.blank 0x0004 4 8)).queueEvents p 0x0004 0 0
  else d

/-- Puts a record in the ring. -/
def Dev.ledgerPut (d : Dev) (p : Nat) (r : LedgerRec) : Dev :=
  (d.modPart p (fun x => { x with ledger := { x.ledger with recs := x.ledger.recs ++ [r] } })).ledgerLevels p

/-- Counts in a ledger counter, by its place in the counter block. -/
def Dev.ledgerCount (d : Dev) (p i n : Nat) : Dev :=
  d.modPart p (fun x => { x with ledger := { x.ledger with counters := Tab.bump x.ledger.counters i n } })

/-- The counter of a record kind: narrow, ceiling, layer, overrun, dup_lost, page. -/
def kindCounter : Nat → Nat
  | 1 => 1 | 2 => 2 | 3 => 4 | 4 => 5 | 5 => 6 | _ => 7

/-- Ledger staging of a cluster (R73). -/
def stagingSize : Nat := 256

/-- Whether the staging of a record's cluster has room. -/
def Ledger.stagingRoom (l : Ledger) (r : LedgerRec) : Bool :=
  decide ((l.staged.filter (fun x => clusterOfCore x.core == clusterOfCore r.core)).length < stagingSize)

/-- A record that finds only reserved entries: in staging, or held by its operation while staging is full (R73). -/
def Ledger.wait (l : Ledger) (r : LedgerRec) : Ledger :=
  if l.stagingRoom r then { l with staged := l.staged ++ [r] } else { l with held := l.held ++ [r] }

/-- Adds a record that is not OVERRUN: placed, or waiting when only reserved entries are free. -/
def Dev.ledgerAdd (d : Dev) (p : Nat) (r : LedgerRec) : Bool × Dev :=
  let d := d.ledgerCount p (kindCounter r.kind) 1
  let d := if r.kind = 2 ∧ bitOf (fieldOf r.detail 1 1) 0 then d.ledgerCount p 3 1 else d
  let l := (d.part p).ledger
  if l.recs.length < ledgerSize - ledgerReserved ∧ l.staged = [] then (true, d.ledgerPut p r)
  else
    (false, (d.modPart p (fun x => { x with ledger := x.ledger.wait r })).ledgerCount p 8 1)

/-- A record of operation `op` of a core: its common part, and a detail of 32 bytes. -/
def Dev.opRecord (d : Dev) (c kind word op debugTag : Nat) (detail : Bytes) : LedgerRec :=
  match d.coreRun c with
  | some (_, slot, st, _, _) => ⟨d.coreTc c, none, kind, slot, st, c, debugTag, word, op, detail⟩
  | none => ⟨d.now, none, kind, 0xFF, 0xFFFF, c, debugTag, word, op, detail⟩

/-! ## Die links on the way (R281, R284) -/

/-- The peer link that joins two compute dies. -/
def peerLink (a b : Nat) : Nat :=
  match min a b, max a b with
  | 0, 1 => 0
  | 0, 2 => 1
  | 0, 3 => 2
  | 1, 2 => 3
  | 1, 3 => 4
  | _, _ => 5

/-- The state of the way from one compute die to another: 0 up, 1 retraining, 2 down; a die reaches itself. -/
def Dev.wayState (d : Dev) (a b : Nat) : Nat := if a = b then 0 else (d.link (peerLink a b)).state

/-- Counts the payload that crosses from one compute die to another, by the link's direction. -/
def Dev.carried (d : Dev) (a b n : Nat) : Dev :=
  if a = b then d else d.modLink (peerLink a b) (fun x => { x with payload := Tab.bump x.payload (b2n (decide (a < b))) n })

/-! ## Order toward cluster memory (R60) -/

/-- Whether a transfer reads or writes cluster memory. -/
def Xfer.touchesCluster (x : Xfer) : Bool := x.srcSpace == 1 || x.dstSpace == 1

/-- Whether some descriptor of a core that has not started touches cluster memory: what the core sends to cluster
memory next leaves it later (R60). -/
def Core.clusterPending (k : Core) : Bool :=
  (k.descrs ++ k.dmaQ).any (fun y => !y.started && y.x.touchesCluster)

/-- The words of cluster memory that a read of `n` bytes at `off` finds, among some words (R52). -/
def wordsIn (ws : List Nat) (off n : Nat) : List Nat := ws.filter (fun x => decide (x * 8 < off + n) && decide (off < x * 8 + 8))

/-- Whether an operation waits in sync.wait: nothing issues past it (R60). -/
def Wait.isSync : Wait → Bool
  | .sync _ _ _ => true
  | _ => false

/-! ## Groups of col. operations (R106, R292) -/

/-- The members of a group as a core of a stage sees it; group 2 holds every core of the partition, all
of them in this pipeline (R292). -/
def Pipe.members (x : Pipe) (stage group : Nat) : List Nat :=
  if group = 0 then (match x.stages[stage]? with
    | some y => y.cores
    | none => [])
  else if group ≤ 2 then x.cores
  else x.groups.getD (group - 16) []

/-- Ends an operation of a window early: a result. Its condition stands: an hx. operation that waited has waited
(R80, R85). -/
def endEarly (st : Nat) (e : Issued) : Issued := { e with status := st, wait := .ready }

/-- The key under which a hub is held: level 0 clusters, 1 dies, 2 the root (R287). -/
def hubKey (level unit : Nat) : Nat := level * 256 + unit

/-- A group's key for its k-th operation; stage groups carry their stage. -/
def groupKey (stage group k : Nat) : Nat := ((if group = 0 then stage else 0) * 256 + group) * 2 ^ 32 + k

/-- Ends the k-th operation of a group early at every member, and for members that have yet to issue it
(R85, R291). -/
def Dev.endGroup (d : Dev) (p slot stage group k st : Nat) : Dev :=
  match Tab.find (d.part p).pipes slot with
  | none => d
  | some x =>
    let d := (x.members stage group).foldl (fun d c =>
      let kc := d.core c
      match kc.usnea.find? (fun u => u.group == group && u.k == k && !u.done) with
      | none => d
      | some u => d.setCore c { kc with
          usnea := kc.usnea.filter (fun v => v.id != u.id)
          window := kc.window.map (fun e => if e.id == u.id then endEarly st e else e) }) d
    d.modPart p (fun y => y.modPipe slot (fun x => x.modRun (fun r =>
      { r with aborted := Tab.put r.aborted (groupKey stage group k) st })))

/-- Completes the operations of a core that wait outside it (R85), with STALE or ABORTED. -/
def Dev.abandonWaits (d : Dev) (c st : Nat) : Dev :=
  let k := d.core c
  let window := k.window.map (fun e => match e.wait with
    | .sync _ _ _ => endEarly st e
    | .halo => endEarly st e
    | .recv _ _ => endEarly st e
    | _ => e)
  let d := d.setCore c { k with window := window }
  match k.run with
  | none => d
  | some (p, slot, stage) =>
    k.usnea.foldl (fun d u => if u.done then d else d.endGroup p slot stage u.group u.k st) d

/-! ## Stopping (R38, R66) -/

/-- A core whose window has emptied: one that stops takes the instant as its done stamp (R36), one that skipped
enters the new window (R37, R64), one that is held reports done (R46). -/
def Core.drained (k : Core) (t : Nat) : Core :=
  if !k.window.isEmpty then k
  else match k.phase with
    | .stopping => { k with done := some (k.done.getD t) }
    | .skipping => { k with phase := .running }
    | .holding => { k with phase := .atTick, done := some t, reported := false }
    | _ => k

/-- Stops a core: nothing more issues, and its waits end with ABORTED. -/
def Dev.stopCore (d : Dev) (c : Nat) : Dev :=
  let k := d.core c
  if k.phase = .idle then d
  else
    (d.setCore c ({ k with phase := .stopping }.drained (d.coreTc c))).abandonWaits c stAborted

/-- Stops every stage of a pipeline (R38). -/
def Dev.stopPipe (d : Dev) (p slot : Nat) : Dev :=
  match Tab.find (d.part p).pipes slot with
  | none => d
  | some x =>
    let d := d.modPart p (fun y => y.modPipe slot (fun x => x.modRun (fun r => { r with stopping := true })))
    x.cores.foldl (fun d c => d.stopCore c) d

/-- Stops a pipeline with DEVICE_FAULT where no operation of it has faulted (R76, R291). -/
def Dev.deviceStop (d : Dev) (p slot : Nat) : Dev :=
  (d.modPart p (fun y => y.modPipe slot (fun x => x.modRun (fun r => { r with stop := { r.stop with device := true } })))).stopPipe
    p slot

/-- Of two faults the earlier stamp is reported, then the lower core (R66). -/
def earlierFault (old : Option (Nat × Nat × CoreStatus)) (c st : Nat) (x : CoreStatus) :
    Option (Nat × Nat × CoreStatus) :=
  match old with
  | none => some (c, st, x)
  | some o =>
    if x.stamp < o.2.2.stamp ∨ (x.stamp = o.2.2.stamp ∧ c < o.1) then some (c, st, x) else old

/-- Once the issued operations of a core with a fault have completed, the status record is written (R66): an event
record, the suspect mark of the core's cluster (R78), and the pipeline stops. -/
def Dev.writeFault (d : Dev) (c : Nat) : Dev :=
  let k := d.core c
  match k.run, k.fault with
  | some (p, slot, stage), some x =>
    if !k.window.isEmpty then d
    else
      let d := (d.modCore c (fun k => { k with stat := x, fault := none })).modCluster (clusterOfCore c)
        (fun y => { y with suspect := true })
      let d := d.partEvent p { EventRec.blank 0x0100 2 0 with
        status := x.status, unit := clusterOfCore c, core := c, word := x.word, debugTag := x.debugTag, d0 := slot * 64 + stage }
      let d := d.modPart p (fun y => y.modPipe slot (fun x' => x'.modRun (fun r =>
        { r with stop := { r.stop with fault := earlierFault r.stop.fault c x.status x } })))
      d.stopPipe p slot
  | _, _ => d

/-- An operation of a core faults (R66): the sequencer stops issuing and lets the issued operations complete. The first
fault of a core is the one that is recorded. -/
def Dev.faultCore (d : Dev) (c st word debugTag : Nat) : Dev :=
  match (d.core c).run with
  | none => d
  | some _ =>
    let x : CoreStatus := ⟨st, word, debugTag, d.coreTc c⟩
    ((d.modCore c (fun k => { k with fault := some (k.fault.getD x) })).stopCore c).writeFault c

/-! ## Issue -/

/-- Retires a word at issue. -/
def Core.retire (k : Core) : Core := { k with pc := k.pc + 1 }

/-- Puts the word at the program counter in the window. -/
def Dev.pushOp (d : Dev) (c : Nat) (w : Bytes) (status : Nat) (cond : Bool) (wait : Wait) : Dev :=
  let k := d.core c
  d.setCore c { k with
    window := k.window ++ [⟨k.nextId, k.pc, w, footOf k.aregs w, status, cond, wait, d.now⟩]
    nextId := k.nextId + 1
    pc := k.pc + 1 }

/-- The tests every word passes before it issues: the sequencer runs, the word is of the class and op,
its guard is known, it is not predicated off, the window has room, fence and hazards let it go. `ctl` says
that the word takes no slot. -/
inductive Issuing where
  | no
  | off
  | go (w : Bytes)
  | bad (w : Bytes) (st : Nat)
  deriving DecidableEq, Repr

/-- Decides the issue of the word at a core's program counter (R58, R59, R63, R83). A core that has failed, and an
operation that reads a scratchpad word ECC cannot correct, give DEVICE_FAULT (R52, R78); an operation reads the lines
of its read set. -/
def Dev.issuing (d : Dev) (c cls op : Nat) : Issuing :=
  let k := d.core c
  let w := k.wordAt k.pc
  if k.phase ≠ .running ∨ k.words ≤ k.pc then .no
  else if opClass w ≠ cls ∨ opCode w ≠ op then .no
  else if guardPending k w then .no
  else if !k.guardOn w then .off
  else if cls ≠ 12 ∧ 32 ≤ k.window.length then .no
  else if opFence w && !k.window.isEmpty then .no
  else if k.window.any (fun e => hazard (footOf k.aregs w) e.foot) then .no
  else if k.window.any (fun e => e.wait.isSync) then .no
  else if k.faulted || k.bad.any (inSpans (footOf k.aregs w).rd) then .bad w stDeviceFault
  else match checkWord (d.checkEnv c) w with
    | some f => .bad w f.1
    | none => .go w

/-- Issues the word at a core's program counter as an operation of a class, its effect being `act`. -/
def Dev.issue (d : Dev) (c cls op : Nat) (act : Bytes → Dev → Dev) : Dev :=
  match d.issuing c cls op with
  | .no => d
  | .off => d.modCore c Core.retire
  | .bad w st => d.faultCore c st (d.core c).pc (opDebugTag w)
  | .go w => act w d

/-- The outcome of an operation row: the core exists, and the module runs. -/
def onCore (c : Nat) (s : State) (f : Dev → Dev) : Host.Outcome State Fault Refusal :=
  onUnit (decide (c < 256)) (whenUp s f)

/-- The outcome of an operation's issue. -/
def issueOn (c cls op : Nat) (s : State) (act : Bytes → Dev → Dev) : Host.Outcome State Fault Refusal :=
  onCore c s (fun d => d.issue c cls op act)

/-- An operation that is empty (R84, R203): it completes at once, writes nothing, stores false. -/
def Dev.pushEmpty (d : Dev) (c : Nat) (w : Bytes) : Dev := d.pushOp c w stOK false .ready

/-! ## Completion (R61, R65) -/

/-- Whether a status is a result of an operation rather than a fault (R65, R85). -/
def isResult (cls op st : Nat) : Bool :=
  st == stOK ||
  (cls == 1 && st == stQuality) ||
  (cls == 9 && op == 1 && (st == stBusy || st == stNoSpace || st == stLength || st == stSuspended)) ||
  (((cls == 6 && op == 2) || (cls == 9 && op == 3)) && st == stSuspended) ||
  (((cls == 11 && op == 3) || (cls == 8 && op ≤ 2) || (cls == 10 && 2 ≤ op)) && (st == stStale || st == stAborted))

/-- Whether a class has a unit that runs one operation at a time, in order (R61). -/
def inOrderClass (cls : Nat) : Bool := decide (1 ≤ cls) && decide (cls ≤ 5)

/-- Whether an operation is one of core DMA (R199). -/
def Issued.isDma (e : Issued) : Bool := opClass e.bytes == 6 || opClass e.bytes == 8

/-- Whether the sequencer cannot issue because operation `e` has not completed: a hazard, a fence, the end of the
window's words, or a sync.wait on its tag (R199). -/
def Core.heldBy (k : Core) (e : Issued) : Bool :=
  let w := k.wordAt k.pc
  k.phase == .running &&
    (decide (k.words ≤ k.pc) || opFence w || (opClass w == 11 && decide (opCode w ≤ 2)) || hazard (footOf k.aregs w) e.foot ||
      k.window.any (fun x => match x.wait with
        | .sync 0 id _ => id == e.id
        | _ => false))

/-- From when a wait of the sequencer counts: its last issue, or what was counted already. -/
def Core.stalledFrom (k : Core) : Nat := k.window.foldl (fun t e => max t e.at_) k.stallFrom

/-- A core at the completion of operation `e`: the time that core DMA held the sequencer counts as stream_tc (R199). -/
def Core.unstalled (k : Core) (e : Issued) (now : Nat) : Core :=
  if e.isDma && k.heldBy e then
    { k with stallFrom := now, causes := { k.causes with stream := k.causes.stream + (now - k.stalledFrom) } }
  else k

/-- What an operation that completes leaves of the words it read and wrote (R52). -/
def Core.eccAfter (k : Core) (e : Issued) : Core :=
  let k := k.corrected e.foot.rd
  if decide (opClass e.bytes ≤ 6) || opClass e.bytes == 8 then k.rewritten e.foot.wr else k

/-- Completes the operation at a place of a core's window: a result stores its condition and frees the
slot, anything else faults (R65, R66). -/
def Dev.completeOp (d : Dev) (c i : Nat) : Dev :=
  let k := d.core c
  match k.window[i]? with
  | none => d
  | some e =>
    let cls := opClass e.bytes
    if e.wait ≠ .ready then d
    else if inOrderClass cls && (k.window.take i).any (fun x => opClass x.bytes == cls) then d
    else
      let k0 := k.unstalled e d.now
      let k1 := { k0 with window := k0.window.eraseIdx i, usnea := k0.usnea.filter (fun u => u.id != e.id) }.drained (d.coreTc c)
      if isResult cls (opCode e.bytes) e.status then (d.setCore c ((k1.eccAfter e).storeCond e.bytes e.cond)).writeFault c
      else (d.setCore c k1).faultCore c e.status e.word (opDebugTag e.bytes)

/-- Sets the outcome of an operation of the window and lets it complete. -/
def Dev.settle (d : Dev) (c id status : Nat) (cond : Bool) : Dev :=
  d.modCore c (fun k => { k with window := k.window.map (fun e =>
    if e.id == id then { e with status := status, cond := cond, wait := .ready } else e) })

/-- Changes what an operation of the window waits for. -/
def Dev.setWait (d : Dev) (c id : Nat) (x : Wait) : Dev :=
  d.modCore c (fun k => { k with window := k.window.map (fun e => if e.id == id then { e with wait := x } else e) })

/-- Faults the word at a core's program counter at its issue. -/
def Dev.faultAt (d : Dev) (c : Nat) (w : Bytes) (st : Nat) : Dev := d.faultCore c st (d.core c).pc (opDebugTag w)

/-- The partition a core runs in. -/
def Dev.corePart (d : Dev) (c : Nat) : Nat := ((d.core c).run.map (·.1)).getD 0

/-- Counts bytes of a stream that came after their deadlines (R199): of the bytes whose deadline has passed, a free
number, since nothing says when each request came. -/
def Dev.lateBytes (d : Dev) (c stream most : Nat) : Dev :=
  if most = 0 then d
  else
    let q := d.draw
    let late := q.1 % (most + 1)
    (q.2.modCore c (fun k =>
      let s := Tab.getD k.streams stream ⟨0, 0, 0⟩
      { k with streams := Tab.put k.streams stream { s with late := satAdd s.late late } })).count (d.corePart c) 15 late

/-- The bytes of a col.send that completes after its issue stamp, which is the deadline of its requests on stream 254
(R199, R299). -/
def Issued.sendLate (e : Issued) (now : Nat) : Nat :=
  if opClass e.bytes = 10 ∧ opCode e.bytes = 1 ∧ e.status = stOK ∧ e.at_ < now then fieldOf e.bytes 32 4 else 0

/-- The identity the next issued operation of a core takes. -/
def Dev.nextOp (d : Dev) (c : Nat) : Nat := (d.core c).nextId

end Sys2Proof.Machine
end

