-- ==== Sys2Proof/Machine/Quant.lean ====
section
/-!
DEFINITION. The quantize unit: block and row scales, rounding, clipping and block statistics
(R113 to R117), reconstruction of block formats, and the packing of elements (R111).
-/

namespace Sys2Proof.Machine

/-! ## Packed elements -/

/-- The bytes `[a, a + n)` of a memory as an array of numbers. -/
def Mem.arr (m : Mem) (a n : Nat) : Array Nat :=
  m.foldl (fun acc e => if a ≤ e.1 ∧ e.1 < a + n then acc.setIfInBounds (e.1 - a) e.2.toNat else acc)
    (Array.replicate n 0)

/-- Element `i`, `w` bits wide, of the bit string that starts at a byte (R111). -/
def bitsAt (a : Array Nat) (base w i : Nat) : Nat :=
  let p := w * i
  let b := base + p / 8
  let v := a.getD b 0 + 256 * a.getD (b + 1) 0 + 65536 * a.getD (b + 2) 0 + 16777216 * a.getD (b + 3) 0
  (v / 2 ^ (p % 8)) % 2 ^ w

/-- A little-endian number in an array of bytes. -/
def natAt (a : Array Nat) (base n : Nat) : Nat :=
  (List.range n).foldr (fun i acc => a.getD (base + i) 0 + 256 * acc) 0

/-- Packs the codes of narrow elements, four at a time. -/
def packNarrow (w : Nat) : List Nat → Bytes
  | c0 :: c1 :: c2 :: c3 :: cs =>
    natLE (w / 2) (c0 + 2 ^ w * (c1 + 2 ^ w * (c2 + 2 ^ w * c3))) ++ packNarrow w cs
  | [] => []
  | cs => natLE (ceilDiv (cs.length * w) 8) (cs.foldr (fun c acc => c + 2 ^ w * acc) 0)

/-- Packs element codes little-endian (R111). -/
def packCodes (w : Nat) (cs : List Nat) : Bytes :=
  if w < 8 then packNarrow w cs else cs.flatMap (fun c => natLE (w / 8) c)

/-! ## Rounding to element grids -/

/-- The exponent of an element format's largest power of two (R113). -/
def emaxOf (f : Nat) : Int :=
  match f with
  | 0x01 => 2 | 0x02 => 2 | 0x03 => 4 | 0x04 => 8 | 0x05 => 15
  | _ => 0

/-- The largest finite magnitude of an element format. -/
def maxElem (f : Nat) : Val :=
  match f with
  | 0x06 => .fin false 127 (-6)
  | 0x0E => vNat 7
  | _ => let ff := floatFmt f; let p := ff.magOf ff.maxCode; .fin false p.1 p.2

/-- The grid value nearest to a finite value, ties to the even code, without an upper limit. -/
def gridNear (f : Nat) (v : Val) : Val :=
  match v with
  | .fin neg m e =>
    if f = 0x06 ∨ f = 0x0E then
      let place : Int := if f = 0x06 then -6 else 0
      let r := roundMag 4096 place .near neg m e
      .fin neg r.1 r.2
    else
      let ff := floatFmt f
      let r := roundMag (ff.mb + 1) ff.emin .near neg m e
      .fin neg r.1 r.2
  | v => v

/-- The code of a grid value no larger than the largest. -/
def gridCode (f : Nat) (v : Val) : Nat :=
  match v with
  | .fin neg m e =>
    if f = 0x06 ∨ f = 0x0E then
      let place : Int := if f = 0x06 then -6 else 0
      let n := if f = 0x06 then 8 else 4
      let k : Nat := if place ≤ e then m * 2 ^ (e - place).toNat else m / 2 ^ (place - e).toNat
      if neg then (2 ^ n - k) % 2 ^ n else k
    else (floatFmt f).round .near true 0 v
  | _ => 0

/-- Rounds one scaled element: its grid value, clipped symmetrically, and whether it clipped. -/
def quantElem (f : Nat) (v : Val) : Val × Bool :=
  let g := gridNear f v
  let mx := maxElem f
  if mx.lt g.abs then (if v.isNeg then mx.neg else mx, true) else (g, false)

/-- The largest magnitude of a list. -/
def maxMag (vs : List Val) : Val := vs.foldl (fun a v => if a.lt v.abs then v.abs else a) (vZero false)

/-- FP16 rounded up, as R115 records statistics. -/
def up16 (v : Val) : Nat := fFP16.round .up false fFP16.nanCode v

/-- FP16 +∞. -/
def inf16 : Nat := 0x7C00

/-- One quantized block: scale code, element codes, m, r, and whether an element clipped. -/
structure QBlock where
  scale : Nat
  codes : List Nat
  m : Nat
  r : Nat
  clipped : Bool
  deriving DecidableEq, Repr

/-- A block that holds a NaN or an infinity (R115). -/
def QBlock.bad (n : Nat) : QBlock := ⟨0xFF, List.replicate n 0, inf16, inf16, false⟩

/-- The exponent an MX block takes (R113 steps 1 to 3). -/
def mxExp (f : Nat) (amax : Val) : Int :=
  match amax with
  | .fin _ m e =>
    let e0 := floorLog2 m e - emaxOf f
    let e1 := if (maxElem f).lt (gridNear f (amax.shift (-e0))) then e0 + 1 else e0
    max (-127) (min 127 e1)
  | _ => 0

/-- Quantizes one block to an MX format (R113, R115). -/
def quantMx (f : Nat) (vs : List Val) : QBlock :=
  if vs.any (fun v => !v.isFin) then QBlock.bad vs.length
  else
    let amax := maxMag vs
    if amax.isZero then ⟨0, List.replicate vs.length 0, 0, 0, false⟩
    else
      let e := mxExp f amax
      let sc := vs.map (fun v => v.shift (-e))
      let qs := sc.map (quantElem f)
      let m := maxMag (qs.map (·.1))
      let r := maxMag ((sc.zip qs).map (fun p => Val.add .near p.1 p.2.1.neg))
      ⟨(e + 127).toNat, qs.map (fun q => gridCode f q.1), up16 m, up16 r, qs.any (·.2)⟩

/-- The row scale computed for a VB4 row (R114). -/
def vb4RowScale (f : Nat) (row : List Val) : Nat :=
  let amax := maxMag row
  if amax.isZero then one32 else r32 .near (amax.div (vNat (if f = 0x0D then 1536 else 1792)))

/-- Whether an FP32 row scale is a finite positive value. -/
def okRowScale (c : Nat) : Bool :=
  match d32 c with
  | .fin neg m _ => !neg && m != 0
  | _ => false

/-- The smallest UE5M3 code whose value times `den` reaches `amax`, up to 0xFE (R114). -/
def vb4Scale (amax den : Val) : Nat :=
  ((List.range 0xFF).find? (fun c => amax.le ((ue5m3 c).mul den))).getD 0xFE

/-- Quantizes one block of 16 of a VB4 row of scale `s`: scale code, codes, s_blk × q, residuals in row
units, clipped. A block that holds a NaN or an infinity answers none. -/
def quantVb4 (f : Nat) (s : Val) (vs : List Val) : Option (Nat × List Nat × List Val × List Val × Bool) :=
  if vs.any (fun v => !v.isFin) then none
  else
    let amax := maxMag vs
    let top := vNat (if f = 0x0D then 6 else 7)
    let c := if amax.isZero then 0 else vb4Scale amax (top.mul s)
    let sb := ue5m3 c
    if c = 0 then some (0, List.replicate vs.length 0, [vZero false], vs.map (fun v => v.div s), false)
    else
      let qs := vs.map (fun v => quantElem f (v.div (s.mul sb)))
      let sq := qs.map (fun q => sb.mul q.1)
      let rs := (vs.zip sq).map (fun p => Val.add .near (p.1.div s) p.2.neg)
      some (c, qs.map (fun q => gridCode f q.1), sq, rs, qs.any (·.2))

/-- Splits a list into pieces of `n`. -/
def chunks {α : Type} (n : Nat) (fuel : Nat) (l : List α) : List (List α) :=
  match fuel with
  | 0 => []
  | fuel + 1 => if l.isEmpty then [] else l.take n :: chunks n fuel (l.drop n)

/-- What the quantize unit writes for one row: element codes, scale bytes, statistics, row scale, clip. -/
structure QRow where
  codes : List Nat
  scales : List Nat
  stats : List (Nat × Nat)
  rowScale : Nat
  clipped : Bool
  deriving DecidableEq, Repr

/-- One row to an MX format. -/
def quantMxRow (f : Nat) (row : List Val) : QRow :=
  let bs := (chunks 32 (row.length + 1) row).map (quantMx f)
  ⟨bs.flatMap (·.codes), bs.map (·.scale), bs.map (fun b => (b.m, b.r)), 0, bs.any (·.clipped)⟩

/-- One row to a VB4 format, with a supplied row scale or a computed one (R114, R115). -/
def quantVb4Row (f : Nat) (supplied : Option Nat) (row : List Val) : QRow :=
  let allFin := row.all (·.isFin)
  let sc := match supplied with
    | some c => c
    | none => if allFin then vb4RowScale f row else qnan32
  if !okRowScale sc then
    let n := row.length
    ⟨List.replicate n 0, List.replicate (ceilDiv n 16) 0xFF, List.replicate (ceilDiv n 64) (inf16, inf16),
     qnan32, true⟩
  else
    let bs := (chunks 16 (row.length + 1) row).map (fun b => (b.length, quantVb4 f (d32 sc) b))
    let groups := chunks 4 (bs.length + 1) bs
    let stat := fun (g : List (Nat × Option (Nat × List Nat × List Val × List Val × Bool))) =>
      if g.any (fun b => b.2.isNone) then (inf16, inf16)
      else (up16 (maxMag (g.flatMap (fun b => (b.2.map (·.2.2.1)).getD []))),
            up16 (maxMag (g.flatMap (fun b => (b.2.map (·.2.2.2.1)).getD []))))
    ⟨bs.flatMap (fun b => match b.2 with
        | some q => q.2.1
        | none => List.replicate b.1 0),
     bs.map (fun b => match b.2 with
        | some q => q.1
        | none => 0xFF),
     groups.map stat, sc,
     bs.any (fun b => match b.2 with
        | some q => q.2.2.2.2
        | none => false)⟩

/-- One element to a plain format, and whether it counts as a clip (R116). -/
def quantPlain (f : Nat) (v : Val) : Nat × Bool :=
  if f = 0x0B ∨ f = 0x0C then
    let n := if f = 0x0B then 4 else 8
    let hi : Int := 2 ^ (n - 1) - 1
    let lo : Int := -2 ^ (n - 1)
    let enc := fun (i : Int) => (if 0 ≤ i then i else i + 2 ^ n).toNat
    match v with
    | .nan => (0, true)
    | .inf neg => (enc (if neg then lo else hi), true)
    | .fin neg m e =>
      let r := roundMag 4096 0 .near neg m e
      let k : Int := if neg then -(r.1 * 2 ^ r.2.toNat : Nat) else (r.1 * 2 ^ r.2.toNat : Nat)
      if hi < k then (enc hi, true) else if k < lo then (enc lo, true) else (enc k, false)
  else
    let ff := floatFmt f
    match v with
    | .nan => (ff.nanCode, false)
    | .inf neg => (ff.signBit neg + ff.maxCode, true)
    | .fin neg m e =>
      let r := roundMag (ff.mb + 1) ff.emin .near neg m e
      (ff.round .near true ff.nanCode v, decide (ff.maxCode < ff.codeOf r.1 r.2))

/-! ## Reading block formats -/

/-- The scaled value of an element of a block-format row: element × scale × row scale. -/
def blockVal (f elem scale rowScale : Nat) : Val :=
  if fmtVb4 f then (d32 rowScale).mul ((ue5m3 scale).mul (elemVal f elem))
  else (e8m0 scale).mul (elemVal f elem)

end Sys2Proof.Machine
end

