-- ==== Sys2Proof/Machine/Vector.lean ====
section
/-!
DEFINITION. qz. and vx. operations (R84, R91, R92, R113 to R116, R431).
-/

namespace Sys2Proof.Machine

/-! ## Element areas (R84) -/

/-- The element codes of one row of an area held as bytes. -/
def rowCodes (a : Array Nat) (f pitch r n : Nat) : List Nat :=
  (List.range n).map (fun i => bitsAt a (r * pitch * 128) (fmtBits f) i)

/-- Writes rows of codes at a pitch. -/
def writeRows (m : Mem) (off f pitch : Nat) (rows : List (List Nat)) : Mem :=
  rows.zipIdx.foldl (fun m r => Mem.write m (off + r.2 * pitch * 128) (packCodes (fmtBits f) r.1)) m

/-- The effective offset of the sp_ref at byte `b` of a word issued on a core. -/
def Core.ref (k : Core) (w : Bytes) (b : Nat) : Nat := spAt k.aregs (fieldOf w b 4)
/-- Whether the sp_ref at byte `b` names an area. -/
def hasRef (w : Bytes) (b : Nat) : Bool := !spAbsent (fieldOf w b 4)

/-- An operation of a unit that writes only the scratchpad: the scratchpad after it and its condition. -/
def Dev.unitOp (d : Dev) (c : Nat) (w : Bytes) (empty : Bool) (f : Core → Mem × Bool) : Dev :=
  if empty then d.pushEmpty c w
  else
    let r := f (d.core c)
    (d.modCore c (fun k => { k with sp := r.1 })).pushOp c w stOK r.2 .ready

/-! ## qz. -/

/-- The planes that follow the elements of a block-format row set: scales, statistics, row scales (R431). -/
def writeBlockPlanes (m : Mem) (off f pitch n : Nat) (rows : List QRow) : Mem :=
  let p := blockPlanes f rows.length n pitch
  let m := writeRows m off f pitch (rows.map (·.codes))
  let m := Mem.write m (off + p.1) (rows.flatMap (fun r => r.scales.flatMap (natLE 1)))
  let m := Mem.write m (off + p.2.1) (rows.flatMap (fun r => r.stats.flatMap (fun s => natLE 2 s.1 ++ natLE 2 s.2)))
  if fmtVb4 f then Mem.write m (off + p.2.2.1) (rows.flatMap (fun r => natLE 4 r.rowScale)) else m

/-- qz.quant on a core's scratchpad. -/
def quantArea (k : Core) (w : Bytes) : Mem × Bool :=
  let rows := fieldOf w 28 2
  let n := fieldOf w 30 2
  let sf := fieldOf w 36 1
  let df := fieldOf w 37 1
  let a := Mem.arr k.sp (k.ref w 16) (areaBytes sf rows n (fieldOf w 32 2) + 4)
  let scales := Mem.arr k.sp (k.ref w 24) (4 * rows)
  let vals := fun r => (rowCodes a sf (fieldOf w 32 2) r n).map (elemVal sf)
  if fmtBlock df then
    let q := (List.range rows).map (fun r =>
      if fmtVb4 df then quantVb4Row df (if hasRef w 24 then some (natAt scales (4 * r) 4) else none) (vals r)
      else quantMxRow df (vals r))
    (writeBlockPlanes k.sp (k.ref w 20) df (fieldOf w 34 2) n q, q.any (·.clipped))
  else
    let q := (List.range rows).map (fun r => (vals r).map (quantPlain df))
    (writeRows k.sp (k.ref w 20) df (fieldOf w 34 2) (q.map (fun r => r.map (·.1))), q.any (fun r => r.any (·.2)))

/-- qz.dequant on a core's scratchpad. The exact product of element, block scale and row scale is rounded once to the
destination format (DESIGN CHOICE, log 152: a VB4 product need not be representable in FP32, where R91 has it
reconstructed). -/
def dequantArea (k : Core) (w : Bytes) : Mem × Bool :=
  let rows := fieldOf w 28 2
  let n := fieldOf w 30 2
  let sf := fieldOf w 36 1
  let df := fieldOf w 37 1
  let sp := fieldOf w 32 2
  let p := blockPlanes sf rows n sp
  let a := Mem.arr k.sp (k.ref w 16) (p.2.2.2 + 4)
  let per := if fmtVb4 sf then ceilDiv n 16 else ceilDiv n 32
  let grain := if fmtVb4 sf then 16 else 32
  let ff := floatFmt df
  let out := (List.range rows).map (fun r =>
    (rowCodes a sf sp r n).zipIdx.map (fun e =>
      ff.round .near false ff.nanCode
        (blockVal sf e.1 (a.getD (p.1 + r * per + e.2 / grain) 0) (natAt a (p.2.2.1 + 4 * r) 4))))
  (writeRows k.sp (k.ref w 20) df (fieldOf w 34 2) out, false)

/-- Whether a qz., sf. or rs. word is empty (R84). -/
def emptyRows (w : Bytes) : Bool := fieldOf w 28 2 == 0 || fieldOf w 30 2 == 0

/-- QZ_QUANT. -/
def execQzQuant (c : Nat) (s : State) : Host.Outcome State Fault Refusal :=
  issueOn c 2 1 s (fun w d => if (d.core c).climb.isSome then d else d.unitOp c w (emptyRows w) (fun k => quantArea k w))

/-- QZ_DEQUANT. -/
def execQzDequant (c : Nat) (s : State) : Host.Outcome State Fault Refusal :=
  issueOn c 2 2 s (fun w d => if (d.core c).climb.isSome then d else d.unitOp c w (emptyRows w) (fun k => dequantArea k w))

/-! ## vx. -/

/-- The larger of two values: the other one when exactly one is NaN (R92). -/
def vmax (a b : Val) : Val :=
  if a.isNan then b else if b.isNan then a
  else if a.isZero && b.isZero && a.isNeg != b.isNeg then vZero Config.maxZeroNeg
  else if a.lt b then b else a

/-- The smaller of two values. -/
def vmin (a b : Val) : Val := (vmax a.neg b.neg).neg

/-- The exact result of a vector function before its rounding to FP32. -/
def vxExact (func : Nat) (x y z : Val) : Val :=
  match func with
  | 0 => Val.add .near x y
  | 1 => Val.add .near x y.neg
  | 2 => x.mul y
  | 3 => Val.add .near (x.mul y) z
  | 4 => vmax x y
  | 5 => vmin x y
  | 6 => x
  | 7 => x.abs
  | _ => x.neg

/-- A result in d_fmt: rounded to FP32, then to d_fmt; under sat an out-of-range result takes the largest
finite magnitude (R92). An infinite result of an infinite operand stays infinite under sat, and without sat a result
that FP8 E4M3, which has no infinity, cannot hold is written as its largest magnitude and counts as finite (DESIGN
CHOICE, log 153: R92 states neither). -/
def vxRound (df : Nat) (sat : Bool) (v : Val) : Nat :=
  let ff := floatFmt df
  let f := d32 (r32 .near v)
  if sat && v.isFin then
    match f with
    | .inf neg => ff.signBit neg + ff.maxCode
    | f => ff.round .near true ff.nanCode f
  else ff.round .near false ff.nanCode f

/-- vx.ew, vx.row, vx.col and vx.fill on a core's scratchpad. -/
def vxArea (op : Nat) (k : Core) (w : Bytes) : Mem × Bool :=
  let rows := fieldOf w 32 2
  let n := fieldOf w 34 2
  let xp := fieldOf w 36 2
  let xf := fieldOf w 40 1
  let yf := fieldOf w 41 1
  let zf := fieldOf w 42 1
  let df := fieldOf w 43 1
  let func := fieldOf w 44 1
  let sat := bitOf (fieldOf w 45 1) 0
  let imm := d32 (fieldOf w 48 4)
  let ff := floatFmt df
  let side := fun f => if op = 1 then areaBytes f rows n xp else if op = 2 then rowBytes f rows else rowBytes f n
  let ax := Mem.arr k.sp (k.ref w 16) (if op = 4 then 0 else areaBytes xf rows n xp + 4)
  let ay := Mem.arr k.sp (k.ref w 20) (if op = 4 then 0 else side yf + 4)
  let az := Mem.arr k.sp (k.ref w 24) (if op ≠ 4 ∧ func = 3 then side zf + 4 else 0)
  let pick := fun (a : Array Nat) f r i =>
    elemVal f (if op = 1 then bitsAt a (r * xp * 128) (fmtBits f) i
      else if op = 2 then bitsAt a 0 (fmtBits f) r else bitsAt a 0 (fmtBits f) i)
  let out := (List.range rows).map (fun r => (List.range n).map (fun i =>
    let v := if op = 4 then imm
      else vxExact func (elemVal xf (bitsAt ax (r * xp * 128) (fmtBits xf) i))
        (if hasRef w 20 then pick ay yf r i else imm) (pick az zf r i)
    vxRound df sat v))
  (writeRows k.sp (k.ref w 28) df (fieldOf w 38 2) out,
   op != 4 && out.any (fun r => r.any (fun c => !(ff.decode c).isFin)))

/-- Whether a vx. word is empty (R84). -/
def emptyVx (w : Bytes) : Bool := fieldOf w 32 2 == 0 || fieldOf w 34 2 == 0

/-- VX_EW. -/
def execVxEw (c : Nat) (s : State) : Host.Outcome State Fault Refusal :=
  issueOn c 3 1 s (fun w d => d.unitOp c w (emptyVx w) (fun k => vxArea 1 k w))

/-- VX_ROW. -/
def execVxRow (c : Nat) (s : State) : Host.Outcome State Fault Refusal :=
  issueOn c 3 2 s (fun w d => d.unitOp c w (emptyVx w) (fun k => vxArea 2 k w))

/-- VX_COL. -/
def execVxCol (c : Nat) (s : State) : Host.Outcome State Fault Refusal :=
  issueOn c 3 3 s (fun w d => d.unitOp c w (emptyVx w) (fun k => vxArea 3 k w))

/-- VX_FILL. -/
def execVxFill (c : Nat) (s : State) : Host.Outcome State Fault Refusal :=
  issueOn c 3 4 s (fun w d => d.unitOp c w (emptyVx w) (fun k => vxArea 4 k w))

end Sys2Proof.Machine
end

