-- ==== Sys2Proof/Machine/Sync.lean ====
section
/-!
DEFINITION. sync. operations (R33, R46, R62, R67, R107) and the done report on its way to the tick
generator (R33, R42).
-/

namespace Sys2Proof.Machine

/-- Takes the done stamp of a core for the window, once (R33, R62). -/
def Core.takeDone (k : Core) (t : Nat) : Core :=
  match k.done with
  | some _ => k
  | none => { k with done := some t, reported := false }

/-- SYNC_DONE: with an empty window it takes the done stamp; layer_end marks the layer end of a pipeline
in drain mode, with the first report of the window only. -/
def execSyncDone (c : Nat) (s : State) : Host.Outcome State Fault Refusal :=
  issueOn c 11 1 s (fun w d =>
    if !(d.core c).window.isEmpty then d
    else
      let first := (d.core c).done.isNone
      let drain := match d.coreRun c with
        | some (_, _, _, x, _) => x.drain
        | none => false
      d.modCore c (fun k =>
        { (k.takeDone (d.coreTc c)).retire with
          layerEnd := k.layerEnd || (first && drain && bitOf (fieldOf w 16 1) 0) }))

/-- Waits for the release with the program counter at `pc` (R33). -/
def Core.toTick (k : Core) (t pc : Nat) : Core := { k.takeDone t with phase := .atTick, pc := pc }

/-- SYNC_TICK: with an empty window the core reports done if it has not and waits for the release. Past the
last word the sequencer acts as on sync.tick and then goes to window_entry (R54). -/
def execSyncTick (c : Nat) (s : State) : Host.Outcome State Fault Refusal :=
  onCore c s (fun d =>
    let k := d.core c
    if k.phase = .running ∧ k.words ≤ k.pc then
      if k.window.isEmpty then d.modCore c (fun k => k.toTick (d.coreTc c) k.windowEntry) else d
    else d.issue c 11 2 (fun _ d =>
      if (d.core c).window.isEmpty then d.modCore c (fun k => k.toTick (d.coreTc c) (k.pc + 1)) else d))

/-- The threshold test of sync.wait: mode 0 by the operation's place in the window, mode 1 a credit counter
of the core's own cluster, mode 2 a word of cluster memory, read after what the core sent there before (R60, R67,
R107). -/
def Dev.waitMet (d : Dev) (c mode idx value : Nat) : Bool :=
  match mode with
  | 0 => !(d.core c).window.any (fun e => e.id == idx)
  | 1 => decide (value ≤ Tab.getD (d.cluster (clusterOfCore c)).credit idx 0)
  | _ => !(d.core c).clusterPending && decide (value ≤ Mem.nat (d.cluster (idx / 2 ^ 25)).mem (idx % 2 ^ 25) 8)

/-- The mode, index and threshold that a sync.wait word names; `none` when it waits for nothing. -/
def Core.waitOf (k : Core) (w : Bytes) : Option (Nat × Nat × Nat) :=
  match bitsOf (fieldOf w 16 1) 1 0 with
  | 0 =>
    let tag := fieldOf w 18 2
    if tag = 0 then none
    else ((k.window.filter (fun e => opTag e.bytes == tag)).getLast?).map (fun e => (0, e.id, 0))
  | 1 => some (1, fieldOf w 18 2, fieldOf w 24 8)
  | _ =>
    let e := endpoint 1 (fieldOf w 32 8) 0
    some (2, e.cluster * 2 ^ 25 + e.addr, fieldOf w 24 8)

/-- The die that a sync.wait reads over a link. -/
def waitDie (c mode idx : Nat) : Nat := if mode = 2 then idx / 2 ^ 25 / 8 else dieOfCore c

/-- What the way and the word of a sync.wait allow: 0 a test, 1 a wait for a link that retrains (R283), 2 no result
any more: the link is down (R284), or ECC cannot correct the word (R52). -/
def Dev.waitWay (d : Dev) (c mode idx : Nat) : Nat :=
  if mode == 2 && !(wordsIn (d.cluster (idx / 2 ^ 25)).bad (idx % 2 ^ 25) 8).isEmpty then 2
  else d.wayState (dieOfCore c) (waitDie c mode idx)

/-- SYNC_WAIT. -/
def execSyncWait (c : Nat) (s : State) : Host.Outcome State Fault Refusal :=
  issueOn c 11 3 s (fun w d =>
    match (d.core c).waitOf w with
    | none => d.pushOp c w stOK false .ready
    | some (mode, idx, value) =>
      if d.waitWay c mode idx = 2 then d.pushOp c w stDeviceFault false .ready
      else if d.waitWay c mode idx = 0 ∧ d.waitMet c mode idx value then d.pushOp c w stOK false .ready
      else d.pushOp c w stOK false (.sync mode idx value))

/-- The status with which a waiting sync.wait ends now, if it does. -/
def Dev.waitEnds (d : Dev) (c : Nat) (e : Issued) : Option Nat :=
  match e.wait with
  | .sync mode idx value =>
    if d.waitWay c mode idx = 2 then some stDeviceFault
    else if d.waitWay c mode idx = 0 ∧ d.waitMet c mode idx value then some stOK
    else none
  | _ => none

/-- SYNC_WAIT_SATISFIED: the first waiting sync.wait whose test is met becomes ready. -/
def execSyncWaitSatisfied (c : Nat) (s : State) : Host.Outcome State Fault Refusal :=
  onCore c s (fun d =>
    match (d.core c).window.findSome? (fun e => (d.waitEnds c e).map (fun st => (e.id, st))) with
    | some (id, st) => d.settle c id st false
    | none => d)

/-- SYNC_TIME: the tick replica's stamp and the window index. -/
def execSyncTime (c : Nat) (s : State) : Host.Outcome State Fault Refusal :=
  issueOn c 11 4 s (fun w d =>
    let idx := match (d.core c).run with
      | some (p, _, _) => (d.part p).tick.index
      | none => 0
    let bs := natLE 8 (d.coreTc c) ++ natLE 8 idx
    (d.modCore c (fun k => { k with sp := Mem.write k.sp (k.ref w 16) bs })).pushOp c w stOK false .ready)

/-- Whether the hubs between a core and the root work (R33, R291). -/
def Dev.donePath (d : Dev) (c : Nat) : Bool :=
  !(d.hub (hubKey 0 (clusterOfCore c))).failed && !(d.hub (hubKey 1 (dieOfCore c))).failed &&
    !(d.hub (hubKey 2 0)).failed

/-- DONE_REPORT: the report reaches the generator. -/
def execDoneReport (c : Nat) (s : State) : Host.Outcome State Fault Refusal :=
  onCore c s (fun d =>
    let k := d.core c
    if k.done.isNone || k.reported || !d.donePath c then d
    else d.modCore c (fun k => { k with reported := true }))

end Sys2Proof.Machine
end

