-- ==== Sys2Proof/Machine/Dma.lean ====
section
/-!
DEFINITION. Core DMA: streams and deadlines (R194, R199), descriptors and their checks (R187 to R190), rings
(R191 to R193), and the dma. operations that need no walker (R96 to R99).
-/

namespace Sys2Proof.Machine

/-! ## Streams (R194, R199) -/

/-- What a request of `s` bytes adds to a cursor, in 16 fraction bits. -/
def cursorStep (s rate : Nat) : Nat := if rate = 0 then 0 else s * 1000 * 65536 / rate

/-- The bytes from a place to the next 128-byte boundary. -/
def toBoundary (a : Nat) : Nat := (128 - a % 128) % 128

/-- The requests of a row, which cross no 128-byte boundary of its source or its destination (R190): the bytes of the
first one, the distance between the boundaries of the two sides, and how many times 128 bytes, each in two requests
when the sides are not aligned alike, and what is left. -/
structure RowCut where
  first : Nat
  gap : Nat
  count : Nat
  rest : Nat
  deriving DecidableEq, Repr

/-- Cuts a row of `n` bytes from `a` to `b`. -/
def rowCut (a b n : Nat) : RowCut :=
  let lo := min (toBoundary a) (toBoundary b)
  let first := min n lo
  ⟨first, max (toBoundary a) (toBoundary b) - lo, (n - first) / 128, (n - first) % 128⟩

/-- A cursor after the requests of a row. -/
def RowCut.cursor (q : RowCut) (rate cur : Nat) : Nat :=
  cur + cursorStep q.first rate + q.count * (cursorStep q.gap rate + cursorStep (128 - q.gap) rate) +
    cursorStep (min q.rest q.gap) rate + cursorStep (q.rest - min q.rest q.gap) rate

/-- How many of `n` deadlines, from `c` in steps of `step`, lie before `limit`. -/
def dueBefore (c step n limit : Nat) : Nat :=
  if step = 0 then (if c < limit then n else 0) else min n (ceilDiv (limit - c) step)

/-- The bytes of a row whose deadline lies before `limit`. -/
def RowCut.late (q : RowCut) (rate limit cur : Nat) : Nat :=
  let c1 := cur + cursorStep q.first rate
  let g := cursorStep q.gap rate
  let step := g + cursorStep (128 - q.gap) rate
  let c2 := c1 + q.count * step
  (if cur < limit then q.first else 0) + q.gap * dueBefore c1 step q.count limit +
    (128 - q.gap) * dueBefore (c1 + g) step q.count limit + (if c2 < limit then min q.rest q.gap else 0) +
    (if c2 + cursorStep (min q.rest q.gap) rate < limit then q.rest - min q.rest q.gap else 0)

/-- The start of each row of a side of a transfer. -/
def rowStarts (base pitch rows : Nat) : List Nat := (List.range rows).map (fun i => base + i * pitch)

/-- The cuts of a transfer's rows, in ascending order. -/
def Xfer.cuts (x : Xfer) : List RowCut :=
  (List.range x.rows).map (fun i => rowCut (x.src + i * x.srcPitch) (x.dst + i * x.dstPitch) x.rowBytes)

/-- The cursor after a transfer's requests, formed from `cur`. -/
def Xfer.cursorAfter (x : Xfer) (rate cur : Nat) : Nat := x.cuts.foldl (fun cur q => q.cursor rate cur) cur

/-- The bytes of a transfer whose deadline lies before `limit`; a background stream has none. -/
def Xfer.late (x : Xfer) (rate limit cur : Nat) : Nat :=
  if rate = 0 then 0
  else (x.cuts.foldl (fun (acc : Nat × Nat) q => (q.cursor rate acc.1, acc.2 + q.late rate limit acc.1)) (cur, 0)).2

/-- Read atoms a core may have outstanding (R53). -/
def atomLimit : Nat := 2048

/-- The read atoms of a transfer; one of more than the limit reads at the limit (R53). -/
def Xfer.readAtoms (x : Xfer) : Nat :=
  if x.srcSpace = 0 then 0 else min atomLimit (x.rows * ceilDiv (x.src % 32 + x.rowBytes) 32)

/-- The read atoms outstanding on a core: those of the descriptors that run. -/
def Core.atomsOut (k : Core) : Nat := (k.descrs.filter (·.started)).foldl (fun n y => n + y.x.readAtoms) 0

/-- Core DMA's places in use: the descriptors in flight and a residual fetch (R53, R87). -/
def Core.places (k : Core) : Nat := k.descrs.length + (if k.window.any (fun e => e.wait == .residual) then 1 else 0)

/-- Names a stream at issue: its rate is set, and its cursor is not behind now (R194). -/
def Core.nameStream (k : Core) (stream : Nat) (rate : Option Nat) (t : Nat) : Core :=
  let s := Tab.getD k.streams stream ⟨0, 0, 0⟩
  { k with streams := Tab.put k.streams stream { s with rate := rate.getD s.rate, cursor := max s.cursor (t * 65536) } }

/-- Forms the requests of a transfer on its stream: the deadline of the first, the rate, and the core after. -/
def Core.formOn (k : Core) (x : Xfer) : Nat × Nat × Core :=
  let s := Tab.getD k.streams x.stream ⟨0, 0, 0⟩
  (s.cursor, s.rate,
    { k with streams := Tab.put k.streams x.stream { s with cursor := x.cursorAfter s.rate s.cursor } })

/-! ## Endpoints -/

/-- A cluster memory place: cluster × 2^25 + offset. -/
def clusterPlace (cl off : Nat) : Nat := cl * 2 ^ 25 + off
/-- A page frame place (R188): offset in bits 15 to 0, frame in 37 to 16, die in 39 and 38. -/
def framePlaceOf (die f off : Nat) : Nat := die * 2 ^ 38 + f * 65536 + off

/-- An endpoint's place as a transfer holds it. -/
def Endpoint.place (e : Endpoint) : Nat := if e.space = 1 then clusterPlace e.cluster e.addr else e.addr

/-- The transfer space and place of the data of a buffer's slot in a window (R31). -/
def Buf.dataPlace (b : Buf) (window : Nat) : Nat × Nat :=
  let off := b.base + window % b.depth * (128 + b.slotBytes) + 128
  if b.space = 0 then (1, clusterPlace b.cluster off) else (2, off)

/-- A list of disjoint spans with one more: those it meets become one with it. -/
def addSpan (spans : List (Nat × Nat)) (lo hi : Nat) : List (Nat × Nat) :=
  let meets := fun (x : Nat × Nat) => decide (x.1 ≤ hi) && decide (lo ≤ x.2)
  let old := spans.filter meets
  spans.filter (fun x => !meets x) ++ [(old.foldl (fun m x => min m x.1) lo, old.foldl (fun m x => max m x.2) hi)]

/-- The bytes of some spans. -/
def spanSum (spans : List (Nat × Nat)) : Nat := spans.foldl (fun n x => n + (x.2 - x.1)) 0

/-- Notes what a producer writes into its slots of this window (R32): a byte counts once. -/
def Dev.noteWritten (d : Dev) (c space a n : Nat) : Dev :=
  match d.coreRun c with
  | none => d
  | some (p, slot, st, x, _) =>
    x.bufs.zipIdx.foldl (fun (d : Dev) e =>
      let q := e.1.dataPlace (d.part p).tick.index
      let lo := max a q.2
      let hi := min (a + n) (q.2 + e.1.slotBytes)
      if e.1.producer ≠ st ∨ q.1 ≠ space ∨ hi ≤ lo then d
      else d.modPart p (fun y => y.modPipe slot (fun z => z.modRun (fun r => { r with
        written := Tab.put r.written e.2 (addSpan (Tab.getD r.written e.2 []) (lo - q.2) (hi - q.2)) })))) d

/-- A read of cluster memory corrects single-bit errors and counts them (R52). -/
def Cluster.corrected (x : Cluster) (off n : Nat) : Cluster :=
  let hit := wordsIn x.soft off n
  { x with eccFixed := satAdd x.eccFixed hit.length, soft := x.soft.filter (fun y => !hit.contains y) }

/-- Writes bytes of cluster memory; words that are written whole are sound again. -/
def Cluster.store (x : Cluster) (off : Nat) (bs : Bytes) : Cluster :=
  let stays := fun y => !(decide (off ≤ y * 8) && decide (y * 8 + 8 ≤ off + bs.length))
  { x with mem := Mem.write x.mem off bs, bad := x.bad.filter stays, soft := x.soft.filter stays }

/-- Reads from a place. -/
def Dev.readPlace (d : Dev) (p c space a n hint : Nat) : PBytes × Dev :=
  match space with
  | 0 => (good (Mem.read (d.core c).sp a n), d)
  | 1 => (good (Mem.read (d.cluster (a / 2 ^ 25)).mem (a % 2 ^ 25) n),
          d.modCluster (a / 2 ^ 25) (fun x => x.corrected (a % 2 ^ 25) n))
  | 2 => d.devRead p a n hint
  | 3 => d.frameRead p (a / 2 ^ 38) (a / 65536 % 2 ^ 22) (a % 65536) n hint
  | _ => (((pageBytes (d.part p).storeSectors (a / 65536) 0).drop (a % 65536)).take n, d)

/-- Writes to a place. -/
def Dev.writePlace (d : Dev) (p c space a : Nat) (bs : Bytes) (hint : Nat) : Dev :=
  match space with
  | 0 => d.modCore c (fun k => { k with sp := Mem.write k.sp a bs })
  | 1 => d.modCluster (a / 2 ^ 25) (fun x => x.store (a % 2 ^ 25) bs)
  | 2 => d.devWrite p a (good bs) hint
  | _ => d

/-- The bytes a destination receives: where an atom is poisoned its bytes are free values (R262). -/
def Dev.fillPoison (d : Dev) (bs : PBytes) : Bytes × Dev :=
  if poisoned bs then
    let q := d.draw
    (bs.zipIdx.map (fun e => e.1.getD (BitVec.ofNat 8 (q.1 / 256 ^ e.2))), q.2)
  else (plain bs, d)

/-- Moves the rows of a transfer in ascending order; true when poison was read (R190, R262). -/
def Dev.moveRows (d : Dev) (p c : Nat) (x : Xfer) : Bool × Dev :=
  (List.range x.rows).foldl (fun (acc : Bool × Dev) i =>
    let r := acc.2.readPlace p c x.srcSpace (x.src + i * x.srcPitch) x.rowBytes x.hint
    let f := r.2.fillPoison r.1
    let place := x.dst + i * x.dstPitch
    (acc.1 || poisoned r.1, (f.2.writePlace p c x.dstSpace place f.1 x.hint).noteWritten c x.dstSpace place x.rowBytes)) (false, d)

/-- The unified pages that the rows of a transfer touch on one side. -/
def sidePages (x : Part) (space base pitch rows rowB : Nat) (f : Part → Nat → Nat → List Nat) : List Nat :=
  if space = 2 then ((rowStarts base pitch rows).flatMap (fun a => f x a rowB)).dedup else []

/-- The pages of a transfer under a test of extents. -/
def Xfer.pages (t : Xfer) (x : Part) (f : Part → Nat → Nat → List Nat) : List Nat :=
  (sidePages x t.srcSpace t.src t.srcPitch t.rows t.rowBytes f ++
    sidePages x t.dstSpace t.dst t.dstPitch t.rows t.rowBytes f).dedup

/-- The dies that hold a device extent whose pages have frames, with the bytes on each. -/
def Part.extentDies (x : Part) (a n : Nat) : List (Nat × Nat) :=
  match x.layout with
  | none => []
  | some y => match y.extent a n with
    | .outside => []
    | .volatile =>
      (List.range ((a + n - 1) / 2048 - a / 2048 + 1)).map (fun i =>
        let g := a / 2048 + i
        ((y.volPlace (g * 2048 - volBase)).1 / 4, min (a + n) (g * 2048 + 2048) - max a (g * 2048)))
    | .unified =>
      (pagesOf a n).map (fun g =>
        (match Tab.find x.resident g with
          | some r => r.die
          | none => (Tab.find x.reserve g).elim 0 (·.die),
         min (a + n) (g * 65536 + 65536) - max a (g * 65536)))

/-- The worst state of the I/O-die links that carry an extent to and from the I/O die (R284, R286). -/
def Dev.ioWay (d : Dev) (p a n : Nat) : Nat :=
  (((d.part p).extentDies a n).map (fun e => d.ioState e.1)).foldl max 0

/-- Counts payload of an extent on the I/O-die links of the dies that hold it, toward the I/O die or from it (R13). -/
def Dev.ioCarried (d : Dev) (p a n : Nat) (toIo : Bool) : Dev :=
  ((d.part p).extentDies a n).foldl (fun (d : Dev) e => d.carriedIo e.1 toIo e.2) d

/-- The dies one side of a transfer lies on, with the bytes on each; the scratchpad is the core's own. -/
def sideDies (x : Part) (c space base pitch rows rowB : Nat) : List (Nat × Nat) :=
  match space with
  | 0 => [(dieOfCore c, rows * rowB)]
  | 1 => [(base / 2 ^ 25 / 8, rows * rowB)]
  | 2 => if rowB = 0 then [] else (rowStarts base pitch rows).flatMap (fun a => x.extentDies a rowB)
  | 3 => [(base / 2 ^ 38, rows * rowB)]
  | _ => []

/-- The worst state of the ways a transfer takes (R283, R284). -/
def Dev.xferWay (d : Dev) (p c : Nat) (t : Xfer) : Nat :=
  let x := d.part p
  ((sideDies x c t.srcSpace t.src t.srcPitch t.rows t.rowBytes ++
    sideDies x c t.dstSpace t.dst t.dstPitch t.rows t.rowBytes).map
      (fun e => d.wayState (dieOfCore c) e.1)).foldl max 0

/-- Counts a transfer's payload on the links it crosses. -/
def Dev.xferCarried (d : Dev) (p c : Nat) (t : Xfer) : Dev :=
  let x := d.part p
  let own := dieOfCore c
  let d := (sideDies x c t.srcSpace t.src t.srcPitch t.rows t.rowBytes).foldl (fun (d : Dev) e => d.carried e.1 own e.2) d
  (sideDies x c t.dstSpace t.dst t.dstPitch t.rows t.rowBytes).foldl (fun (d : Dev) e => d.carried own e.1 e.2) d

/-! ## Descriptors in flight (R53, R190) -/

/-- Gives an operation of the window a status, unless it has one already. -/
def Dev.markOp (d : Dev) (c id status : Nat) : Dev :=
  d.modCore c (fun k => { k with window := k.window.map (fun e =>
    if e.id == id && e.status == stOK then { e with status := status } else e) })

/-- Replaces a descriptor of a core. -/
def Core.setDescr (k : Core) (i : Nat) (y : Descr) : Core := { k with descrs := k.descrs.set i y }

/-- Whether a row of a transfer's source in cluster memory holds a word that ECC cannot correct (R52); the scratchpad
is tested at issue. -/
def Dev.badSource (d : Dev) (x : Xfer) : Bool :=
  x.srcSpace == 1 && (rowStarts x.src x.srcPitch x.rows).any (fun a =>
    !(wordsIn (d.cluster (a / 2 ^ 25)).bad (a % 2 ^ 25) x.rowBytes).isEmpty)

/-- Ends descriptor `i` of a core with a status: it moves nothing and its operation takes the status. -/
def Dev.failDescr (d : Dev) (c i : Nat) (y : Descr) (st : Nat) : Dev :=
  (d.modCore c (fun k => k.setDescr i { y with started := true })).markOp c y.op st

/-- The pages a descriptor still waits for: cold ones, but for those whose landing lent it a reserve frame (R267). -/
def Part.descrLacks (x : Part) (y : Descr) : List Nat := (y.x.pages x Part.coldPages).filter (fun g => !y.lent.contains g)

/-- Whether descriptor `i` of a core waits for an earlier one: by its order bit (R187), or because an earlier one is
still to reach cluster memory (R60). -/
def Core.descrBehind (k : Core) (i : Nat) (y : Descr) : Bool :=
  (y.order && (k.descrs.take i).any (fun z => z.op == y.op)) ||
    (y.x.touchesCluster && (k.descrs.take i).any (fun z => !z.started && z.x.touchesCluster))

/-- Whether a side of a transfer must wait at the base dies: some request that they hold touches its atoms, or it
writes a tag unit that is to be converted (R245, R254). -/
def Dev.sideWaits (d : Dev) (p space base pitch rows rowB : Nat) (writes : Bool) : Bool :=
  match space with
  | 2 => (rowStarts base pitch rows).any (fun a => d.extentHeld p a rowB || (writes && d.staleExtent p a rowB))
  | 3 => (rowStarts base pitch rows).any (fun a => match (d.part p).layout with
      | some y => d.spanHeld (fun j => y.framePlace (a / 2 ^ 38) (a / 65536 % 2 ^ 22) j) (a % 65536) rowB
      | none => false)
  | _ => false

/-- Whether a transfer must wait at the base dies. -/
def Dev.xferWaits (d : Dev) (p : Nat) (x : Xfer) : Bool :=
  d.sideWaits p x.srcSpace x.src x.srcPitch x.rows x.rowBytes false || d.sideWaits p x.dstSpace x.dst x.dstPitch x.rows x.rowBytes true

/-- Whether a descriptor of a walk reads a frame whose tag disagrees with the key_gen of its entry (R213). -/
def Dev.genClash (d : Dev) (p : Nat) (y : Descr) : Bool :=
  y.x.srcSpace == 3 && (match ((d.part p).seq y.seq).bind (fun q => Tab.find q.entries y.page) with
    | some e => e.tier == 0 && e.die == y.x.src / 2 ^ 38 && e.frame == y.x.src / 65536 % 2 ^ 22 && d.frameGen p e.die e.frame != e.keyGen
    | none => false)

/-- The bytes of a descriptor whose pages, links and atoms are there move, and it runs (R190); the core's die translates
its unified addresses (R266). -/
def Dev.runDescr (d : Dev) (p c i : Nat) (y : Descr) : Dev :=
  let wait := if y.cold then d.now - y.at_ else 0
  let d := d.translate (dieOfCore c) p (y.x.pages (d.part p) Part.unifiedPages)
  let d := d.modCore c (fun k =>
    { k.setDescr i { y with started := true } with causes := { k.causes with cold := k.causes.cold + wait } })
  let r := (d.xferCarried p c y.x).moveRows p c y.x
  if r.1 then r.2.markOp c y.op stDeviceFault else r.2

/-- Starts a descriptor when its pages are there, its links up, its atoms free, the base dies can serve it and its order
allows (R53, R187, R190, R258, R267). Its bytes move when it starts. -/
def Dev.tryStart (d : Dev) (c i : Nat) : Dev :=
  let k := d.core c
  let p := d.corePart c
  match k.descrs[i]? with
  | none => d
  | some y =>
    if y.started || k.descrBehind i y || y.x.srcSpace == 4 then d
    else
      let lack := (d.part p).descrLacks y
      if !lack.isEmpty then
        (d.modCore c (fun k => k.setDescr i { y with cold := true })).startMigrs p lack (dieOfCore c) false
      else
        let way := d.xferWay p c y.x
        if way = 2 || d.badSource y.x || d.genClash p y then d.failDescr c i y stDeviceFault
        else if way = 1 || decide (atomLimit < k.atomsOut + y.x.readAtoms) || d.xferWaits p y.x then d
        else d.ifAffords (d.runDescr p c i y)

/-- Whether an operation of the window has descriptors that core DMA does not hold yet. -/
def Core.forming (k : Core) (e : Issued) : Bool :=
  match e.wait with
  | .descr left => decide ((k.descrs.filter (fun y => y.op == e.id)).length < left)
  | _ => false

/-- Whether a descriptor that waits for a place may take one: one that touches cluster memory follows what was issued
before it (R60). -/
def Core.mayEnter (k : Core) (y : Descr) : Bool :=
  !y.x.touchesCluster || k.window.all (fun e => decide (y.op ≤ e.id) || !k.forming e)

/-- Fills core DMA's 64 places from the operations that wait in the window, the fetch buffer and the page descriptor
queue (R53, R74, R192). -/
def Dev.letIn (d : Dev) (c : Nat) : Dev :=
  let k := d.core c
  let own := (k.dmaQ.filter k.mayEnter).take (64 - k.places)
  let k0 := { k with descrs := k.descrs ++ own, dmaQ := k.dmaQ.filter (fun y => !own.any (fun z => z.op == y.op)) }
  let n := 64 - k0.places
  let k1 := { k0 with descrs := k0.descrs ++ k0.fetchBuf.take n, fetchBuf := k0.fetchBuf.drop n }
  let m := 64 - k1.places
  let cl := clusterOfCore c
  let mine := ((d.cluster cl).descQ.filter (fun e => e.1 == c)).take m
  let d := d.setCore c { k1 with descrs := k1.descrs ++ mine.map (·.2) }
  if mine.isEmpty then d
  else
    let others := (d.cluster cl).descQ.foldl (fun (acc : Nat × List (Nat × Descr)) e =>
      if e.1 = c ∧ acc.1 < mine.length then (acc.1 + 1, acc.2) else (acc.1, acc.2 ++ [e])) (0, [])
    d.modCluster cl (fun x => { x with descQ := others.2 })

/-- Starts whatever can start on a core. -/
def Dev.pump (d : Dev) (c : Nat) : Dev :=
  let d := d.letIn c
  (List.range (d.core c).descrs.length).foldl (fun d i => d.tryStart c i) d

/-- Forms a descriptor for an operation on its stream. -/
def Dev.formDescr (d : Dev) (c op : Nat) (x : Xfer) (order : Bool) (seq page : Nat) : Descr × Dev :=
  let q := (d.core c).formOn x
  (⟨op, x, false, false, order, seq, page, [], none, q.1, q.2.1, d.now⟩, d.setCore c q.2.2)

/-- Gives a descriptor to core DMA, where it waits for a place while there is none (R53). -/
def Dev.giveDescr (d : Dev) (c : Nat) (y : Descr) : Dev :=
  (d.modCore c (fun k => { k with dmaQ := k.dmaQ ++ [y] })).pump c

/-- Puts an operation of one descriptor in the window and in core DMA. -/
def Dev.oneDescr (d : Dev) (c : Nat) (w : Bytes) (cond : Bool) (x : Xfer) (rate : Option Nat) : Dev :=
  let id := d.nextOp c
  let d := d.pushOp c w stOK cond (.descr 1)
  let d := d.modCore c (fun k => k.nameStream x.stream rate (d.coreTc c))
  let q := d.formDescr c id x false 0 0
  q.2.giveDescr c q.1

/-! ## dma.copy and dma.prefetch -/

/-- The transfer of a dma.copy word, its registers added. -/
def copyXfer (regs : Tab Nat) (w : Bytes) : Xfer :=
  let e := copyEnds (some regs) w
  let s := e.1.getD ⟨0, 0, 0⟩
  let t := e.2.getD ⟨0, 0, 0⟩
  ⟨s.space, s.place, t.space, t.place, fieldOf w 32 4, fieldOf w 36 4, fieldOf w 40 4, fieldOf w 44 4,
    bitsOf (fieldOf w 48 1) 5 4, fieldOf w 52 2⟩

/-- DMA_COPY. -/
def execDmaCopy (c : Nat) (s : State) : Host.Outcome State Fault Refusal :=
  issueOn c 6 1 s (fun w d =>
    let x := copyXfer (d.core c).aregs w
    if x.rowBytes = 0 ∨ x.rows = 0 then d.pushEmpty c w
    else d.oneDescr c w false x (some (fieldOf w 56 4)))

/-- DMA_PREFETCH: every cold page's migration is accepted (R99, R269). -/
def execDmaPrefetch (c : Nat) (s : State) : Host.Outcome State Fault Refusal :=
  issueOn c 6 3 s (fun w d =>
    let p := d.corePart c
    let cold := (d.part p).coldPages (fieldOf w 16 8) (fieldOf w 24 8)
    if fieldOf w 24 8 = 0 then d.pushEmpty c w
    else (d.startMigrs p cold (dieOfCore c) true).pushOp c w stOK (!cold.isEmpty) .ready)

/-! ## dma.ring (R191 to R193) -/

/-- The transfer a ring descriptor describes (R187). -/
def descrXfer (b : Bytes) : Xfer :=
  let sp := fieldOf b 6 1
  let s := endpoint (bitsOf sp 1 0) (fieldOf b 0 6) 0
  let t := endpoint (bitsOf sp 3 2) (fieldOf b 8 6) 0
  ⟨s.space, s.place, t.space, t.place, fieldOf b 16 4, fieldOf b 20 4, fieldOf b 24 4, fieldOf b 28 4,
    bitsOf sp 5 4, fieldOf b 7 1⟩

/-- The checks of R189 on a descriptor, in its order: status and byte offset of the first failure. -/
def checkDescr (x : Part) (b : Bytes) : Option (Nat × Nat) :=
  let sp := fieldOf b 6 1
  let ss := bitsOf sp 1 0
  let ds := bitsOf sp 3 2
  let rb := fieldOf b 16 4
  let rows := fieldOf b 20 4
  let pitchS := fieldOf b 24 4
  let pitchD := fieldOf b 28 4
  let s := endpoint ss (fieldOf b 0 6) 0
  let t := endpoint ds (fieldOf b 8 6) 0
  let q := if ss = 0 ∨ ds = 0 then 128 else 32
  let fs := endpointFail x s (spanBytes rows rb pitchS)
  let ft := endpointFail x t (spanBytes rows rb pitchD)
  match firstFail [(0, stInvalid, endpointRsv ss (fieldOf b 0 6)),
      (6, stInvalid, bitOf sp 7 || ss == 3 || ds == 3 || (ss == 0 && ds == 0)),
      (8, stInvalid, endpointRsv ds (fieldOf b 8 6)), (14, stInvalid, fieldOf b 14 2 != 0)] with
  | some f => some f
  | none =>
    if rb = 0 ∨ rows = 0 then none
    else match firstFail [(0, stAlign, endpointMisaligned s), (8, stAlign, endpointMisaligned t),
        (16, stAlign, rb % q != 0), (24, stAlign, pitchS % pitchGrain ss != 0), (28, stAlign, pitchD % pitchGrain ds != 0)] with
    | some f => some f
    | none => match firstFail [(0, stBounds, fs == some stBounds), (8, stBounds, ft == some stBounds)] with
      | some f => some f
      | none => match firstFail [(0, stPartition, fs == some stPartition), (8, stPartition, ft == some stPartition)] with
        | some f => some f
        | none => firstFail [(28, stInvalid, overlapFail s t rows rb pitchS pitchD)]

/-- Entry `i` of a ring in cluster memory. -/
def Dev.ringEntry (d : Dev) (r : Ring) (i : Nat) : Bytes :=
  Mem.read (d.cluster r.cluster).mem (r.base + 32 * (i % r.entries)) 32

/-- Whether a descriptor moves nothing. -/
def Xfer.empty (x : Xfer) : Bool := x.rowBytes == 0 || x.rows == 0

/-- DMA_RING: the first pass checks every descriptor before any byte moves (R192), and the streams they name are not
behind now (R194). A failing descriptor's
entry index × 256 + byte offset stands in the debug field of the status record. -/
def execDmaRing (c : Nat) (s : State) : Host.Outcome State Fault Refusal :=
  issueOn c 6 4 s (fun w d =>
    let e := endpoint 1 (fieldOf w 16 8) 0
    let n := fieldOf w 32 4
    let id := d.nextOp c
    let r : Ring := ⟨id, e.addr, e.cluster, fieldOf w 24 4, fieldOf w 28 4, n⟩
    let bad := (List.range n).findSome? (fun i =>
      (checkDescr (d.part (d.corePart c)) (d.ringEntry r (r.next + i))).map
        (fun f => (f.1, (r.next + i) % r.entries * 256 + f.2)))
    if n = 0 then d.pushEmpty c w
    else match bad with
    | some f => d.faultCore c f.1 (d.core c).pc f.2
    | none =>
      let t := d.coreTc c
      (d.pushOp c w stOK false (.descr n)).modCore c (fun k =>
        let k := (List.range n).foldl (fun (k : Core) i => k.nameStream (fieldOf (d.ringEntry r (r.next + i)) 7 1) none t) k
        { k with rings := k.rings ++ [r] }))

/-- Lowers what an operation still waits for; at zero it is ready. -/
def Dev.lessDescr (d : Dev) (c id n : Nat) : Dev :=
  d.modCore c (fun k => { k with window := k.window.map (fun e =>
    if e.id == id then (match e.wait with
      | .descr left => { e with wait := if left ≤ n then .ready else .descr (left - n) }
      | _ => e)
    else e) })

/-- One descriptor of a burst: checked again, then into the fetch buffer. -/
def Dev.fetchEntry (d : Dev) (c : Nat) (r : Ring) (i : Nat) : Bool × Dev :=
  let b := d.ringEntry r i
  let x := descrXfer b
  match checkDescr (d.part (d.corePart c)) b with
  | some f => (false, d.markOp c r.op f.1)
  | none =>
    if x.empty then (true, d.lessDescr c r.op 1)
    else
      let q := d.formDescr c r.op x (bitOf (fieldOf b 6 1) 6) 0 0
      (true, q.2.modCore c (fun k => { k with fetchBuf := k.fetchBuf ++ [q.1] }))

/-- Fetches the next burst of the first ring that has descriptors left, once 32 entries of the buffer are
free: up to 32 entries that do not cross a 32-entry boundary (R192, R193). -/
def Dev.ringBurst (d : Dev) (c : Nat) : Dev :=
  let k := d.core c
  match k.rings.find? (fun r => r.left != 0) with
  | none => d
  | some r =>
    if 32 < k.fetchBuf.length then d
    else
      let n := min r.left (32 - r.next % 32)
      let q := (List.range n).foldl (fun (acc : Bool × Nat × Dev) i =>
        if acc.1 then
          let f := acc.2.2.fetchEntry c r (r.next + i)
          (f.1, if f.1 then acc.2.1 + 1 else acc.2.1, f.2)
        else acc) (true, 0, d)
      let left := if q.1 then r.left - n else 0
      let d := q.2.2.modCore c (fun k => { k with rings := (k.rings.map (fun y =>
        if y.op == r.op then { y with next := (r.next + n) % r.entries, left := left } else y)).filter (fun y => y.left != 0) })
      let d := if q.1 then d else d.lessDescr c r.op (r.left - q.2.1)
      d.pump c

/-- RING_BURST_FETCH. -/
def execRingBurstFetch (c : Nat) (s : State) : Host.Outcome State Fault Refusal :=
  onCore c s (fun d => d.ringBurst c)

end Sys2Proof.Machine
end

