-- ==== Sys2Proof/Machine/Usnea.lean ====
section
/-!
DEFINITION. col. operations (R105, R106) and the Usnea path (R287 to R291).
-/

namespace Sys2Proof.Machine

/-! ## Channels (R105) -/

/-- COL_SEND: the bytes land in the cluster memory named, and its channel counts them. A send over a link
that retrains is held back, and so is one behind an earlier access to cluster memory (R60); over a link that is down,
and from a word that ECC cannot correct, it completes with DEVICE_FAULT (R52, R284). -/
def execColSend (c : Nat) (s : State) : Host.Outcome State Fault Refusal :=
  issueOn c 10 1 s (fun w d =>
    let n := fieldOf w 32 4
    let src := endpoint (bitsOf (fieldOf w 38 1) 1 0) (fieldOf w 16 8) 0
    let dst := endpoint 1 (fieldOf w 24 8) 0
    let own := dieOfCore c
    let far := dst.cluster / 8
    let from_ := if src.space = 0 then own else src.cluster / 8
    let way := max (d.wayState own far) (d.wayState from_ own)
    if n = 0 then d.pushEmpty c w
    else if way = 1 || (d.core c).clusterPending then d
    else if way = 2 || (src.space == 1 && !(wordsIn (d.cluster src.cluster).bad src.addr n).isEmpty) then
      d.pushOp c w stDeviceFault false .ready
    else
      let bs := if src.space = 0 then Mem.read (d.core c).sp src.addr n
        else Mem.read (d.cluster src.cluster).mem src.addr n
      let ch := fieldOf w 36 2
      let d := if src.space = 1 then d.modCluster src.cluster (fun x => x.corrected src.addr n) else d
      let d := d.modCluster dst.cluster (fun x => { x.store dst.addr bs with
        chan := Tab.put x.chan ch ((Tab.getD x.chan ch 0 + n) % 2 ^ 64) })
      (((d.carried own far n).carried from_ own n).noteWritten c 1 (clusterPlace dst.cluster dst.addr) n).pushOp c w stOK false .ready)

/-- The counter of a channel of a core's own cluster. -/
def Dev.chanOf (d : Dev) (c ch : Nat) : Nat := Tab.getD (d.cluster (clusterOfCore c)).chan ch 0

/-- Takes bytes from a channel of a core's own cluster. -/
def Dev.takeChan (d : Dev) (c ch n : Nat) : Dev :=
  d.modCluster (clusterOfCore c) (fun x => { x with chan := Tab.put x.chan ch (Tab.getD x.chan ch 0 - n) })

/-- COL_RECV. -/
def execColRecv (c : Nat) (s : State) : Host.Outcome State Fault Refusal :=
  issueOn c 10 2 s (fun w d =>
    let n := fieldOf w 32 4
    let ch := fieldOf w 36 2
    if n = 0 then d.pushEmpty c w
    else if n ≤ d.chanOf c ch then (d.takeChan c ch n).pushOp c w stOK false .ready
    else d.pushOp c w stOK false (.recv ch n))

/-- COL_RECV_SATISFIED: the first waiting col.recv whose count is reached takes its bytes. -/
def execColRecvSatisfied (c : Nat) (s : State) : Host.Outcome State Fault Refusal :=
  onCore c s (fun d =>
    let met := (d.core c).window.findSome? (fun e => match e.wait with
      | .recv ch n => if n ≤ d.chanOf c ch then some (e.id, ch, n) else none
      | _ => none)
    match met with
    | some (id, ch, n) => (d.takeChan c ch n).settle c id stOK false
    | none => d)

/-! ## Reductions (R106, R289) -/

/-- FP32 maximum of the Usnea path: a NaN wins, +0 is greater than −0. -/
def usneaMax32 (a b : Nat) : Nat :=
  let x := d32 a
  let y := d32 b
  if x.isNan || y.isNan then fFP32.nanCode
  else if x.isZero && y.isZero then (if x.isNeg then b else a)
  else if x.lt y then b else a

/-- FP32 minimum of the Usnea path. -/
def usneaMin32 (a b : Nat) : Nat :=
  let x := d32 a
  let y := d32 b
  if x.isNan || y.isNan then fFP32.nanCode
  else if x.isZero && y.isZero then (if x.isNeg then a else b)
  else if y.lt x then b else a

/-- One step of a reduction unit on two 32-bit elements. -/
def usneaFn (op type a b : Nat) : Nat :=
  match op with
  | 0 => if type = 1 then add32 a b else (a + b) % 2 ^ 32
  | 1 => if type = 1 then usneaMax32 a b else if signed 32 a < signed 32 b then b else a
  | 2 => if type = 1 then usneaMin32 a b else if signed 32 b < signed 32 a then b else a
  | 3 => Nat.land a b
  | _ => Nat.lor a b

/-- Folds element lists left to right, one operation per element. -/
def foldElems (op type : Nat) : List (List Nat) → List Nat
  | [] => []
  | x :: xs => xs.foldl (fun acc y => (acc.zip y).map (fun e => usneaFn op type e.1 e.2)) x

/-- Groups contributions by a key, keys ascending, order kept within a key. -/
def byKey (key : Nat → Nat) (n : Nat) (xs : List (Nat × List Nat)) : List (Nat × List (List Nat)) :=
  ((List.range n).map (fun k => (k, (xs.filter (fun e => key e.1 == k)).map (·.2)))).filter (fun e => !e.2.isEmpty)

/-- The result of a reduction: cores within a cluster, clusters within a die, dies (R106). -/
def usneaResult (op type : Nat) (xs : List (Nat × List Nat)) : List Nat :=
  let clusters := (byKey clusterOfCore 32 xs).map (fun e => (e.1, foldElems op type e.2))
  let dies := (byKey (· / 8) 4 clusters).map (fun e => (e.1, foldElems op type e.2))
  foldElems op type (dies.map (·.2))

/-- The contribution of a core to the k-th operation of a group, if it is one of the four in flight (R290). -/
def Core.inFlight (x : Core) (group k : Nat) : Option UsneaReq :=
  ((x.usnea.filter (fun u => !u.done)).take 4).find? (fun u => u.group == group && u.k == k)

/-- Whether the hubs a group's messages pass work (R289, R291). -/
def Dev.groupPath (d : Dev) (cores : List Nat) : Bool :=
  let clusters := (cores.map clusterOfCore).dedup
  let dies := (cores.map dieOfCore).dedup
  clusters.all (fun u => !(d.hub (hubKey 0 u)).failed) &&
  (decide (clusters.length ≤ 1) || dies.all (fun u => !(d.hub (hubKey 1 u)).failed)) &&
  (decide (dies.length ≤ 1) || !(d.hub (hubKey 2 0)).failed)

/-- A message of a partition has passed the hubs above some cores: their replays start afresh. The root keeps one
context per partition (R288). -/
def Dev.hubsDelivered (d : Dev) (p : Nat) (cores : List Nat) : Dev :=
  let reset := fun (d : Dev) u => if (d.hub u).replays = 0 then d else d.modHub u (fun h => { h with replays := 0 })
  reset (((cores.map dieOfCore).dedup).foldl (fun d u => reset d (hubKey 1 u))
    (((cores.map clusterOfCore).dedup).foldl (fun d u => reset d (hubKey 0 u)) d)) (hubKey 2 p)

/-- Joins a group at issue (R106, R292): a core outside the group faults; an operation that the path has
already ended completes with that status; a failed hub gives DEVICE_FAULT (R291). -/
def Dev.joinGroup (d : Dev) (c : Nat) (w : Bytes) (reduce : Bool) : Dev :=
  match d.coreRun c with
  | none => d
  | some (p, slot, st, x, _) =>
    let group := fieldOf w 40 1
    let cores := x.members st group
    if !cores.contains c then d.faultAt c w stInvalid
    else if reduce ∧ fieldOf w 43 1 = 0 then d.pushEmpty c w
    else
      let k := Tab.getD (d.core c).groupCnt group 0
      let id := d.nextOp c
      let d := d.modCore c (fun y => { y with groupCnt := Tab.put y.groupCnt group (k + 1) })
      match (x.run.map (fun r => r.aborted)).bind (fun t => Tab.find t (groupKey st group k)) with
      | some ended => d.pushOp c w ended false .ready
      | none =>
        let n := if reduce then fieldOf w 43 1 else 0
        let elems := (List.range n).map (fun i => Mem.nat (d.core c).sp ((d.core c).ref w 16 + 4 * i) 4)
        let u : UsneaReq := ⟨id, k, group, reduce, fieldOf w 41 1, fieldOf w 42 1, elems, n,
          if reduce then (d.core c).ref w 24 else 0, false⟩
        let d := (d.modCore c (fun y => { y with usnea := y.usnea ++ [u] })).pushOp c w stOK false .group
        if d.groupPath cores then d else d.endGroup p slot st group k stDeviceFault

/-- COL_REDUCE. -/
def execColReduce (c : Nat) (s : State) : Host.Outcome State Fault Refusal :=
  issueOn c 10 3 s (fun w d => d.joinGroup c w true)

/-- COL_BARRIER. -/
def execColBarrier (c : Nat) (s : State) : Host.Outcome State Fault Refusal :=
  issueOn c 10 4 s (fun w d => d.joinGroup c w false)

/-- Ends a group operation at one member: a result for a reduction is written first. -/
def Dev.groupLand (d : Dev) (c : Nat) (u : UsneaReq) (status : Nat) (elems : List Nat) : Dev :=
  let bs := elems.flatMap (natLE 4)
  (d.modCore c (fun k => { k with
    sp := if status = stOK ∧ u.reduce then Mem.write k.sp u.dst bs else k.sp
    usnea := k.usnea.map (fun v => if v.id == u.id then { v with done := true } else v) })).settle c u.id status false

/-- USNEA_GROUP_COMPLETE: the oldest operation of the core whose every member has contributed completes at
every member; members that differ in op, type or elements all fault. Contributions are folded by ascending core
(R106). -/
def execUsneaGroupComplete (c : Nat) (s : State) : Host.Outcome State Fault Refusal :=
  onCore c s (fun d =>
    match d.coreRun c with
    | none => d
    | some (p, _, st, x, _) =>
      let full := ((d.core c).usnea.filter (fun u => !u.done)).findSome? (fun u =>
        let cores := (List.range 256).filter (fun m => (x.members st u.group).contains m)
        let got := cores.filterMap (fun m => ((d.core m).inFlight u.group u.k).map (fun v => (m, v)))
        if got.length = cores.length then some (u, got) else none)
      match full with
      | none => d
      | some (u, got) =>
        let same := got.all (fun e => e.2.reduce == u.reduce && e.2.op == u.op && e.2.type == u.type && e.2.count == u.count)
        let res := if u.reduce then usneaResult u.op u.type (got.map (fun e => (e.1, e.2.elems))) else []
        got.foldl (fun (d : Dev) e => d.groupLand e.1 e.2 (if same then stOK else stInvalid) res)
          (d.hubsDelivered p (got.map (·.1))))

/-! ## Failures of the path (R289, R291) -/

/-- Whether a hub lies on the way of some cores' messages. -/
def hubServes (level unit c : Nat) : Bool :=
  match level with
  | 0 => clusterOfCore c == unit
  | 1 => dieOfCore c == unit
  | _ => unit == 0

/-- The group operations in flight on a core. -/
def Dev.waitingGroups (d : Dev) (c : Nat) : List UsneaReq := (d.core c).usnea.filter (fun u => !u.done)

/-- Whether the messages of a group pass a hub: a group within one cluster or die is reduced there (R289). -/
def groupUses (level unit : Nat) (cores : List Nat) : Bool :=
  match level with
  | 0 => cores.any (fun c => clusterOfCore c == unit)
  | 1 => cores.any (fun c => dieOfCore c == unit) && decide (1 < (cores.map clusterOfCore).dedup.length)
  | _ => decide (1 < (cores.map dieOfCore).dedup.length)

/-- Every operation that waits on a hub completes with DEVICE_FAULT at every member (R291); of partition `only`, when
one is named (R288). -/
def Dev.endHubGroups (d : Dev) (level unit : Nat) (only : Option Nat) : Dev :=
  ((List.range 256).filter (hubServes level unit)).foldl (fun d c =>
    match d.coreRun c with
    | none => d
    | some (p, slot, st, x, _) =>
      (d.waitingGroups c).foldl (fun d u =>
        if only.getD p = p ∧ groupUses level unit (x.members st u.group) then d.endGroup p slot st u.group u.k stDeviceFault
        else d) d) d

/-- The event records of a hub or message failure: one per partition whose work the hub carried, else one in
the module ring (R434). -/
def Dev.hubEvent (d : Dev) (level unit : Nat) (only : Option Nat) : Dev :=
  let e := { EventRec.blank 0x0102 2 3 with status := stDeviceFault, unit := unit, d0 := level }
  let ps := (List.range 4).filter (fun p => decide (only.getD p = p) && (List.range 256).any (fun c =>
    hubServes level unit c && (match (d.core c).run with
      | some r => r.1 == p
      | none => false)))
  if ps = [] then d.modEvent e else ps.foldl (fun d p => d.partEvent p e) d

/-- A hub fails. -/
def Dev.failHub (d : Dev) (level unit : Nat) : Dev :=
  ((d.hubEvent level unit none).modHub (hubKey level unit) (fun h => { h with failed := true })).endHubGroups level unit none

/-- Whether a hub exists: 32 cluster hubs, 4 die hubs, one root (R287). -/
def hubExists (level unit : Nat) : Bool :=
  (level == 0 && decide (unit < 32)) || (level == 1 && decide (unit < 4)) || (level == 2 && unit == 0)

/-- USNEA_HUB_FAILURE: reported to the management controller as kind 1. -/
def execUsneaHubFailure (level unit : Nat) (s : State) : Host.Outcome State Fault Refusal :=
  onUnit (hubExists level unit)
    (if s.plat.up then
      { s with
        dev := s.dev.failHub level unit
        plat := { s.plat with mgmt := s.plat.mgmt ++ [⟨1, hubKey level unit⟩] } }
     else s)

/-- Whether a message's hop exists: a hub, and at the root the context of a partition (R288). -/
def hopExists (level unit : Nat) : Bool := hubExists level unit || (level == 2 && decide (unit < 4))

/-- Whether a hop has replays left for the message that fails (R289). -/
def Dev.replayLeft (d : Dev) (level unit : Nat) : Bool := decide ((d.hub (hubKey level unit)).replays < 2)

/-- A hop replays a message up to twice; a message that fails both replays ends the operations that wait on
the hub. At the root `unit` is the partition, and the other partitions' contexts are not concerned (R288). -/
def Dev.usneaCrc (d : Dev) (level unit : Nat) : Dev :=
  if d.replayLeft level unit then
    d.modHub (hubKey level unit) (fun h => { h with replays := h.replays + 1 })
  else
    let hub := if level = 2 then 0 else unit
    let only := if level = 2 then some unit else none
    ((d.hubEvent level hub only).modHub (hubKey level unit) (fun h => { h with replays := 0 })).endHubGroups level hub only

/-- USNEA_MESSAGE_CRC_FAILURE (R289, R291): a message that fails both replays is reported to the management controller
as kind 1. -/
def execUsneaMessageCrcFailure (level unit : Nat) (s : State) : Host.Outcome State Fault Refusal :=
  onUnit (hopExists level unit)
    (if s.plat.up then
      { s with
        dev := s.dev.usneaCrc level unit
        plat := if s.dev.replayLeft level unit then s.plat
          else { s.plat with mgmt := s.plat.mgmt ++ [⟨1, hubKey level (if level = 2 then 0 else unit)⟩] } }
     else s)

end Sys2Proof.Machine
end

