-- ==== Sys2Proof/Machine/Complete.lean ====
section
/-!
DEFINITION. The life of a handle (R352 to R361): completion entries, DONE, data objects and out areas, the
order in which commands start, and the waiting EVENT entries (R356).
-/

namespace Sys2Proof.Machine

/-! ## Handles (R358, R359) -/

/-- A handle: slot, generation, partition. -/
def handleOf (slot gen part : Nat) : Nat := slot + gen * 2 ^ 20 + part * 2 ^ 44
/-- The generation of a free slot. -/
def HostSide.gen (x : HostSide) (slot : Nat) : Nat := Tab.getD x.gens slot 1
/-- The next generation, which is never 0. -/
def nextGen (g : Nat) : Nat := if g = 2 ^ 24 - 1 then 1 else g + 1
/-- The opcode of a command. -/
def Cmd.op (c : Cmd) : Nat := fieldOf c.bytes 0 2
/-- A field of a command. -/
def Cmd.field (c : Cmd) (off len : Nat) : Nat := fieldOf c.bytes off len
/-- A locus (R172): structure, index, byte offset. -/
def locus (struct index off : Nat) : Nat := struct + index * 2 ^ 8 + off * 2 ^ 32

/-! ## Completion entries (R350) -/

/-- Host memory as the module writes it: function × 2^64 + address. -/
def hostPlace (f a : Nat) : Nat := f * 2 ^ 64 + a

/-- Writes bytes to a function's host memory. -/
def Dev.hostWrite (d : Dev) (f a : Nat) (bs : Bytes) : Dev :=
  { d with host := { d.host with mem := Mem.write d.host.mem (hostPlace f a) bs } }

/-- The partition a function's device addresses belong to. -/
def Dev.fnPart (d : Dev) (f : Nat) : Nat := (d.ownerOfFn f).getD 0

/-- Writes to a ring or an out area: device memory or host memory. -/
def Dev.writeOut (d : Dev) (f : Nat) (dev : Bool) (a : Nat) (bs : Bytes) : Dev :=
  if dev then (d.devWrite (d.fnPart f) a (good bs) 0).ioCarried (d.fnPart f) a bs.length false else d.hostWrite f a bs

/-- Entries of a completion ring. -/
def Qp.cqSize (x : Qp) : Nat := 2 ^ x.cqLog2
/-- Entries of a submission ring. -/
def Qp.sqSize (x : Qp) : Nat := 2 ^ x.sqLog2
/-- Completion entries that the host has not released. -/
def Qp.cqUsed (x : Qp) : Nat := (x.cqWrite + x.cqSize - x.cqHead) % x.cqSize
/-- Free completion entries that no command holds (R350, R351). -/
def Qp.cqFree (x : Qp) : Nat := x.cqSize - 1 - x.cqUsed - x.held

/-- Moves the write index past an entry; the phase flips when it wraps (R350). -/
def Qp.wrote (x : Qp) (irq : Bool) : Qp :=
  let i := (x.cqWrite + 1) % x.cqSize
  { x with
    cqWrite := i
    phase := if i = 0 then !x.phase else x.phase
    uncovered := x.uncovered + b2n (irq && x.irqEn) }

/-- Writes a completion entry with the current phase bit; `irq` asks for a message (R357). -/
def Dev.cqPut (d : Dev) (f q : Nat) (entry : Bytes) (irq : Bool) : Dev :=
  let x := (d.fn f).qp q
  let b0 := (entry.headD 0).toNat + (if x.phase then 0x80 else 0)
  let bs := BitVec.ofNat 8 b0 :: entry.drop 1
  (d.writeOut f x.cqInDev (x.cqBase + 32 * x.cqWrite) bs).modQp f q (fun x => x.wrote irq)

/-- A DONE entry without its phase bit. -/
def doneEntry (fault : Bool) (status word debugTag handle r0 r1 : Nat) : Bytes :=
  natLE 1 (2 + 4 * b2n fault) ++ natLE 1 status ++ natLE 2 word ++ natLE 4 debugTag ++ natLE 8 handle ++
    natLE 8 r0 ++ natLE 8 r1

/-- Whether completions reach a queue: ENABLED or DRAINING (R347). -/
def Qp.open_ (x : Qp) : Bool := x.state == 1 || x.state == 3

/-- Ends a live handle: its DONE is written, or dropped and counted when its queue is gone (R342); the slot is
free under the next generation (R359). -/
def Dev.endHandle (d : Dev) (h : Nat) (c : Cmd) (fault : Bool) (status word debugTag r0 r1 : Nat) : Dev :=
  let handle := handleOf h c.gen c.part
  let x := (d.fn c.fn).qp c.q
  let d := if c.lost then d else d.modQp c.fn c.q (fun x => { x with held := x.held - 1 })
  let d := if x.open_ && !c.lost then d.cqPut c.fn c.q (doneEntry fault status word debugTag handle r0 r1) true
    else d.modFn c.fn (fun y => { y with dropped := y.dropped + 1, lastHandle := handle })
  { d with host := { d.host with
      live := Tab.del d.host.live h
      gens := Tab.put d.host.gens h (nextGen c.gen) } }

/-- The commands that ABORT names the handle in and that wait for its DONE (R360). -/
def Dev.aborters (d : Dev) (h gen : Nat) : List Nat :=
  (d.host.live.filter (fun e => e.2.phase == .abortOf h gen)).map (·.1)

/-- Completes a live handle and the ABORTs that wait for it. -/
def Dev.completeFuel : Nat → Dev → Nat → Bool → Nat → Nat → Nat → Nat → Nat → Dev
  | 0, d, _, _, _, _, _, _, _ => d
  | n + 1, d, h, fault, status, word, dbg, r0, r1 =>
    match d.cmd h with
    | none => d
    | some c =>
      (d.aborters h c.gen).foldl (fun d a => Dev.completeFuel n d a false stOK 0 0 0 0)
        (d.endHandle h c fault status word dbg r0 r1)

/-- Completes a command with a status and its results. -/
def Dev.complete (d : Dev) (h status r0 r1 : Nat) : Dev :=
  d.completeFuel (d.host.live.length + 1) h false status 0 0 r0 r1

/-- Completes a command with the record of an operation fault (R66, R355). -/
def Dev.completeFault (d : Dev) (h status word dbg r0 r1 : Nat) : Dev :=
  d.completeFuel (d.host.live.length + 1) h true status word dbg r0 r1

/-- Completes a command whose field at a byte failed a check. -/
def Dev.failAt (d : Dev) (h status off : Nat) : Dev := d.complete h status 0 (locus 0 0 off)
/-- Completes a command whose data object failed a check. -/
def Dev.failObj (d : Dev) (h status off : Nat) : Dev := d.complete h status 0 (locus 9 0 off)

/-- A slot whose work runs on under an advanced generation (R396). -/
def Dev.markLate (d : Dev) (h part : Nat) : Dev := { d with host := { d.host with late := Tab.put d.host.late h part } }

/-! ## The start of a command (R352) -/

/-- Objects whose commands start in fetch order: kind and number. -/
def Cmd.object (c : Cmd) : Option (Nat × Nat) :=
  match c.op with
  | 0x20 => some (1, c.field 28 1)
  | 0x22 => some (2, c.field 28 1)
  | 0x23 => some (2, c.field 28 1)
  | 0x24 => some (2, c.field 28 1)
  | 0x40 => if c.field 36 4 = 0 then none else some (3, c.field 36 4)
  | 0x41 => some (3, c.field 28 4)
  | 0x42 => some (3, c.field 16 4)
  | 0x43 => some (3, c.field 16 4)
  | 0x44 => some (3, c.field 16 4)
  | 0x45 => if c.field 28 1 = 1 ∨ c.field 28 1 = 2 then some (3, c.field 40 4) else none
  | 0x46 => some (3, c.field 28 4)
  | 0x60 => if c.field 28 1 = 0 then none else some (4, c.field 32 4)
  | 0x61 => some (4, c.field 28 4)
  | 0x30 => some (5, c.field 36 4)
  | _ => none

/-- Whether a fetched command may start: its fence is met, and no earlier command on its object has yet to
start. -/
def Dev.startable (d : Dev) (h : Nat) (c : Cmd) : Bool :=
  !(d.host.live.any (fun e => e.1 != h && decide (e.2.order < c.order) &&
    ((bitOf (c.field 2 1) 0 && e.2.fn == c.fn && e.2.q == c.q) ||
     (e.2.phase == .fetched && e.2.part == c.part && c.object.isSome && e.2.object == c.object))))

/-- Runs a command that has been fetched and may start, if it is of an opcode and form. -/
def Dev.onCmd (d : Dev) (h op : Nat) (form : Cmd → Bool) (act : Cmd → Dev → Dev) : Dev :=
  match d.cmd h with
  | none => d
  | some c => if c.op = op ∧ form c ∧ c.phase = .fetched ∧ d.startable h c then act c d else d

/-- The outcome of a command row. -/
def runCmd (h op : Nat) (form : Cmd → Bool) (s : State) (act : Cmd → Dev → Dev) :
    Host.Outcome State Fault Refusal :=
  .next (whenUp s (fun d => d.onCmd h op form act))

/-- Any form of a command. -/
def anyForm (_ : Cmd) : Bool := true

/-- The checks of R5 on the bytes a command does not use: spans of whole bytes. -/
def rsvBytes (c : Cmd) (spans : List (Nat × Nat)) : List (Nat × Nat × Bool) :=
  spans.flatMap (fun s => (List.range s.2).map (fun i => (s.1 + i, stInvalid, c.field (s.1 + i) 1 != 0)))

/-- A command's field checks: the first failure in ascending offset, or the effect. -/
def Dev.checked (d : Dev) (h : Nat) (cs : List (Nat × Nat × Bool)) (act : Dev → Dev) : Dev :=
  match firstFail cs with
  | some f => d.failAt h f.1 f.2
  | none => act d

/-- Marks a command as running. -/
def Dev.running (d : Dev) (h : Nat) : Dev := d.modCmd h (fun c => { c with phase := .running })

/-! ## Data objects and out areas (R354, R386) -/

/-- Whether a device extent overlaps a weight region. -/
def Part.hitsWeights (x : Part) (a n : Nat) : Bool :=
  decide (0 < n) && x.regions.any (fun e => e.2.key.isSome && decide (e.2.addr < a + n) && decide (a < e.2.addr + e.2.bytes))

/-- What keeps an extent from being a data object or an out area. -/
def Part.areaFail (x : Part) (dev : Bool) (a n : Nat) : Option Nat :=
  if dev then
    (if wideAddr a then some stInvalid else if x.extent a n = .outside then some stPartition else if x.hitsWeights a n then some stAuth else none)
  else if 2 ^ 64 < a + n then some stPartition else none

/-- Reads a command's data object and goes on with its bytes. An object in cold pages waits for them, the
command staying as it was fetched. -/
def Dev.withObject (d : Dev) (h : Nat) (c : Cmd) (n : Nat) (data : Bytes) (act : Bytes → Dev → Dev) : Dev :=
  let dev := bitOf (c.field 2 1) 1
  let a := c.field 16 8
  let p := c.part
  match (d.part p).areaFail dev a n with
  | some st => if n = 0 then act [] d else d.failAt h st 16
  | none =>
    if !dev then act (data.take n ++ List.replicate (n - data.length) 0) d
    else
      let cold := (d.part p).lacking h a n
      if !cold.isEmpty then d.ask p h cold (((d.part p).dieList).headD 0)
      else if d.ioWay p a n = 2 then (d.modPart p (fun x => x.unask h)).complete h stDeviceFault 0 0
      else if d.ioWay p a n = 1 || d.extentHeld p a n then d
      else
        let r := d.devRead p a n 0
        let e := (r.2.ioCarried p a n true).modPart p (fun x => x.unask h)
        if !d.affords r.2 then d
        else if poisoned r.1 then e.complete h stDeviceFault 0 0 else act (plain r.1) e

/-- Checks a command's out area at the field of its address, brings its pages in, and goes on. -/
def Dev.withOut (d : Dev) (h : Nat) (c : Cmd) (off n : Nat) (act : (Bytes → Dev → Dev) → Dev → Dev) : Dev :=
  let dev := bitOf (c.field 2 1) 2
  let a := c.field off 8
  match (d.part c.part).areaFail dev a n with
  | some st => if n = 0 then act (fun _ d => d) d else d.failAt h st off
  | none =>
    let cold := if dev then (d.part c.part).lacking h a n else []
    if !cold.isEmpty then d.ask c.part h cold (((d.part c.part).dieList).headD 0)
    else if dev && d.ioWay c.part a n == 2 then (d.modPart c.part (fun x => x.unask h)).complete h stDeviceFault 0 0
    else if dev && (d.ioWay c.part a n == 1 || d.extentHeld c.part a n || d.staleExtent c.part a n) then d
    else act (fun bs d =>
      let e := d.writeOut c.fn dev a bs
      if dev then e.modPart c.part (fun x => x.unask h) else e) d

/-! ## EVENT entries (R356) -/

/-- An EVENT entry without its phase bit. -/
def eventEntry (e : EventEnt) (lost : Nat) : Bytes :=
  natLE 1 3 ++ natLE 1 0 ++ natLE 2 e.code ++ natLE 4 lost ++ natLE 8 e.stamp ++ natLE 8 e.d0 ++ natLE 8 e.d1

/-- The lowest-numbered ENABLED queue that takes EVENT entries. -/
def Fn.eventQueue (x : Fn) : Option Nat := (x.qps.find? (fun e => e.2.state == 1 && e.2.eventEn)).map (·.1)

/-- Writes the oldest waiting EVENT of a function, if a queue has a free entry for it. -/
def Dev.flushOne (d : Dev) (f : Nat) : Dev :=
  let x := d.fn f
  match x.events, x.eventQueue with
  | e :: rest, some q =>
    if (x.qp q).cqFree = 0 then d
    else (d.modFn f (fun y => { y with events := rest, lost := 0 })).cqPut f q (eventEntry e x.lost) true
  | _, _ => d

/-- Writes what can be written of every function's waiting EVENTs. -/
def Dev.flushEvents (d : Dev) : Dev :=
  d.host.fns.foldl (fun d e => (List.range e.2.events.length).foldl (fun d _ => d.flushOne e.1) d) d

end Sys2Proof.Machine
end

