-- ==== Sys2Proof/Machine/Tile.lean ====
section
/-!
DEFINITION. The arithmetic of one attempt of the array and the bound unit (R109 to R124): operand
presentation at each rung, grouped accumulation, the bound, the flag test, and the drain.
-/

namespace Sys2Proof.Machine

/-- An operand as one attempt presents it: element `k` of line `i` with its scale, and the magnitudes M
and R of segment `g` of line `i` (R121). -/
structure Opnd where
  elem : Nat → Nat → Val
  scale : Nat → Nat → Val
  m : Nat → Nat → Val
  r : Nat → Nat → Val

/-- The magnitude of a stored statistic or scale, NaN taken as +∞ (R121). -/
def mag (v : Val) : Val :=
  match v with
  | .nan => .inf false
  | v => v.abs

/-- A product in which +∞ times 0 is +∞ (R122). -/
def bmul (a b : Val) : Val :=
  match a, b with
  | .inf _, _ => .inf false
  | _, .inf _ => .inf false
  | a, b => a.mul b

/-- An FP16 field read exactly. -/
def d16 (c : Nat) : Val := fFP16.decode c

/-! ## Operands as given -/

/-- The planes of an operand of the array: where each line's elements, scales, statistics and row scale
lie in the bytes `a`. -/
structure Planes where
  a : Array Nat
  fmt : Nat
  line : Nat → Nat            -- first byte of a line's elements
  scale : Nat → Nat → Nat     -- byte of the scale of a line's element
  stat : Nat → Nat → Nat      -- byte of the statistics record of a line's segment
  row : Nat → Nat             -- byte of a line's row scale
  elem : Nat → Nat → Nat      -- code of a line's element

/-- The planes of a 128-line operand area (R111, R432). -/
def operandPlanes (sp : Mem) (off f kb : Nat) (trans : Bool) : Planes :=
  let n := operandBytes f kb trans
  let a := Mem.arr sp off (n + 4)
  let w := fmtBits f
  let P := linePitch f kb
  let s0 := 128 * P
  let t0 := s0 + scalePlane f kb
  let r0 := t0 + statPlane f kb
  let per := if fmtVb4 f then 8 * kb else 4 * kb
  { a := a, fmt := f
    line := fun i => i * P
    scale := fun i k => s0 + i * per + k / (if fmtVb4 f then 16 else 32)
    stat := fun i g => t0 + (if fmtVb4 f then (i * (2 * kb) + g / 2) * 4 else (i * (4 * kb) + g) * 4)
    row := fun i => r0 + 4 * i
    elem := fun i k => if trans then bitsAt a (k * 16 * w) w i else bitsAt a (i * P) w k }

/-- The exact scale of an element, row scale included; 1 for a plain format. -/
def Planes.scaleVal (x : Planes) (i k : Nat) : Val :=
  if fmtVb4 x.fmt then (d32 (natAt x.a (x.row i) 4)).mul (ue5m3 (x.a.getD (x.scale i k) 0))
  else if fmtMx x.fmt then e8m0 (x.a.getD (x.scale i k) 0)
  else vNat 1

/-- The factor of a statistic: the block scale of MX, the row scale of VB4. -/
def Planes.statScale (x : Planes) (i g : Nat) : Val :=
  if fmtVb4 x.fmt then d32 (natAt x.a (x.row i) 4) else e8m0 (x.a.getD (x.scale i (32 * g)) 0)

/-- The recorded m of a segment. -/
def Planes.mOf (x : Planes) (i g : Nat) : Val := mag (d16 (natAt x.a (x.stat i g) 2))
/-- The recorded r of a segment. -/
def Planes.rOf (x : Planes) (i g : Nat) : Val := mag (d16 (natAt x.a (x.stat i g + 2) 2))

/-- An operand as given (R119, R121). -/
def Planes.given (x : Planes) : Opnd where
  elem := fun i k => elemVal x.fmt (x.elem i k)
  scale := x.scaleVal
  m := fun i g => ru (bmul (mag (x.statScale i g)) (x.mOf i g))
  r := fun i g => ru (bmul (mag (x.statScale i g)) (x.rOf i g))

/-- M of an operand presented exactly: main plane or wide copy (R121). -/
def Planes.exactM (x : Planes) (i g : Nat) : Val :=
  ru (bmul (mag (x.statScale i g)) (ru (Val.add .near (x.mOf i g) (x.rOf i g))))

/-- Main plus residual: v ÷ S = q_main + q_res ÷ 8 (R117). -/
def Planes.withResid (x : Planes) (res : Nat → Nat → Nat) : Opnd where
  elem := fun i k => Val.add .near (elemVal x.fmt (x.elem i k)) ((vInt (signed 4 (res i k))).shift (-3))
  scale := x.scaleVal
  m := x.exactM
  r := fun _ _ => vZero false

/-- A wide copy read exactly (rung 3): its statistics are those of the operand as given (R121). -/
def Planes.wide (x : Planes) (src : Nat → Nat → Val) : Opnd where
  elem := src
  scale := fun _ _ => vNat 1
  m := x.exactM
  r := fun _ _ => vZero false

/-- A source converted on load to an MX format (R119): blocks of 32 quantized under R113. -/
def onLoad (f : Nat) (lines segs : Nat) (src : Nat → Nat → Val) : Opnd :=
  let blocks : Array (Array QBlock) := ((List.range lines).map (fun i =>
    ((List.range segs).map (fun g =>
      quantMx f ((List.range 32).map (fun j => src i (32 * g + j))))).toArray)).toArray
  let blk := fun i g => ((blocks.getD i #[]).getD g (QBlock.bad 32))
  { elem := fun i k => elemVal f ((blk i (k / 32)).codes.getD (k % 32) 0)
    scale := fun i k => e8m0 (blk i (k / 32)).scale
    m := fun i g => ru (bmul (mag (e8m0 (blk i g).scale)) (mag (d16 (blk i g).m)))
    r := fun i g => ru (bmul (mag (e8m0 (blk i g).scale)) (mag (d16 (blk i g).r))) }

/-- An operand at rung `j`, above its start rung or at it (R119): `given` at the start rung; otherwise
converted on load from the source, or exact. -/
def atRung (x : Planes) (start j lines segs : Nat) (wide : Option (Nat → Nat → Val))
    (res : Option (Nat → Nat → Nat)) : Opnd :=
  if j ≤ start then x.given
  else match res with
    | some r =>
      let v := x.withResid r
      if j = 1 then onLoad 0x02 lines segs (fun i k => (v.scale i k).mul (v.elem i k)) else v
    | none => match wide with
      | some s => if j = 1 then onLoad 0x02 lines segs s
                  else if j = 2 then onLoad 0x04 lines segs s
                  else x.wide s
      | none => x.given

/-! ## Accumulation (R118) -/

/-- The exact sum of a group of 16 products, in element units. -/
def groupSum (a b : Opnd) (i j g : Nat) : Val :=
  (List.range 16).foldl
    (fun s t => Val.add .near s ((a.elem i (16 * g + t)).mul (b.elem j (16 * g + t)))) (vZero false)

/-- One group's FP32 value: the exact sum times both scales, rounded once. -/
def groupVal (a b : Opnd) (i j g : Nat) : Nat :=
  r32 .near (((groupSum a b i j g).mul (a.scale i (16 * g))).mul (b.scale j (16 * g)))

/-- Sorts terms by their keys: the order that R118 leaves open. -/
def accOrder (ts : List (Nat × Nat)) : List Nat :=
  (ts.mergeSort (fun x y => decide (x.1 ≤ y.1))).map (·.2)

/-- Adds FP32 terms to a start in the order of the drawn key. -/
def sumTerms (start : Nat) (key : Nat) (ts : List Nat) : Nat :=
  (accOrder (ts.zipIdx.map (fun t => (Config.accKey key t.2, t.1)))).foldl add32 start

/-- A cell of the float product over `k` elements, added to `before`. With `term`, what the accumulator
held before the operation is one more term of the open order. -/
def floatCell (a b : Opnd) (i j k key : Nat) (term : Bool) (before : Nat) : Nat :=
  let gs := (List.range (k / 16)).map (fun g => groupVal a b i j g)
  if term then sumTerms 0 key (before :: gs) else sumTerms before key gs

/-- A cell of an integer product, wrapping modulo 2^32. -/
def intCell (ea eb : Nat → Int) (k : Nat) (before : Nat) : Nat :=
  let s := (List.range k).foldl (fun (acc : Int) t => acc + ea t * eb t) (before : Int)
  (s % (2 ^ 32 : Int)).toNat

/-! ## The bound and the flag test (R122 to R124) -/

/-- q and w of an element, segments in ascending order. -/
def boundQW (a b : Opnd) (i j segs : Nat) (q0 w0 : Val) : Val × Val :=
  (List.range segs).foldl
    (fun (qw : Val × Val) g =>
      let ma := a.m i g
      let ra := a.r i g
      let mb := b.m j g
      let rb := b.r j g
      let t := ru (Val.add .near (ru (bmul ma rb)) (ru (bmul ra mb)))
      let t := ru (Val.add .near t (ru (bmul ra rb)))
      (ru (Val.add .near qw.1 (ru (bmul (vNat 32) t))),
       ru (Val.add .near qw.2 (ru (bmul (vNat 32) (ru (bmul ma mb))))))) (q0, w0)

/-- E from q, w and n. -/
def boundE (q w : Val) (n : Nat) : Val :=
  let g := Val.fin false n (-24)
  let gn := ru ((ru g).div (rd (Val.add .near (vNat 1) g.neg)))
  ru (Val.add .near (ru (Val.add .near q (ru (bmul gn w)))) (ru (.fin false n (-149))))

/-- The threshold of an element. -/
def threshold (tau alpha c : Nat) : Val :=
  rd (Val.add .near (rd ((d16 tau).mul (d32 c).abs)) (d16 alpha))

/-- Whether an element exceeds its threshold. -/
def exceeds (e thr c : Val) : Bool := thr.lt e || e == .inf false || !c.isFin

/-- Whether E1 ÷ thr1 is larger than E2 ÷ thr2; a zero threshold makes the largest quotient. -/
def worse (e1 t1 e2 t2 : Val) : Bool :=
  if t2.isZero || e2 == .inf false then false
  else if t1.isZero || e1 == .inf false then true
  else (bmul e2 t1).lt (bmul e1 t2)

/-- What one attempt leaves: the accumulator, whether some C or E is not finite, and the flag test. -/
structure Attempt where
  acc : Acc
  nonfinite : Bool
  exceeding : Nat
  worstE : Nat
  worstThr : Nat
  worstElem : Nat
  deriving DecidableEq, Repr

/-- The table of the nonzero numbers of a list. -/
def sparse (l : List Nat) : Tab Nat := l.zipIdx.filterMap (fun x => if x.1 = 0 then none else some (x.2, x.1))

/-- A 128 × 128 table as an array. -/
def dense (t : Tab Nat) : Array Nat :=
  t.foldl (fun a e => a.setIfInBounds e.1 e.2) (Array.replicate 16384 0)

/-- The flag test over a finished attempt (R124): `ws` are the E codes. -/
def flagTest (tau alpha : Nat) (cells es : Array Nat) : Bool × Nat × Nat × Nat × Nat :=
  (List.range 16384).foldl
    (fun (s : Bool × Nat × Nat × Nat × Nat) x =>
      let c := cells.getD x 0
      let e := es.getD x 0
      let thr := threshold tau alpha c
      let ex := exceeds (d32 e) thr (d32 c)
      let first := x == 0
      let w := first || worse (d32 e) thr (d32 s.2.2.1) (d32 s.2.2.2.1)
      (s.1 || !(d32 e).isFin || !(d32 c).isFin, s.2.1 + b2n ex,
       if w then e else s.2.2.1, if w then r32 .down thr else s.2.2.2.1, if w then x else s.2.2.2.2))
    (false, 0, 0, 0, 0)

/-- One attempt of a float product over a list of taps (one for mm.tile), in ascending order. `taps` gives
each tap's operands and its reduction depth. `bounded` says that both operands are block formats. -/
def attemptFloat (taps : List (Opnd × Opnd × Nat)) (before : Acc) (accumulate bounded : Bool)
    (tau alpha key : Nat) : Attempt :=
  let c0 := dense before.cells
  let q0 := dense before.q
  let w0 := dense before.w
  let n := (if accumulate then before.n else 1) + (taps.map (fun t => t.2.2 / 16)).foldl (· + ·) 0
  let cell := fun x =>
    let i := x / 128
    let j := x % 128
    taps.zipIdx.foldl
      (fun (s : Nat) t =>
        floatCell t.1.1 t.1.2.1 i j t.1.2.2 (key * 16384 * 1024 + x * 1024 + t.2) (t.2 == 0 && accumulate) s)
      (if accumulate then c0.getD x 0 else 0)
  let bound := fun x =>
    let i := x / 128
    let j := x % 128
    let s := if accumulate then (d32 (q0.getD x 0), d32 (w0.getD x 0)) else (vZero false, vZero false)
    if bounded then taps.foldl (fun (s : Val × Val) t => boundQW t.1 t.2.1 i j (t.2.2 / 32) s.1 s.2) s else s
  let cells := (List.range 16384).map cell
  let qws := (List.range 16384).map bound
  let es := qws.map (fun s => r32 .up (boundE s.1 s.2 n))
  let fl := if bounded then flagTest tau alpha cells.toArray es.toArray else (false, 0, 0, 0, 0)
  ⟨⟨false, sparse cells, sparse (qws.map (fun s => r32 .up s.1)), sparse (qws.map (fun s => r32 .up s.2)), n⟩,
   fl.1, fl.2.1, fl.2.2.1, fl.2.2.2.1, fl.2.2.2.2⟩

/-- The product of integer operands over taps. -/
def attemptInt (taps : List (Opnd × Opnd × Nat)) (ia ib : Nat → Nat → Nat → Int) (before : Acc)
    (accumulate : Bool) : Attempt :=
  let c0 := dense before.cells
  let q0 := if accumulate then before.q else []
  let w0 := if accumulate then before.w else []
  let n := (if accumulate then before.n else 1) + (taps.map (fun t => t.2.2 / 16)).foldl (· + ·) 0
  let cells := (List.range 16384).map (fun x =>
    taps.zipIdx.foldl (fun s t => intCell (ia t.2 (x / 128)) (ib t.2 (x % 128)) t.1.2.2 s)
      (if accumulate then c0.getD x 0 else 0))
  ⟨⟨true, sparse cells, q0, w0, n⟩, false, 0, 0, 0, 0⟩

/-! ## The drain (R48, R86, R90, R134) -/

/-- One drained element: out_scale times the cell, rounded once to out_fmt; INT32 as it is. -/
def drainCell (isInt : Bool) (outFmt outScale c : Nat) : Nat :=
  if outFmt = 0x11 then c
  else
    let v := if isInt then vInt (signed 32 c) else d32 c
    let ff := floatFmt outFmt
    ff.round .near false ff.nanCode (v.mul (d32 outScale))

/-- The bytes of a drained accumulator: 128 rows of 128 elements (R432). -/
def drainBytes (x : Acc) (outFmt outScale : Nat) : Bytes :=
  let cells := dense x.cells
  packCodes (fmtBits outFmt) ((List.range 16384).map (fun i => drainCell x.isInt outFmt outScale (cells.getD i 0)))

/-- A core's accumulator. -/
def Core.acc (k : Core) (sel : Nat) : Acc := if sel = 0 then k.acc0 else k.acc1
/-- Sets a core's accumulator. -/
def Core.setAcc (k : Core) (sel : Nat) (x : Acc) : Core := if sel = 0 then { k with acc0 := x } else { k with acc1 := x }

end Sys2Proof.Machine
end

