-- ==== Sys2Proof/Machine/Matrix.lean ====
section
/-!
DEFINITION. mm. operations: the product, the climb of the ladder with its budget and records
(R86 to R90, R118 to R131, R173 to R182), and the landing of a residual plane (R126).
-/

namespace Sys2Proof.Machine

/-- What an mm.tile or mm.conv word asks for, and how one attempt at a rung computes: from the scratchpad,
the accumulator before the operation and a drawn key. -/
structure MmJob where
  startRung : Nat
  escMax : Nat
  flagCount : Nat
  bounded : Bool
  accSel : Nat
  outFmt : Nat
  outScale : Nat
  kTotal : Nat
  residLanding : Bool
  attempt : Nat → Mem → Acc → Nat → Attempt

/-- Reads a line-major BF16 copy. -/
def wideElem (a : Array Nat) (pitch i k : Nat) : Val := fBF16.decode (natAt a (i * pitch + 2 * k) 2)

/-- The integer of a plain integer element. -/
def Planes.int (x : Planes) (i k : Nat) : Int := signed (fmtBits x.fmt) (x.elem i k)

/-- The job of a mm.tile word (R86, R87). -/
def tileJob (regs : Tab Nat) (w : Bytes) : MmJob :=
  let kb := fieldOf w 40 2
  let af := fieldOf w 42 1
  let bf := fieldOf w 43 1
  let fl := fieldOf w 45 1
  let ref := fun b => spAt regs (fieldOf w b 4)
  let has := fun b => !spAbsent (fieldOf w b 4)
  let start := max (rungOf af) (rungOf bf)
  let bounded := fmtBlock af && fmtBlock bf
  { startRung := start
    escMax := bitsOf (fieldOf w 46 1) 1 0
    flagCount := fieldOf w 52 2
    bounded := bounded
    accSel := bitsOf fl 0 0
    outFmt := fieldOf w 44 1
    outScale := fieldOf w 56 4
    kTotal := 128 * kb
    residLanding := bitOf fl 4
    attempt := fun j sp before key =>
      let a := operandPlanes sp (ref 16) af kb (bitOf fl 2)
      let b := operandPlanes sp (ref 20) bf kb (bitOf fl 3)
      if fmtInt af then attemptInt [(a.given, b.given, 128 * kb)] (fun _ => a.int) (fun _ => b.int) before (bitOf fl 1)
      else
        let aw := Mem.arr sp (ref 28) (wideBytes kb)
        let bw := Mem.arr sp (ref 60) (wideBytes kb)
        let res := Mem.arr sp (ref 60) (residBytes kb + 4)
        let A := atRung a start j 128 (4 * kb) (if has 28 then some (wideElem aw (256 * kb)) else none) none
        let B := atRung b start j 128 (4 * kb)
          (if has 60 && !bitOf fl 4 then some (wideElem bw (256 * kb)) else none)
          (if bitOf fl 4 then some (fun i k => bitsAt res (i * linePitch 0x0B kb) 4 k) else none)
        attemptFloat [(A, B, 128 * kb)] before (bitOf fl 1) bounded (fieldOf w 48 2) (fieldOf w 50 2) key }

/-- The input of one tap of a mm.conv as an operand of 128 positions (R173, R176). -/
def convPlanes (a : Array Nat) (g : ConvGeo) (w : Bytes) (it ih iw : Nat) : Planes :=
  let f := fieldOf w 48 1
  let bits := fmtBits f
  let strideW := bitsOf (fieldOf w 38 1) 3 0
  let row := it * bitsOf (fieldOf w 38 1) 7 4 * fieldOf w 44 4 + ih * bitsOf (fieldOf w 39 1) 3 0 * fieldOf w 40 4
  let pos := fun p => p * strideW + iw * bitsOf (fieldOf w 39 1) 7 4
  let s0 := roundUp (ceilDiv (g.wIn * g.cblk * bits) 8) 128
  let t0 := s0 + roundUp g.wIn 128
  { a := a, fmt := f
    line := fun p => row + pos p * g.cblk * bits / 8
    scale := fun p k => row + (k / g.cblk) * g.seg + s0 + pos p
    stat := fun p s => row + s * g.seg + t0 + 4 * pos p
    row := fun _ => 0
    elem := fun p k => bitsAt a (row + (k / g.cblk) * g.seg + pos p * g.cblk * bits / 8) bits (k % g.cblk) }

/-- An element of the wide copy of a mm.conv window (R179). -/
def convWide (a : Array Nat) (g : ConvGeo) (w : Bytes) (it ih iw p k : Nat) : Val :=
  let rowB := g.nseg * g.wideSeg
  let x := p * bitsOf (fieldOf w 38 1) 3 0 + iw * bitsOf (fieldOf w 39 1) 7 4
  let o := it * bitsOf (fieldOf w 38 1) 7 4 * (g.hIn * rowB) + ih * bitsOf (fieldOf w 39 1) 3 0 * rowB +
    (k / g.cblk) * g.wideSeg + x * g.cblk * 2 + 2 * (k % g.cblk)
  fBF16.decode (natAt a o 2)

/-- The job of a mm.conv word (R89, R173 to R182). -/
def convJob (regs : Tab Nat) (w : Bytes) : MmJob :=
  let cb := fieldOf w 32 2
  let kh := fieldOf w 35 1
  let kw := fieldOf w 36 1
  let xf := fieldOf w 48 1
  let ff := fieldOf w 49 1
  let m := fieldOf w 51 1
  let g := convGeo w
  let ref := fun b => spAt regs (fieldOf w b 4)
  let start := max (rungOf xf) (rungOf ff)
  let bounded := fmtBlock xf && fmtBlock ff
  let tapB := operandBytes ff cb false
  { startRung := start
    escMax := bitsOf m 5 4
    flagCount := fieldOf w 56 2
    bounded := bounded
    accSel := bitsOf m 0 0
    outFmt := fieldOf w 50 1
    outScale := fieldOf w 58 4
    kTotal := 128 * cb * g.taps
    residLanding := false
    attempt := fun j sp before key =>
      let win := Mem.arr sp (ref 16) ((g.tIn - 1) * fieldOf w 44 4 + (g.hIn - 1) * fieldOf w 40 4 + g.nseg * g.seg + 4)
      let wide := Mem.arr sp (ref 28) (g.tIn * g.hIn * g.nseg * g.wideSeg)
      let tapOf := fun t =>
        let it := t / (kh * kw)
        let ih := t / kw % kh
        let iw := t % kw
        let x := convPlanes win g w it ih iw
        let f := operandPlanes sp (ref 20 + t * tapB) ff cb false
        (x, f, it, ih, iw, t)
      let taps := (List.range g.taps).map tapOf
      if fmtInt xf then
        attemptInt (taps.map (fun t => (t.1.given, t.2.1.given, 128 * cb)))
          (fun t => (tapOf t).1.int) (fun t => (tapOf t).2.1.int) before (bitOf m 1)
      else
        attemptFloat (taps.map (fun t =>
          let res := Mem.arr sp (ref 20 + g.taps * tapB + t.2.2.2.2.2 * residBytes cb) (residBytes cb + 4)
          (atRung t.1 start j 128 (4 * cb)
             (if spAbsent (fieldOf w 28 4) then none else some (convWide wide g w t.2.2.1 t.2.2.2.1 t.2.2.2.2.1)) none,
           atRung t.2.1 start j 128 (4 * cb) none
             (some (fun i k => bitsAt res (i * linePitch 0x0B cb) 4 k)),
           128 * cb))) before (bitOf m 1) bounded (fieldOf w 52 2) (fieldOf w 54 2) key }

/-! ## Budget and records (R125 to R132) -/

/-- The first cluster of a stage: the lowest cluster number on its lowest die (R75). -/
def Stage.firstCluster (y : Stage) : Nat := clusterOfCore ((y.cores.foldl min 255))

/-- The stage's budget in the window (R128). -/
def stageBudget (y : Stage) (r : StageRun) : Nat :=
  y.budgetPm * (if y.tiles != 0 then y.tiles else r.issuedPrev) / 1000

/-- A detail of 32 bytes of a NARROW, CEILING or LAYER record (R132). -/
def escDetail (startR finalR escMax : Nat) (layer nonfinite abandoned : Bool)
    (exceeding worstE worstThr worstElem repeats budget claimed layerWord : Nat) : Bytes :=
  natLE 1 (startR + 4 * finalR + 16 * escMax + 64 * b2n layer) ++
  natLE 1 (b2n nonfinite + 2 * b2n abandoned) ++
  natLE 2 exceeding ++ natLE 4 worstE ++ natLE 4 worstThr ++ natLE 2 worstElem ++ natLE 2 repeats ++
  natLE 4 budget ++ natLE 4 claimed ++ natLE 8 layerWord

/-- Nothing counted. -/
def StageRun.zero : StageRun := ⟨0, 0, 0, 0, 0, false, 0, false⟩

/-- What a stage has counted in its run. -/
def Run.stageOf (r : Run) (i : Nat) : StageRun := r.stages.getD i StageRun.zero

/-- Changes what a stage has counted in its run. -/
def Dev.modStage (d : Dev) (p slot st : Nat) (f : StageRun → StageRun) : Dev :=
  d.modPart p (fun x => x.modPipe slot (fun y => y.modRun (fun r =>
    { r with stages := r.stages.zipIdx.map (fun e => if e.2 == st then f e.1 else e.1) })))

/-- How a climb ended: the step of R125 and its record's fields. -/
inductive ClimbEnd where
  | ok
  | ceiling (nonfinite : Bool)
  | narrow (budget claimed : Nat) (abandoned : Bool)
  deriving DecidableEq, Repr

/-- Adds the records of a climb's end; true when every one has been placed. -/
def Dev.climbRecords (d : Dev) (c id word dbg : Nat) (j : MmJob) (final repeats : Nat) (a : Attempt)
    (e : ClimbEnd) : Bool × Dev :=
  match d.coreRun c with
  | none => (true, d)
  | some (p, slot, st, _, y) =>
    let det := fun nonf ab bud cl lw => escDetail j.startRung final j.escMax y.layer nonf ab a.exceeding
      a.worstE a.worstThr a.worstElem repeats bud cl lw
    match e with
    | .ok => (true, d)
    | .narrow bud cl ab =>
      let d := d.modStage p slot st (fun r => { r with narrow := r.narrow + 1 })
      d.ledgerAdd p (d.opRecord c 1 word id dbg (det false ab bud cl 0))
    | .ceiling nonf =>
      let d := d.modStage p slot st (fun r => { r with narrow := r.narrow + 1 })
      let r1 := d.ledgerAdd p (d.opRecord c 2 word id dbg (det nonf false 0 0 0))
      if !y.layer then r1
      else
        let cl := y.firstCluster
        let v := (Mem.nat (r1.2.cluster cl).mem y.layerWord 8 + 1) % 2 ^ 64
        let d := r1.2.modCluster cl (fun x => { x with mem := Mem.putNat x.mem y.layerWord 8 v })
        let r2 := d.ledgerAdd p (d.opRecord c 3 word id dbg (det false false 0 0 v))
        (r1.1 && r2.1, r2.2)

/-- The job of an mm. word. -/
def mmJob (regs : Tab Nat) (w : Bytes) : MmJob := if opCode w = 1 then tileJob regs w else convJob regs w

/-- The tc that one repeat at a rung adds to escalation_tc: K ÷ rate cc at 1.8 cc per tc. -/
def repeatTc (kTotal rung : Nat) : Nat := (if rung = 3 then 2 * kTotal else kTotal) * 5 / 9

/-- Finishes an mm. operation in the window: accumulator, drain, records and status. -/
def Dev.mmFinish (d : Dev) (c id word : Nat) (w : Bytes) (j : MmJob) (rung repeats : Nat) (a : Attempt)
    (e : ClimbEnd) : Dev :=
  let d := d.modCore c (fun k =>
    let k := k.setAcc j.accSel a.acc
    let k := if spAbsent (fieldOf w 24 4) then k
      else { k with sp := Mem.write k.sp (spAt k.aregs (fieldOf w 24 4)) (drainBytes a.acc j.outFmt j.outScale) }
    { k with climb := none })
  let r := d.climbRecords c id word (opDebugTag w) j rung repeats a e
  let d := r.2.settle c id (if e = .ok then stOK else stQuality) (decide (0 < repeats))
  if r.1 then d else d.setWait c id .ledger

/-- Whether the flag test of an attempt asks for a climb (R124, R125). -/
def MmJob.flagged (j : MmJob) (a : Attempt) : Bool := j.bounded && decide (j.flagCount < a.exceeding)

/-- The climb that a flagged attempt leaves to its end. -/
def climbOf (id rung repeats : Nat) (landed : Bool) (before : Acc) (a : Attempt) : Climb where
  op := id
  rung := rung
  repeats := repeats
  landed := landed
  lent := []
  before := before
  attempt := a.acc
  nonfinite := a.nonfinite
  exceeding := a.exceeding
  worstE := a.worstE
  worstThr := a.worstThr
  worstElem := a.worstElem

/-- The attempt a climb stands at. -/
def Climb.last (cl : Climb) : Attempt := ⟨cl.attempt, cl.nonfinite, cl.exceeding, cl.worstE, cl.worstThr, cl.worstElem⟩

/-- What an attempt leaves: a result when it is not flagged, else a climb that is decided at the attempt's end. -/
def Dev.mmAttempt (d : Dev) (c id word : Nat) (w : Bytes) (j : MmJob) (before : Acc) (landed : Bool)
    (rung repeats : Nat) (a : Attempt) : Dev :=
  if j.flagged a then
    (d.modCore c (fun k => { k with climb := some (climbOf id rung repeats landed before a) })).setWait c id .climb
  else d.mmFinish c id word w j rung repeats a .ok

/-- The repeat of a climb at the next rung, from the accumulator before the operation (R125). -/
def Dev.mmRepeat (d : Dev) (c word : Nat) (w : Bytes) (j : MmJob) (cl : Climb) (landed : Bool) : Dev :=
  let q := d.draw
  let a := j.attempt (cl.rung + 1) (q.2.core c).sp cl.before q.1
  q.2.mmAttempt c cl.op word w j cl.before landed (cl.rung + 1) (cl.repeats + 1) a

/-- Whether a flagged attempt climbs no further by steps 1 and 2 of R125: the CEILING record it adds. -/
def ceilingOf (j : MmJob) (layer : Bool) (cl : Climb) : Option ClimbEnd :=
  if cl.nonfinite then some (.ceiling true)
  else if j.escMax ≤ cl.rung ∨ (if layer then j.startRung + 1 else 3) < cl.rung + 1 then some (.ceiling false)
  else none

/-- The end of a flagged attempt of operation `e` (R125, R127): no climb, a stage abandoned or stopped, the budget
refused, the residual plane to be fetched, or the repeat at the next rung. -/
def Dev.climbOn (d : Dev) (c : Nat) (e : Issued) : Dev :=
  let k := d.core c
  let w := e.bytes
  let j := mmJob k.aregs w
  match k.climb with
  | none => d
  | some cl => match d.coreRun c with
    | none => d.mmFinish c cl.op e.word w j cl.rung cl.repeats cl.last .ok
    | some (p, slot, st, x, y) =>
      let bud := stageBudget y ((x.run.map (fun r => r.stageOf st)).getD StageRun.zero)
      match ceilingOf j y.layer cl with
      | some z => d.mmFinish c cl.op e.word w j cl.rung cl.repeats cl.last z
      | none =>
        if k.phase ≠ .running then d.mmFinish c cl.op e.word w j cl.rung cl.repeats cl.last (.narrow bud 0 true)
        else
          let key := 64 * slot + st
          let v := Tab.getD (d.cluster y.firstCluster).budget key 0
          let d := d.modCluster y.firstCluster (fun k => { k with budget := Tab.put k.budget key (v + 1) })
          if bud ≤ v then d.mmFinish c cl.op e.word w j cl.rung cl.repeats cl.last (.narrow bud v false)
          else
            let d := (d.ledgerCount p 0 1).modStage p slot st (fun r => { r with escalated := r.escalated + 1 })
            let d := d.modCore c (fun k => { k with causes :=
              { k.causes with escalation := k.causes.escalation + repeatTc j.kTotal (cl.rung + 1) } })
            if j.residLanding && !cl.landed then d.setWait c cl.op .residual
            else d.mmRepeat c e.word w j cl cl.landed

/-- Starts an mm.tile or mm.conv: the first attempt and what follows from it. -/
def Dev.mmStart (d : Dev) (c : Nat) (w : Bytes) : Dev :=
  let k := d.core c
  let j := mmJob k.aregs w
  if j.kTotal = 0 then d.pushEmpty c w
  else
    let accumulate := bitOf (fieldOf w (if opCode w = 1 then 45 else 51) 1) 1
    let before := k.acc j.accSel
    let isInt := fmtInt (fieldOf w (if opCode w = 1 then 42 else 48) 1)
    if accumulate && before.isInt != isInt then d.faultCore c stInvalid k.pc (opDebugTag w)
    else
      let d := match k.run with
        | some (p, slot, st) => d.modStage p slot st (fun r => { r with issued := r.issued + 1 })
        | none => d
      let id := d.nextOp c
      let word := k.pc
      let d := d.pushOp c w stOK false .climb
      let q := d.draw
      let a := j.attempt j.startRung k.sp before q.1
      q.2.mmAttempt c id word w j before false j.startRung 0 a

/-- What OPERATION_COMPLETE finds at a place of the window: an attempt that ends in a flag, or an operation that
completes; a col.send counts its late bytes (R299). -/
def Dev.opEnds (d : Dev) (c i : Nat) : Dev :=
  match (d.core c).window[i]? with
  | some e =>
    if e.wait = .climb then d.climbOn c e
    else
      let d' := d.completeOp c i
      if (d'.core c).window.length < (d.core c).window.length then d'.lateBytes c 254 (e.sendLate d.now) else d'
  | none => d

/-- Whether the array or the quantize unit is held by a climb (R119, R126): the word must wait. -/
def Dev.whileFree (d : Dev) (c : Nat) (f : Dev → Dev) : Dev := if (d.core c).climb.isSome then d else f d

/-- MM_TILE. -/
def execMmTile (c : Nat) (s : State) : Host.Outcome State Fault Refusal :=
  issueOn c 1 1 s (fun w d => d.whileFree c (fun d => d.mmStart c w))

/-- The strides of a mm.conv that issues, which telemetry reports (R174). -/
def Core.noteStrides (k : Core) (w : Bytes) : Core :=
  { k with strides := (bitsOf (fieldOf w 37 1) 3 0, bitsOf (fieldOf w 37 1) 7 4) }

/-- MM_CONV. -/
def execMmConv (c : Nat) (s : State) : Host.Outcome State Fault Refusal :=
  issueOn c 1 2 s (fun w d => d.whileFree c (fun d => (d.modCore c (fun k => k.noteStrides w)).mmStart c w))

/-- The drain of an accumulator to the scratchpad (R90); an FP32 buffer has no INT32 form (R118). -/
def Dev.mmDrain (d : Dev) (c : Nat) (w : Bytes) : Dev :=
  let k := d.core c
  let x := k.acc (bitsOf (fieldOf w 20 1) 0 0)
  let f := fieldOf w 21 1
  if f = 0x11 ∧ !x.isInt then d.faultCore c stInvalid k.pc (opDebugTag w)
  else
    let sp := Mem.write k.sp (spAt k.aregs (fieldOf w 16 4)) (drainBytes x f (fieldOf w 24 4))
    (d.modCore c (fun k => { k with sp := sp })).pushOp c w stOK false .ready

/-- MM_DRAIN. -/
def execMmDrain (c : Nat) (s : State) : Host.Outcome State Fault Refusal :=
  issueOn c 1 3 s (fun w d => d.whileFree c (fun d => d.mmDrain c w))

end Sys2Proof.Machine
end

