-- ==== Sys2Proof/Machine/Halo.lean ====
section
/-!
DEFINITION. Halo exchange (R100, R162 to R166), the end of a descriptor (R190), and the landing of a residual
plane (R126).
-/

namespace Sys2Proof.Machine

/-! ## Where a halo lies (R162, R163) -/

/-- What an hx. operation finds: a core outside its stage, an edge stripe, or the buffer area at a place of a
cluster with its slot size. -/
inductive HaloAt where
  | outside
  | edge
  | area (cluster base slotBytes : Nat)
  deriving DecidableEq, Repr

/-- The rank a halo pairs with, if there is one. -/
def Halo.partner (h : Halo) (rank n : Nat) (fwd : Bool) : Option Nat :=
  let r : Int := (rank : Int) + (if fwd then h.delta else - h.delta)
  if h.wrap then some (r % (n : Int)).toNat
  else if r < 0 ∨ (n : Int) ≤ r then none else some r.toNat

/-- Resolves an hx. operation of a core; `put` for the producer's side. -/
def Dev.haloAt (d : Dev) (c idx : Nat) (put : Bool) : HaloAt :=
  match d.coreRun c with
  | none => .outside
  | some (_, _, st, x, y) => match x.halos[idx]? with
    | none => .outside
    | some h =>
      if st ≠ (if put then h.producer else h.consumer) then .outside
      else
        match h.partner (y.cores.idxOf c) y.cores.length put with
        | none => .edge
        | some q =>
          let consumer := if put then ((x.stages[h.consumer]?).map (fun z => z.cores.getD q c)).getD c else c
          .area (clusterOfCore consumer) (h.base + consumer % 8 * h.stride) h.slotBytes

/-- A control word of a halo's control line: flag 0, flag 1, used 0, used 1 (R163). -/
def Dev.haloWord (d : Dev) (cl base i : Nat) : Nat := Mem.nat (d.cluster cl).mem (base + 8 * i) 8

/-- Writes a control word. -/
def Dev.setHaloWord (d : Dev) (cl base i v : Nat) : Dev :=
  d.modCluster cl (fun x => { x with mem := Mem.putNat x.mem (base + 8 * i) 8 v })

/-! ## hx. operations (R164, R165) -/

/-- The transfer of an hx.put or hx.get: stream 255, rate 0 (R190's table). -/
def haloXfer (put : Bool) (sp place n : Nat) : Xfer :=
  if put then ⟨0, sp, 1, place, n, 1, 0, 0, 0, 255⟩ else ⟨1, place, 0, sp, n, 1, 0, 0, 0, 255⟩

/-- Whether the wait of an hx.put or hx.get is over. -/
def Dev.haloMet (d : Dev) (put : Bool) (cl base e : Nat) : Bool :=
  let flag := d.haloWord cl base (e % 2)
  if put then d.haloWord cl base (2 + e % 2) == flag else flag == e

/-- Moves the rows of an hx. operation that is in the window. -/
def Dev.haloGo (d : Dev) (c id : Nat) (put : Bool) (w : Bytes) (cl base slot : Nat) : Dev :=
  let e := fieldOf w 24 4
  let x := haloXfer put ((d.core c).ref w 16) (clusterPlace cl (base + 128 + e % 2 * slot)) (fieldOf w 28 4)
  let d := (d.setWait c id (.descr 1)).modCore c (fun k => k.nameStream 255 (some 0) (d.coreTc c))
  let q := d.formDescr c id x false 0 0
  q.2.giveDescr c q.1

/-- Whether an epoch is one that R165 lets an hx.put or hx.get name, by the flag of its buffer. -/
def epochLegal (put : Bool) (e flag : Nat) : Bool :=
  e != ones32 && (flag == ones64 || (if put then decide (flag < e) else decide (flag ≤ e)))

/-- Whether a word of a halo's control line cannot be corrected (R52). -/
def Dev.haloBad (d : Dev) (cl base : Nat) : Bool := !(wordsIn (d.cluster cl).bad base 32).isEmpty

/-- Issues an hx.put or hx.get: its condition is that it had to wait. -/
def Dev.haloIssue (d : Dev) (c : Nat) (put : Bool) (w : Bytes) : Dev :=
  let e := fieldOf w 24 4
  let id := d.nextOp c
  match d.haloAt c (fieldOf w 20 2) put with
  | .outside => d.faultAt c w stInvalid
  | .edge => if e = ones32 then d.faultAt c w stInvalid else d.pushEmpty c w
  | .area cl base slot =>
    if !epochLegal put e (d.haloWord cl base (e % 2)) then d.faultAt c w stInvalid
    else if fieldOf w 28 4 = 0 then d.pushEmpty c w
    else if d.wayState (dieOfCore c) (cl / 8) = 2 || d.haloBad cl base then d.pushOp c w stDeviceFault false .ready
    else if d.wayState (dieOfCore c) (cl / 8) = 0 && !(d.core c).clusterPending && d.haloMet put cl base e then
      (d.pushOp c w stOK false (.descr 1)).haloGo c id put w cl base slot
    else d.pushOp c w stOK true .halo

/-- HX_PUT. -/
def execHxPut (c : Nat) (s : State) : Host.Outcome State Fault Refusal :=
  issueOn c 8 1 s (fun w d => d.haloIssue c true w)

/-- HX_GET. -/
def execHxGet (c : Nat) (s : State) : Host.Outcome State Fault Refusal :=
  issueOn c 8 2 s (fun w d => d.haloIssue c false w)

/-- HX_FREE: the credit returns at once, unless a link on the way or an earlier access of the core to cluster memory
holds it back (R60, R283). Its bytes field names nothing that moves, so a zero there does not make it empty (DESIGN
CHOICE, log 156). -/
def execHxFree (c : Nat) (s : State) : Host.Outcome State Fault Refusal :=
  issueOn c 8 3 s (fun w d =>
    let e := fieldOf w 24 4
    match d.haloAt c (fieldOf w 20 2) false with
    | .outside => d.faultAt c w stInvalid
    | .edge => if e = ones32 then d.faultAt c w stInvalid else d.pushEmpty c w
    | .area cl base _ =>
      if e = ones32 then d.faultAt c w stInvalid
      else if d.wayState (dieOfCore c) (cl / 8) = 2 then d.pushOp c w stDeviceFault false .ready
      else if d.wayState (dieOfCore c) (cl / 8) = 1 || (d.core c).clusterPending then d.pushOp c w stOK false .halo
      else (d.setHaloWord cl base (2 + e % 2) e).pushOp c w stOK false .ready)

/-- What a waiting hx. operation finds (R164): nothing yet, a word or a way that has failed, or its buffer. -/
inductive HaloTurn where
  | no
  | fail
  | go (cluster base slot : Nat)
  deriving DecidableEq, Repr

/-- The turn of an hx. operation of the window. -/
def Dev.haloTurn (d : Dev) (c : Nat) (e : Issued) : HaloTurn :=
  if e.wait ≠ .halo then .no
  else match d.haloAt c (fieldOf e.bytes 20 2) (opCode e.bytes == 1) with
    | .area cl base slot =>
      let way := d.wayState (dieOfCore c) (cl / 8)
      if way = 2 || d.haloBad cl base then .fail
      else if way = 1 || (d.core c).clusterPending then .no
      else if opCode e.bytes = 3 ∨ d.haloMet (opCode e.bytes == 1) cl base (fieldOf e.bytes 24 4) then .go cl base slot
      else .no
    | _ => .no

/-- HALO_WAIT_SATISFIED: the first polling hx. operation of the core whose word is ready proceeds; its wait
counts as halo_tc (R42). Over a link that is down, or from a word that cannot be corrected, it ends with DEVICE_FAULT
(R52, R284). -/
def Dev.haloPoll (d : Dev) (c : Nat) : Dev :=
  match (d.core c).window.find? (fun e => d.haloTurn c e != .no) with
  | none => d
  | some e =>
    match d.haloTurn c e with
    | .no => d
    | .fail => d.settle c e.id stDeviceFault e.cond
    | .go cl base slot =>
      if opCode e.bytes = 3 then
        (d.setHaloWord cl base (2 + fieldOf e.bytes 24 4 % 2) (fieldOf e.bytes 24 4)).settle c e.id stOK false
      else
        let wait := d.now - e.at_
        (d.modCore c (fun k => { k with causes := { k.causes with halo := k.causes.halo + wait } })).haloGo c e.id
          (opCode e.bytes == 1) e.bytes cl base slot

/-- HALO_WAIT_SATISFIED. -/
def execHaloWaitSatisfied (c : Nat) (s : State) : Host.Outcome State Fault Refusal :=
  onCore c s (fun d => d.haloPoll c)

/-- Once every byte of an hx. operation is acknowledged: hx.put writes its flag, hx.get its used word unless
it keeps the credit. -/
def Dev.haloFinish (d : Dev) (c : Nat) (e : Issued) : Dev :=
  let put := opCode e.bytes == 1
  let ep := fieldOf e.bytes 24 4
  if opClass e.bytes ≠ 8 ∨ e.status ≠ stOK ∨ e.wait ≠ .ready then d
  else match d.haloAt c (fieldOf e.bytes 20 2) put with
    | .area cl base _ =>
      if put then d.setHaloWord cl base (ep % 2) ep
      else if bitOf (fieldOf e.bytes 32 1) 0 then d else d.setHaloWord cl base (2 + ep % 2) ep
    | _ => d

/-! ## The end of a descriptor -/

/-- What served a descriptor is released: reserve frames have one request fewer (R267), and a frame that served only
what waited goes when the last of it has completed (R217). -/
def Part.letGo (x : Part) (lent : List Nat) (frees : Option (Nat × Nat)) : Part :=
  let x := lent.foldl (fun x g => x.unlend g 1) x
  match frees with
  | some f => x.dropFrame f.1 f.2 x.tick.index
  | none => x

/-- When the last descriptor of an operation has completed: a halo's word is written, and a walk is over. -/
def Dev.endTransfer (d : Dev) (c op : Nat) : Dev :=
  match (d.core c).window.find? (fun e => e.id == op) with
  | some e =>
    if e.wait = Wait.ready then
      (d.haloFinish c e).modCluster (clusterOfCore c) (fun x =>
        { x with walks := x.walks.filter (fun v => !(v.core == c && v.op == op)) })
    else d
  | none => d

/-- A descriptor that has moved its bytes completes: late bytes are counted (R199), and its operation is ready
when it was the last (R190). -/
def Dev.endDescr (d : Dev) (c i : Nat) : Dev :=
  let k := d.core c
  let p := d.corePart c
  match k.descrs[i]? with
  | none => d
  | some y =>
    if !y.started then d
    else
      let d := d.setCore c { k with descrs := k.descrs.eraseIdx i }
      let d := (d.modPart p (fun x => x.letGo y.lent y.frees)).lateBytes c y.x.stream (y.x.late y.rate (d.coreTc c * 65536) y.due)
      let d := d.lessDescr c y.op 1
      (d.endTransfer c y.op).pump c

/-- DESCRIPTOR_COMPLETE. -/
def execDescriptorComplete (c i : Nat) (s : State) : Host.Outcome State Fault Refusal :=
  onCore c s (fun d => d.endDescr c i)

/-! ## The residual plane (R87, R126) -/

/-- RESIDUAL_FETCH_LANDED: B's residual plane is in its landing area, and the attempt at the next rung
begins; a stage abandoned or stopped meanwhile climbs no further (R127). The fetch counts against the places and atoms
of core DMA (R53, R87). -/
def Dev.residualLanded (d : Dev) (c : Nat) : Dev :=
  let k := d.core c
  let p := d.corePart c
  match k.climb with
  | none => d
  | some cl => match k.window.find? (fun e => e.id == cl.op && e.wait == .residual) with
    | none => d
    | some e =>
      let w := e.bytes
      let j := mmJob k.aregs w
      let a := fieldOf w 32 8
      let n := residBytes (fieldOf w 40 2)
      let lack := ((d.part p).coldPages a n).filter (fun g => !cl.lent.contains g)
      let bud := match d.coreRun c with
        | some (_, _, st, x, y) => stageBudget y ((x.run.map (fun r => r.stageOf st)).getD StageRun.zero)
        | none => 0
      let x : Xfer := ⟨2, a, 0, 0, n, 1, 0, 0, 0, 0⟩
      let way := d.xferWay p c x
      let free := fun (d : Dev) => d.modPart p (fun x => x.letGo cl.lent none)
      if k.phase ≠ .running then (free d).mmFinish c cl.op e.word w j cl.rung cl.repeats cl.last (.narrow bud 0 true)
      else if 64 ≤ k.descrs.length ∨ atomLimit < k.atomsOut + min atomLimit (ceilDiv n 32) then d
      else if !lack.isEmpty then d.startMigrs p lack (dieOfCore c) false
      else if way = 1 || d.xferWaits p x then d
      else
        let r := (d.xferCarried p c x).devRead p a n 0
        let back := free r.2
        let fail := fun (d : Dev) => ((free d).modCore c (fun k => { k with climb := none })).settle c cl.op stDeviceFault false
        if way = 2 then fail d
        else if !d.affords r.2 then d
        else if poisoned r.1 then fail r.2
        else
          (back.modCore c (fun k => { k with sp := Mem.write k.sp (spAt k.aregs (fieldOf w 60 4)) (plain r.1) })).mmRepeat
            c e.word w j { cl with lent := [] } true

/-- RESIDUAL_FETCH_LANDED. -/
def execResidualFetchLanded (c : Nat) (s : State) : Host.Outcome State Fault Refusal :=
  onCore c s (fun d => d.residualLanded c)

end Sys2Proof.Machine
end

