-- ==== Sys2Proof/Machine/Pages.lean ====
section
/-!
DEFINITION. Sequences and their pages: geometry, entries, appends and holds, copy-on-write, promotion, the
walk, and the pg. and dma.seq operations (R98, R102 to R104, R207 to R238).
-/

namespace Sys2Proof.Machine

/-! ## Geometry (R207, R208, R210) -/

/-- Bytes of a token slot. -/
def Seq.slotBytes (q : Seq) : Nat := 65536 / q.pageTokens
/-- Pages of a plane. -/
def Seq.perPlane (q : Seq) : Nat := ceilDiv q.maxTokens q.pageTokens
/-- Bytes of a plane. -/
def Seq.span (q : Seq) : Nat := q.perPlane * 65536
/-- Pages of the region. -/
def Seq.pageCount (q : Seq) : Nat := q.planes * q.perPlane
/-- Bytes of the region. -/
def Seq.regionBytes (q : Seq) : Nat := q.planes * q.span
/-- The block of its plane that a page holds. -/
def Seq.blockOf (q : Seq) (page : Nat) : Nat := page % q.perPlane
/-- The token whose slot holds a byte of the region. -/
def Seq.tokenAt (q : Seq) (o : Nat) : Nat := o % q.span / q.slotBytes
/-- The token count of a page under a token count of the sequence (R212). -/
def Seq.tokensOf (q : Seq) (page tokens : Nat) : Nat := min q.pageTokens (tokens - q.blockOf page * q.pageTokens)
/-- The identity of a sequence. -/
def Seq.ident (q : Seq) (slot : Nat) : Nat := slot + q.gen * 65536

/-- The sequence that a seq_id names, with its slot (R210). -/
def Part.seqOf (x : Part) (id : Nat) : Option (Nat × Seq) :=
  match x.seq (id % 65536) with
  | some q => if q.gen = id / 65536 then some (id % 65536, q) else none
  | none => none

/-- The pieces of an extent by page: page, offset in it, bytes, offset in the extent. -/
def piecesOf (off n : Nat) : List (Nat × Nat × Nat × Nat) :=
  (pagesOf off n).map (fun g =>
    let lo := max off (g * 65536)
    (g, lo - g * 65536, min (off + n) (g * 65536 + 65536) - lo, lo - off))

/-! ## Entries -/

/-- A fresh entry for a frame (R219). -/
def Entry.fresh (die frame gen : Nat) : Entry := ⟨none, 0, die, frame, 0, gen, false, false, 0⟩

/-- Sets a page's entry. -/
def Part.setEntry (x : Part) (slot page : Nat) (e : Entry) : Part :=
  x.modSeq slot (fun q => { q with entries := Tab.put q.entries page e })

/-- Makes a page's entry invalid and releases what it refers to. -/
def Part.clearEntry (x : Part) (slot page window : Nat) : Part :=
  match (x.seq slot).bind (fun q => Tab.find q.entries page) with
  | some e => (x.modSeq slot (fun q => { q with entries := Tab.del q.entries page })).dropEntry e window
  | none => x

/-- Whether a page's leaf does not exist (R211). -/
def Seq.lacksLeaf (q : Seq) (page : Nat) : Bool := !Tab.has q.leaves (page / 4096)

/-- Gives a page's leaf its table block when it has none; false when no block is free (R211). -/
def Part.ensureLeaf (x : Part) (slot page : Nat) : Bool × Part :=
  match x.seq slot with
  | none => (false, x)
  | some q =>
    if !q.lacksLeaf page then (true, x)
    else match x.pickBlock q.homeDie with
      | none => (false, x)
      | some b => (true, (x.takeBlock b).setSeq slot { q with leaves := Tab.put q.leaves (page / 4096) b })

/-- Every entry that names a frame with another reference gets shared = 1 (R212). -/
def Part.markShared (x : Part) (die frame : Nat) : Part :=
  { x with seqs := x.seqs.map (fun s => (s.1, { s.2 with entries := s.2.entries.map (fun e =>
      if e.2.tier = 0 ∧ e.2.die = die ∧ e.2.frame = frame then (e.1, { e.2 with shared := true }) else e) })) }

/-- What an entry's shared bit should be by the reference counts (R212, R231, R233). -/
def Part.sharedNow (x : Part) (e : Entry) : Bool :=
  if e.tier = 0 then decide (1 < x.frameRefs e.die e.frame) else decide (1 < Tab.getD x.storeUsed e.store 0)

/-- Clears shared on entries whose last other reference is gone (R221 step 5). -/
def Part.clearShared (x : Part) : Part :=
  { x with seqs := x.seqs.map (fun s => (s.1, { s.2 with entries := s.2.entries.map (fun e =>
      (e.1, { e.2 with shared := e.2.shared && x.sharedNow e.2 })) })) }

/-- Sets the token count of a sequence and of the pages of the blocks it completes or extends (R220). -/
def Seq.advance (q : Seq) (tokens : Nat) : Seq :=
  { q with
    tokens := tokens
    entries := q.entries.map (fun e =>
      let b := q.blockOf e.1
      if q.tokens ≠ tokens ∧ q.tokens / q.pageTokens ≤ b ∧ b * q.pageTokens < tokens then
        (e.1, { e.2 with tokens := q.tokensOf e.1 tokens })
      else e) }

/-! ## Promotion (R217) -/

/-- The key of a migration of a sequence's page. -/
def pageKey (slot page : Nat) : Nat := slot * 2 ^ 24 + page
/-- The page operand by which MIGRATION_LANDED names a migration of a sequence's page. -/
def storePageBase : Nat := 2 ^ 40

/-- Starts the migration of a tier-1 page of a sequence. A prefetch for which no pool frame is free does not start
(R217); a migration that a request waits for counts as one cold miss, also when a prefetch has begun it (R267). -/
def Dev.startStoreMigr (d : Dev) (p slot page die : Nat) (prefetch : Bool) : Dev :=
  let x := d.part p
  let key := pageKey slot page
  let put := fun (x : Part) m => { x with storeMigr := Tab.put x.storeMigr key m }
  match Tab.find x.storeMigr key with
  | some m =>
    if prefetch || m.asked then d
    else (d.setPart p (put x { m with asked := true, edit := false })).count p 4 1
  | none =>
    let m := fun f => (⟨d.tc p, prefetch, die, f, false, false, !prefetch, false⟩ : Migr)
    match x.pickFrame die with
    | some f => (d.setPart p (put (x.takeFrame f) (m (some f)))).count p 4 (if prefetch then 0 else 1)
    | none => if prefetch then d else (d.setPart p (put x (m none))).count p 4 1

/-- Starts a migration for an edit batch or a resume: only into a pool frame, and counted nowhere. -/
def Dev.startQuiet (d : Dev) (p slot page die : Nat) (edit : Bool) : Dev :=
  let key := pageKey slot page
  if Tab.has (d.part p).storeMigr key then d
  else (d.startStoreMigr p slot page die true).modPart p (fun x => match Tab.find x.storeMigr key with
    | some m => { x with storeMigr := Tab.put x.storeMigr key { m with quiet := true, edit := edit } }
    | none => x)

/-- Whether a descriptor waits for a sequence's page from the store. -/
def Descr.awaits (y : Descr) (slot page : Nat) : Bool := y.x.srcSpace == 4 && !y.started && y.seq == slot && y.page == page

/-- The descriptors of a partition that wait for a sequence's page, in core DMA and in the page descriptor queues. -/
def Dev.awaiting (d : Dev) (p slot page : Nat) : List Descr :=
  let x := d.part p
  (x.coreList.flatMap (fun c => if d.corePart c = p then (d.core c).descrs.filter (fun y => y.awaits slot page) else [])) ++
    x.clusterList.flatMap (fun cl => ((d.cluster cl).descQ.map (·.2)).filter (fun y => y.awaits slot page))

/-- Changes the descriptors that wait for a sequence's page, and starts what can start. -/
def Dev.serveAwaiting (d : Dev) (p slot page : Nat) (f : Descr → Descr) : Dev :=
  let g := fun (y : Descr) => if y.awaits slot page then f y else y
  let x := d.part p
  let cores := x.coreList.filter (fun c => d.corePart c = p && (d.core c).descrs.any (fun y => y.awaits slot page))
  let d := cores.foldl (fun d c => d.modCore c (fun k => { k with descrs := k.descrs.map g })) d
  let d := x.clusterList.foldl (fun d cl =>
    if (d.cluster cl).descQ.any (fun e => e.2.awaits slot page) then
      d.modCluster cl (fun y => { y with descQ := y.descQ.map (fun e => (e.1, g e.2)) }) else d) d
  cores.foldl (fun d c => d.pump c) d

/-- A waiting descriptor with its source in a place, served by a frame. -/
def Descr.from (y : Descr) (space place : Nat) : Descr := { y with x := { y.x with srcSpace := space, src := place } }

/-- Ends the descriptors that wait for a sequence's page with a status: they move nothing. -/
def Dev.failAwaiting (d : Dev) (p slot page st : Nat) : Dev :=
  let x := d.part p
  let d := x.coreList.foldl (fun (d : Dev) c =>
    if d.corePart c = p && (d.core c).descrs.any (fun y => y.awaits slot page) then
      (d.core c).descrs.zipIdx.foldl (fun (d : Dev) e => if e.1.awaits slot page then d.failDescr c e.2 e.1 st else d) d
    else d) d
  x.clusterList.foldl (fun (d : Dev) cl =>
    ((d.cluster cl).descQ.filter (fun e => e.2.awaits slot page)).foldl (fun (d : Dev) e =>
      (((d.modCluster cl (fun y => { y with descQ := y.descQ.erase e })).markOp e.1 e.2.op st).lessDescr e.1 e.2.op 1).endTransfer
        e.1 e.2.op) d) d

/-- The entry of a page, if it is valid. -/
def Part.entryOf (x : Part) (slot page : Nat) : Option Entry := (x.seq slot).bind (fun q => Tab.find q.entries page)

/-- A page that was migrated for an edit batch takes its frame: when its entry still maps the same store page at tier 1,
and else the frame goes (R217, R224). -/
def Part.usePromoted (x : Part) (slot page : Nat) : Part :=
  match Tab.find x.promoted (pageKey slot page) with
  | none => x
  | some r =>
    let y := { x with promoted := Tab.del x.promoted (pageKey slot page) }
    match x.entryOf slot page with
    | some e =>
      if e.tier = 1 ∧ e.store = r.store then
        y.setEntry slot page { e with
          tier := 0, die := r.die, frame := r.frame, storeCopy := true, shared := false, keyGen := r.gen }
      else y.dropFrame r.die r.frame x.tick.index
    | none => y.dropFrame r.die r.frame x.tick.index

/-- The store page that a migration of a sequence's page reads: what descriptors wait for, else what its entry maps. -/
def Dev.wantedStore (d : Dev) (p slot page : Nat) : Option Nat :=
  match (d.awaiting p slot page).head? with
  | some y => some (y.x.src / 65536)
  | none => ((d.part p).entryOf slot page).bind (fun e => if e.tier = 1 then some e.store else none)

/-- What a landing of a sequence's page finds: its entry as it must still be for the rewrite, the store page, and what
waits. -/
structure StoreLanding where
  entry : Option Entry
  store : Nat
  waits : Nat
  deriving DecidableEq, Repr

/-- A page of a sequence lands in a pool frame (R217): the entry is rewritten when it still maps the same store page at
tier 1; otherwise the frame serves only the descriptors that waited, and goes when the last of them has completed. A page
that an edit batch alone asked for keeps its frame for the commit (R224). -/
def Dev.landInFrame (d : Dev) (p slot page : Nat) (m : Migr) (q : StoreLanding) (f : Nat × Nat) : Dev :=
  let there := fun (y : Descr) => y.from 3 (framePlaceOf f.1 f.2 (y.x.src % 65536))
  match q.entry with
  | some e =>
    if m.edit && q.waits == 0 then
      d.modPart p (fun x => { x with promoted := Tab.put x.promoted (pageKey slot page) ⟨q.store, f.1, f.2, x.gen⟩ })
    else
      (d.modPart p (fun x => x.setEntry slot page { e with
        tier := 0, die := f.1, frame := f.2, storeCopy := true, shared := false, keyGen := x.gen })).serveAwaiting p slot page there
  | none =>
    if q.waits = 0 then d.modPart p (fun x => x.dropFrame f.1 f.2 x.tick.index)
    else
      (d.modPart p (fun x => { x with frames := Tab.put x.frames (frameKey f.1 f.2) q.waits })).serveAwaiting p slot page
        (fun y => { there y with frees := some f })

/-- Lands a sequence's page (R217). Without a pool frame a reserve frame serves the descriptors that waited when it
landed. The store page is read under the generation its entry names: where they disagree the read ends with DEVICE_FAULT
(R213). -/
def Dev.landStore (d : Dev) (p key bad : Nat) : Dev :=
  let x := d.part p
  let slot := key / 2 ^ 24
  let page := key % 2 ^ 24
  match Tab.find x.storeMigr key with
  | none => d
  | some m =>
    let done := fun (x : Part) => { x with storeMigr := Tab.del x.storeMigr key }
    let stop := d.setPart p (match m.frame with
      | some f => (done x).dropFrame f.1 f.2 x.tick.index
      | none => done x)
    match d.wantedStore p slot page with
    | none => stop
    | some g =>
      let same := (x.entryOf slot page).bind (fun e => if e.tier = 1 ∧ e.store = g then some e else none)
      let q : StoreLanding := ⟨same, g, (d.awaiting p slot page).length⟩
      if same.elim false (fun e => genDiffers x.storeSectors g e.keyGen) then stop.failAwaiting p slot page stDeviceFault
      else
        let lost := badSectors x.storeSectors g bad
        let bs := pageBytes x.storeSectors g bad
        let hurt := fun (d : Dev) =>
          ({ d with tier := d.tier.readPage x.storeSectors g }.modPart p (fun x =>
            { x with storeSectors := markLost x.storeSectors g bad })).poisonSectors p 2 x.storeSectors g bad (fun i => g * 16 + i)
        match (match m.frame with
          | some f => some f
          | none => x.pickFrame m.die) with
        | some f =>
          let y := if m.frame.isSome then done x else (done x).takeFrame f
          let d := ((hurt (d.setPart p y)).carriedIo f.1 false 65536).frameWrite p f.1 f.2 0 bs 1
          let d := if m.prefetch && !m.quiet then d.count p 5 1 else d
          d.landInFrame p slot page m q f
        | none =>
          if !m.asked then stop
          else if Tab.getD x.reserveUsed m.die 0 < reserveFrames ∧ !Tab.has x.reserve (storePageBase + key) then
            let d := (hurt (d.setPart p { done x with
              reserveUsed := Tab.add x.reserveUsed m.die 1
              reserve := Tab.put x.reserve (storePageBase + key) ⟨m.die, 0, Mem.cells 0 (plain bs), lost, [], q.waits⟩ })).carriedIo
                m.die false 65536
            d.serveAwaiting p slot page (fun y => { y.from 5 y.x.src with lent := y.lent ++ [storePageBase + key] })
          else d

/-! ## Holds (R103, R219, R221) -/

/-- Adds a PAGE record; of one that an operation of a core produces, its common part names the operation. False when
the record has to wait (R133). -/
def Dev.pageRecord (d : Dev) (p id event tokens : Nat) (by_ : Option (Nat × Issued)) : Bool × Dev :=
  let det := natLE 4 id ++ natLE 1 event ++ natLE 3 0 ++ natLE 8 tokens ++ List.replicate 16 0
  d.ledgerAdd p (match by_ with
    | some (c, e) => d.opRecord c 6 e.word e.id (opDebugTag e.bytes) det
    | none => ⟨d.tc p, none, 6, 0xFF, 0xFFFF, 0xFFFF, 0, 0xFFFF, 0, det⟩)

/-- The holds of a partition that have no page yet. -/
def Part.shortHolds (x : Part) : Nat := (x.seqs.filter (fun e => e.2.hold.elim false (fun h => h.kept.isNone))).length

/-- Begins the hold of a sequence, or notes what its append lacks; eviction goes on (R103, R238). False when the PAGE
record has to wait. -/
def Dev.holdSeq (d : Dev) (p slot die : Nat) (needBlock : Bool) (by_ : Option (Nat × Issued)) : Bool × Dev :=
  match (d.part p).seq slot with
  | none => (true, d)
  | some q =>
    let x := d.part p
    let r := match q.hold with
      | some h => (true, d.setPart p (x.setSeq slot { q with hold := some { h with needBlock := needBlock } }))
      | none =>
        let n : Nat := x.seqs.foldl (fun (n : Nat) (e : Nat × Seq) => max n (e.2.hold.elim 0 (·.order))) 0 + 1
        (d.setPart p (x.setSeq slot { q with hold := some ⟨x.tick.index, die, none, needBlock, n⟩ })).pageRecord p
          (q.ident slot) 1 q.tokens by_
    (r.1, r.2.evictFor p (r.2.part p).shortHolds)

/-- Ends a hold; a page kept for it is released (R235). -/
def Part.endHold (x : Part) (slot : Nat) : Part :=
  match x.seq slot with
  | none => x
  | some q => match q.hold with
    | none => x
    | some h =>
      let x := x.setSeq slot { q with hold := none }
      match h.kept with
      | some f => x.dropFrame f.1 f.2 x.tick.index
      | none => x

/-- The SEQ_APPENDs held on a sequence, in fetch order. -/
def Dev.heldAppends (d : Dev) (p id : Nat) : List (Nat × Cmd) :=
  (d.host.live.filter (fun e => e.2.part == p && e.2.op == 0x41 && e.2.phase == .running && e.2.field 28 4 == id)).mergeSort
    (fun a b => decide (a.2.order ≤ b.2.order))

/-- The hold limit of a partition in windows. -/
def Part.holdLimit (x : Part) : Nat := (x.layout.map (·.holdLimit)).getD 2

/-- Whether a hold has reached its limit without what it lacks (R221 step 4). -/
def Part.holdDue (x : Part) (h : Hold) : Bool :=
  decide (h.window + x.holdLimit ≤ x.tick.index) &&
    (h.kept.isNone || (h.needBlock && x.dieList.all (fun i => x.freeBlocks i == 0)))

/-- A hold that has reached its limit expires: the sequence is SUSPENDED, its held SEQ_APPENDs complete with
NO_SPACE, and an EVENT is posted (R103, R222). -/
def Dev.expireHold (d : Dev) (p slot : Nat) : Dev :=
  match (d.part p).seq slot with
  | none => d
  | some q => match q.hold with
    | none => d
    | some h =>
      if !(d.part p).holdDue h then d
      else
        let id := q.ident slot
        let held := d.heldAppends p id
        let d := d.modPart p (fun x => (x.endHold slot).modSeq slot (fun q =>
          { q with state := .suspended, noSpaceOnce := true }))
        let d := held.foldl (fun d e => d.complete e.1 stNoSpace q.tokens 0) d
        let d := (d.pageRecord p id 3 q.tokens none).2
        (d.partEvent p { EventRec.blank 0x0002 4 8 with d0 := id, d1 := q.tokens }).queueEvents p 0x0002 id q.tokens

/-! ## Appends (R102, R218 to R220, R232) -/

/-- The checks of R218, which come before any byte moves. -/
def Seq.appendFail (q : Seq) (off n count : Nat) : Option Nat :=
  let ps := piecesOf off n
  if q.regionBytes < off + n then some stBounds
  else if ps.any (fun e => decide (q.tokenAt (e.1 * 65536 + e.2.1) < q.tokens)) then some stBounds
  else if ps.any (fun e => decide (q.maxTokens ≤ q.tokenAt (e.1 * 65536 + e.2.1 + e.2.2.1 - 1))) then some stLength
  else if q.maxTokens < q.tokens + count then some stLength
  else none

/-- What making a page writable comes to. -/
inductive Ready where
  | yes
  | lack (block : Bool)
  | later
  deriving DecidableEq, Repr

/-- The frame an append may take: the page kept for its hold, else one of the pool (R103, R219). -/
def Part.appendFrame (x : Part) (slot die : Nat) : Option (Nat × Nat) × Part :=
  match x.seq slot with
  | none => (none, x)
  | some q =>
    let kept := q.hold.bind (·.kept)
    match kept with
    | some f => (some f, x.setSeq slot { q with hold := q.hold.map (fun h => { h with kept := none }) })
    | none => match x.pickFrame die with
      | some f => (some f, x.takeFrame f)
      | none => (none, x)

/-- Makes one page writable (R219, R232): an invalid entry gets a frame, a shared page is copied, a page in the
store is promoted first, and a frame under an older generation is converted first (R254). -/
def Dev.readyPage (d : Dev) (p slot die page : Nat) : Ready × Dev :=
  let d := d.modPart p (fun x => x.usePromoted slot page)
  let x := d.part p
  match x.seq slot with
  | none => (.lack false, d)
  | some q => match Tab.find q.entries page with
    | none =>
      if q.lacksLeaf page && (x.pickBlock q.homeDie).isNone then (.lack true, d)
      else match x.appendFrame slot die with
        | (none, _) => (.lack false, d)
        | (some f, x) =>
          let x := (x.ensureLeaf slot page).2
          (.yes, d.setPart p (x.setEntry slot page (Entry.fresh f.1 f.2 x.gen)))
    | some e =>
      if e.tier = 1 then
        if Tab.has x.storeMigr (pageKey slot page) then (.later, d.startStoreMigr p slot page die false)
        else if (x.pickFrame die).isNone then (.lack false, d)
        else (.later, d.startStoreMigr p slot page die false)
      else if !e.shared then (if x.oldGen.isSome && d.frameGen p e.die e.frame != x.gen then .later else .yes, d)
      else match x.appendFrame slot die with
        | (none, _) => (.lack false, d)
        | (some f, x) =>
          let r := (d.setPart p x).frameRead p e.die e.frame 0 65536 0
          let d := r.2.frameWrite p f.1 f.2 0 r.1 0
          (.yes, d.modPart p (fun x =>
            (x.setEntry slot page { e with
              die := f.1, frame := f.2, shared := false, node := none, storeCopy := false, keyGen := x.gen }).dropEntry
              e x.tick.index))

/-- Makes every page of an append writable, in ascending order, stopping at the first that is not. -/
def Dev.readyPages (d : Dev) (p slot die : Nat) (pages : List Nat) : Ready × Dev :=
  pages.foldl (fun (acc : Ready × Dev) g =>
    if acc.1 = .yes then acc.2.readyPage p slot die g else acc) (.yes, d)

/-- A write into a page clears store_copy; the store page is released (R219). -/
def Part.dropCopy (x : Part) (slot page : Nat) : Part :=
  match x.entryOf slot page with
  | some e => if e.tier = 0 ∧ e.storeCopy then
      (x.setEntry slot page { e with storeCopy := false }).dropStore e.store x.tick.index else x
  | none => x

/-- Writes an append's bytes into pages that are ready, and advances the count (R220, R232 step 5). -/
def Dev.writeAppend (d : Dev) (p slot off : Nat) (bs : PBytes) (count : Nat) : Dev :=
  let d := (piecesOf off bs.length).foldl (fun d e =>
    match (d.part p).entryOf slot e.1 with
    | some y => (d.modPart p (fun x => x.dropCopy slot e.1)).frameWrite p y.die y.frame e.2.1
        ((bs.drop e.2.2.2).take e.2.2.1) 0
    | none => d) d
  d.modPart p (fun x => x.modSeq slot (fun q => q.advance (q.tokens + count)))

/-- Tries an append: done, lacking a page or block, or waiting for a page from the store or a conversion. -/
def Dev.tryAppend (d : Dev) (p slot die off : Nat) (bs : PBytes) (count : Nat) : Ready × Dev :=
  let r := d.readyPages p slot die ((piecesOf off bs.length).map (·.1))
  if r.1 = .yes then (.yes, r.2.writeAppend p slot off bs count) else r

/-! ## The walk (R98, R214 to R217) -/

/-- The start of each row of a walk. -/
def walkRows (off stride rows : Nat) : List Nat := (List.range rows).map (fun r => off + r * stride)

/-- The latch's checks on an extent of rows (R98, R215, R216). -/
def Seq.walkFail (q : Seq) (off rowB rows stride : Nat) : Option Nat :=
  let starts := walkRows off stride (if stride = 0 then min rows 1 else rows)
  if starts.any (fun o => decide (q.regionBytes < o + rowB) ||
      (piecesOf o rowB).any (fun e => decide (q.tokens ≤ q.tokenAt (e.1 * 65536 + e.2.1 + e.2.2.1 - 1)))) then some stBounds
  else if 1 < rows ∧ starts.any (fun o => decide (o / 65536 ≠ (o + rowB - 1) / 65536)) then some stAlign
  else none

/-- The pages of a walk, ascending. -/
def walkPages (off rowB rows stride : Nat) : List Nat :=
  if rows = 1 then pagesOf off rowB
  else ((walkRows off stride rows).foldl (fun (acc : List Nat) o =>
    if acc.head? = some (o / 65536) then acc else (o / 65536) :: acc) []).reverse

/-- A page's entry as a walk reads it. -/
def Seq.latch (q : Seq) (page : Nat) : WalkPage :=
  match Tab.find q.entries page with
  | some e => ⟨page, true, e.tier, e.die, e.frame, e.store⟩
  | none => ⟨page, false, 0, 0, 0, 0⟩

/-- What a walk or a pg. operation finds on a sequence that it names: its slot, or a status. -/
def Dev.liveSeq (d : Dev) (p id : Nat) : Nat ⊕ (Nat × Seq) :=
  match (d.part p).seqOf id with
  | none => .inl stInvalid
  | some (slot, q) => if q.state = .active then .inr (slot, q) else .inl stSuspended

/-- DMA_SEQ: the walker latches the directory, the token count and the state; the descriptors come from
WALKER_DESCRIPTOR_EMIT. An operation that moves nothing still names a sequence (R203). -/
def execDmaSeq (c : Nat) (s : State) : Host.Outcome State Fault Refusal :=
  issueOn c 6 2 s (fun w d =>
    let p := d.corePart c
    let cl := clusterOfCore c
    let rowB := fieldOf w 32 4
    let rows := fieldOf w 36 4
    let off := fieldOf w 24 8
    let stride := fieldOf w 40 4
    let dst := endpoint (bitsOf (fieldOf w 56 1) 1 0) (fieldOf w 48 8) 0
    if (d.cluster cl).failed then d.pushOp c w stDeviceFault false .ready
    else if ((d.part p).seqOf (fieldOf w 16 4)).isNone then d.pushOp c w stInvalid false .ready
    else if rowB = 0 ∨ rows = 0 then d.pushEmpty c w
    else match d.liveSeq p (fieldOf w 16 4) with
    | .inl st => d.pushOp c w st false .ready
    | .inr (slot, q) => match q.walkFail off rowB rows stride with
      | some st => d.pushOp c w st false .ready
      | none =>
        let pages := walkPages off rowB rows stride
        let x : Xfer := ⟨3, 0, dst.space, dst.place, rowB, rows, stride, fieldOf w 44 4,
          bitsOf (fieldOf w 56 1) 3 2, fieldOf w 58 2⟩
        let v : Walk := ⟨c, d.nextOp c, slot, (d.part p).tick.index, x, off, stride, pages, none⟩
        let d := d.pushOp c w stOK false (.descr pages.length)
        let d := d.modCore c (fun k => k.nameStream x.stream (some (fieldOf w 60 4)) (d.coreTc c))
        let d := d.modPart p (fun y => y.modSeq slot (fun q => { q with walked := d.now }))
        d.modCluster cl (fun y => { y with walks := y.walks ++ [v] }))

/-- The entry of a page as a walk reads it when it reaches the page: of the latched directory (R215). -/
def Dev.walkEntry (d : Dev) (p : Nat) (v : Walk) (page : Nat) : WalkPage :=
  match v.frozen with
  | some ps => (ps.find? (fun g => g.page == page)).getD ⟨page, false, 0, 0, 0, 0⟩
  | none => ((d.part p).seq v.seq).elim ⟨page, false, 0, 0, 0, 0⟩ (fun q => q.latch page)

/-- A commit changes a sequence's table: the walks that run on it keep the directory they latched (R215, R34). -/
def Dev.freezeWalks (d : Dev) (p slot : Nat) : Dev :=
  (d.part p).clusterList.foldl (fun d cl =>
    if (d.cluster cl).walks.any (fun v => v.seq == slot && v.frozen.isNone && !v.pages.isEmpty) then
      d.modCluster cl (fun y => { y with walks := y.walks.map (fun v =>
        if v.seq = slot ∧ v.frozen = none then { v with frozen := some (v.pages.map (d.walkEntry p v)) } else v) })
    else d) d

/-- What keeps an entry from being used: it is invalid, or names a frame or a store page outside the partition's (R214). -/
def Part.entryFail (x : Part) (g : WalkPage) : Option Nat :=
  if !g.valid then some stInvalid
  else if (if g.tier = 0 then !x.hasDie g.die || decide (x.framesPerDie ≤ g.frame) else decide (x.storePages ≤ g.store)) then
    some stPartition
  else none

/-- The part of a walk that lies in a page (R216): offset in the page, bytes per row, rows, first row's
destination offset. -/
def Walk.inPage (v : Walk) (page : Nat) : Nat × Nat × Nat × Nat :=
  let base := page * 65536
  if v.x.rows = 1 then
    let lo := max v.offset base
    (lo - base, min (v.offset + v.x.rowBytes) (base + 65536) - lo, 1, lo - v.offset)
  else if v.stride = 0 then (v.offset - base, v.x.rowBytes, v.x.rows, 0)
  else
    let r0 := ceilDiv (base - v.offset) v.stride
    let r1 := min v.x.rows (ceilDiv (base + 65536 - v.offset) v.stride)
    (v.offset + r0 * v.stride - base, v.x.rowBytes, r1 - r0, r0 * v.x.dstPitch)

/-- The transfer a walk makes for a page from a place. -/
def Walk.xfer (v : Walk) (page space : Nat) (place : Nat → Nat) : Xfer :=
  let q := v.inPage page
  ⟨space, place q.1, v.x.dstSpace, v.x.dst + q.2.2.2, q.2.1, q.2.2.1, v.x.srcPitch, v.x.dstPitch, v.x.hint, v.x.stream⟩

/-- Emits the descriptor of a walk's next page (R215 to R217): an unmapped page ends the walk with INVALID, one
outside the pool or the store with PARTITION, and a leaf that reads poisoned with DEVICE_FAULT (R262). -/
def Dev.emitPage (d : Dev) (cl : Nat) (v : Walk) : Dev :=
  let p := d.corePart v.core
  let x := d.part p
  let drop := fun (d : Dev) pages => d.modCluster cl (fun y => { y with walks := y.walks.map (fun z =>
    if z.core == v.core && z.op == v.op then { z with pages := pages } else z) })
  match v.pages with
  | [] => d
  | page :: rest =>
    let stop := fun st => (((drop d []).markOp v.core v.op st).lessDescr v.core v.op v.pages.length).endTransfer v.core v.op
    let d := d.modPart p (fun x => x.usePromoted v.seq page)
    let g := d.walkEntry p v page
    let x := d.part p
    if (x.seq v.seq).elim false (fun q => q.badLeaves.contains (page / 4096)) then stop stDeviceFault
    else match x.entryFail g with
    | some st => stop st
    | none =>
      let live := x.entryOf v.seq page
      let here := if g.tier = 0 then some (g.die, g.frame)
        else live.bind (fun e => if e.tier = 0 ∧ e.storeCopy ∧ e.store = g.store then some (e.die, e.frame) else none)
      let t := match here with
        | some f => v.xfer page 3 (framePlaceOf f.1 f.2)
        | none => v.xfer page 4 (fun off => g.store * 65536 + off)
      let d := if here.isSome then d else d.startStoreMigr p v.seq page (dieOfCore v.core) false
      let q := d.formDescr v.core v.op t false v.seq page
      let y := if here.isSome then q.1 else { q.1 with cold := true }
      ((drop q.2 rest).modCluster cl (fun z => { z with descQ := z.descQ ++ [(v.core, y)] })).pump v.core

/-- WALKER_DESCRIPTOR_EMIT: the first walk with pages left emits one descriptor, which enters core DMA or waits in the
page descriptor queue; the walker pauses while that queue holds 256 (R73, R74). -/
def Dev.walkerEmit (d : Dev) (cl : Nat) : Dev :=
  let x := d.cluster cl
  match x.walks.find? (fun v => !v.pages.isEmpty) with
  | none => d
  | some v => if x.failed || decide (256 ≤ x.descQ.length) then d else d.emitPage cl v

/-- WALKER_DESCRIPTOR_EMIT. -/
def execWalkerDescriptorEmit (cl : Nat) (s : State) : Host.Outcome State Fault Refusal :=
  onUnit (decide (cl < 32)) (whenUp s (fun d => d.walkerEmit cl))

end Sys2Proof.Machine
end

