-- ==== Sys2Proof/Machine/Edits.lean ====
section
/-!
DEFINITION. Page-table edits (R104, R223 to R225) and the state changes that a commit applies (R221 step 1,
R224, R233 to R236, R376), with the rows that end what a commit could not finish.
-/

namespace Sys2Proof.Machine

/-! ## Edit records (R223) -/

/-- The page of a record. -/
def edPage (b : Bytes) : Nat := fieldOf b 0 3
/-- The op of a record: 1 UNMAP, 2 MAP, 3 DEMOTE, 4 PROMOTE, 5 LENGTH. -/
def edOp (b : Bytes) : Nat := fieldOf b 4 1
/-- Whether a record applies at once. -/
def edNow (b : Bytes) : Bool := bitOf (fieldOf b 5 1) 0
/-- The frame of a MAP. -/
def edFrame (b : Bytes) : Nat := bitsOf (fieldOf b 8 4) 21 0
/-- The die of a MAP. -/
def edDie (b : Bytes) : Nat := bitsOf (fieldOf b 8 4) 23 22
/-- Whether a MAP leaves the frame to the allocator. -/
def edAlloc (b : Bytes) : Bool := bitOf (fieldOf b 8 4) 31
/-- The token count of a LENGTH. -/
def edTokens (b : Bytes) : Nat := fieldOf b 16 8
/-- The expected count of a LENGTH. -/
def edExpect (b : Bytes) : Nat := fieldOf b 24 8

/-- The entry of a sequence that maps a frame. -/
def Seq.mapping (q : Seq) (die frame : Nat) : Option Entry :=
  (q.entries.find? (fun e => e.2.tier == 0 && e.2.die == die && e.2.frame == frame)).map (·.2)

/-- The checks on a record at acceptance: status and byte offset of the first failure. -/
def editFail (x : Part) (q : Seq) (b : Bytes) : Option (Nat × Nat) :=
  let op := edOp b
  if op = 0 ∨ 5 < op then some (stInvalid, 4)
  else firstFail
    [(0, stInvalid, op == 5 && edPage b != 0), (0, stBounds, op != 5 && decide (q.pageCount ≤ edPage b)),
     (0, stInvalid, op == 3 && (match Tab.find q.entries (edPage b) with
       | some e => e.shared
       | none => false)),
     (3, stInvalid, fieldOf b 3 1 != 0),
     (5, stInvalid, decide (1 < fieldOf b 5 1) || (decide (3 ≤ op) && edNow b)),
     (6, stInvalid, fieldOf b 6 1 != 0), (7, stInvalid, fieldOf b 7 1 != 0),
     (8, stInvalid, (op != 2 && fieldOf b 8 3 != 0) || (op == 2 && edAlloc b && fieldOf b 8 3 != 0)),
     (8, stBounds, op == 2 && !edAlloc b && (!x.hasDie (edDie b) || decide (x.framesPerDie ≤ edFrame b))),
     (8, stInvalid, op == 2 && !edAlloc b && (q.mapping (edDie b) (edFrame b)).isNone),
     (11, stInvalid, bitsOf (fieldOf b 11 1) 6 0 != 0 || (op != 2 && edAlloc b)),
     (12, stInvalid, fieldOf b 12 4 != 0),
     (16, stInvalid, if op = 5 then decide (q.tokens < edTokens b) else edTokens b != 0),
     (24, stInvalid, op != 5 && edExpect b != 0)]

/-- The first failing record of a batch: status, record, offset in the record. -/
def batchFail (x : Part) (q : Seq) (recs : List Bytes) : Option (Nat × Nat × Nat) :=
  recs.zipIdx.findSome? (fun e => (editFail x q e.1).map (fun f => (f.1, e.2, f.2)))

/-- The records of a batch in an object. -/
def recsOf (bs : Bytes) (n : Nat) : List Bytes := (List.range n).map (fun i => sliceOf bs (32 * i) 32)

/-- Maps a frame at a page: the old entry is released, the frame gains a reference (R223, R231). -/
def Part.mapTo (x : Part) (slot page window : Nat) (e : Entry) : Part :=
  ((x.clearEntry slot page window).ensureLeaf slot page).2.setEntry slot page e

/-- Sets the token count by a LENGTH record: pages wholly at or beyond it are released. -/
def Part.cutTo (x : Part) (slot tokens window : Nat) : Part :=
  match x.seq slot with
  | none => x
  | some q =>
    let gone := (q.entries.filter (fun e => decide (tokens ≤ q.blockOf e.1 * q.pageTokens))).map (·.1)
    let x := gone.foldl (fun x g => x.clearEntry slot g window) x
    x.modSeq slot (fun q => { q with
      tokens := tokens
      entries := q.entries.map (fun e =>
        if tokens < (q.blockOf e.1 + 1) * q.pageTokens then (e.1, { e.2 with tokens := q.tokensOf e.1 tokens }) else e) })

/-- Applies one record; `window` is the one its releases count in. -/
def Part.applyRec (x : Part) (slot window : Nat) (b : Bytes) : Part :=
  match x.seq slot with
  | none => x
  | some q =>
    let page := edPage b
    match edOp b with
    | 1 => x.clearEntry slot page window
    | 2 =>
      if edAlloc b then
        match x.pickFrame q.homeDie with
        | none => x
        | some f => (x.takeFrame f).mapTo slot page window (Entry.fresh f.1 f.2 x.gen)
      else match q.mapping (edDie b) (edFrame b) with
        | none => x
        | some e =>
          let y := (x.refFrame e.die e.frame).mapTo slot page window
            { e with tokens := q.tokensOf page q.tokens, store := 0, storeCopy := false }
          if 1 < y.frameRefs e.die e.frame then y.markShared e.die e.frame else y
    | 3 => match Tab.find q.entries page with
      | some e => if e.tier = 0 ∧ !e.shared then x.toStore slot page window else x
      | none => x
    | 4 => x.usePromoted slot page
    | _ => x.cutTo slot (edTokens b) window

/-- Applies one record of a batch at its commit. A DEMOTE of a page that an earlier record has mapped writes it to the
store first. -/
def Dev.applyRec (d : Dev) (p slot window : Nat) (b : Bytes) : Dev :=
  let d := if edOp b = 3 ∧ ((d.part p).entryOf slot (edPage b)).elim false (fun e => !e.shared) then d.copyToStore p slot (edPage b) else d
  d.modPart p (fun x => x.applyRec slot window b)

/-- The pages that the records of a batch before each DEMOTE have mapped, and that it demotes: each needs a store
page. -/
def mappedDemotes (recs : List Bytes) : Nat :=
  (recs.foldl (fun (acc : List Nat × Nat) b =>
    if edOp b = 2 then (edPage b :: acc.1, acc.2)
    else if edOp b = 3 ∧ acc.1.contains (edPage b) then (acc.1.filter (fun g => g != edPage b), acc.2 + 1)
    else acc) ([], 0)).2

/-! ## Acceptance (R224, R225) -/

/-- Starts the copies of a batch's DEMOTE and PROMOTE records. -/
def Dev.startCopies (d : Dev) (p slot : Nat) (recs : List Bytes) : Dev :=
  recs.foldl (fun d b =>
    let x := d.part p
    match x.entryOf slot (edPage b) with
    | none => d
    | some e =>
      if edOp b = 3 ∧ e.tier = 0 ∧ !e.storeCopy ∧ !e.shared then
        if x.demoting.any (fun y => y.1 == slot && y.2.1 == edPage b) ∨ x.freeStore.isNone then d
        else d.setPart p { x with demoting := x.demoting ++ [(slot, edPage b, true)] }
      else if edOp b = 4 ∧ e.tier = 1 then
        if Tab.has x.promoted (pageKey slot (edPage b)) then d
        else d.startQuiet p slot (edPage b) ((x.seq slot).elim 0 (·.homeDie)) true
      else d) d

/-- Whether an immediate record can be applied now: a MAP for the allocator needs a frame and a table block. -/
def Part.canNow (x : Part) (slot : Nat) (b : Bytes) : Bool :=
  match x.seq slot with
  | none => false
  | some q => edOp b != 2 ||
      ((!edAlloc b || (x.pickFrame q.homeDie).isSome) && (!q.lacksLeaf (edPage b) || (x.pickBlock q.homeDie).isSome))

/-- Accepts a batch: immediate records are applied, the rest is staged, copies start. True when nothing is left
to stage. -/
def Dev.acceptBatch (d : Dev) (p slot : Nat) (handle : Option Nat) (recs : List Bytes) : Bool × Dev :=
  let w := (d.part p).tick.index
  let r := recs.foldl (fun (acc : List Bytes × Dev) b =>
    if edNow b && (acc.2.part p).canNow slot b then (acc.1, acc.2.modPart p (fun x => x.applyRec slot w b))
    else (acc.1 ++ [b], acc.2)) ([], d)
  match (d.part p).seq slot with
  | none => (true, d)
  | some q =>
    if r.1.isEmpty then (true, r.2)
    else (false, (r.2.modPart p (fun x => { x with
      staged := x.staged ++ [.edits handle (q.ident slot) r.1 w] })).startCopies p slot r.1)

/-! ## Batches at a commit (R224) -/

/-- What a staged batch meets at a commit. -/
inductive BatchFate where
  | apply
  | stale
  | lacks
  | wait
  deriving DecidableEq, Repr

/-- The LENGTH checks of a batch in record order, from a token count. -/
def lengthsHold : List Bytes → Nat → Bool
  | [], _ => true
  | b :: bs, n =>
    if edOp b = 5 then
      decide (edTokens b ≤ n) && (edExpect b == ones64 || edExpect b == n) && lengthsHold bs (edTokens b)
    else lengthsHold bs n

/-- Pages of a sequence that an append still has open: those of the pg. request queues and of SEQ_APPENDs that
wait for a page from the store. -/
def Dev.openPages (d : Dev) (p slot : Nat) : List Nat :=
  match (d.part p).seq slot with
  | none => []
  | some q =>
    let fromCores := (d.part p).clusterList.flatMap (fun cl => (d.cluster cl).pgQ.flatMap (fun r =>
      match (d.core r.core).window.find? (fun e => e.id == r.op) with
      | some e => if fieldOf e.bytes 16 4 = q.ident slot then
          (piecesOf (fieldOf e.bytes 24 8) (fieldOf e.bytes 32 8)).map (·.1) else []
      | none => []))
    let fromHost := if q.hold.isSome then [] else (d.heldAppends p (q.ident slot)).flatMap (fun e =>
      (piecesOf (e.2.field 32 8) (e.2.field 24 4)).map (·.1))
    fromCores ++ fromHost

/-- Whether a record touches an open page. -/
def recOpens (q : Seq) (pages : List Nat) (b : Bytes) : Bool :=
  if edOp b = 5 then pages.any (fun g => decide (edTokens b < (q.blockOf g + 1) * q.pageTokens))
  else pages.contains (edPage b)

/-- Frames and store pages that a batch still lacks. -/
def Part.batchLacks (x : Part) (slot : Nat) (recs : List Bytes) : Bool :=
  match x.seq slot with
  | none => false
  | some q =>
    let maps := (recs.filter (fun b => edOp b == 2 && edAlloc b)).length
    let free := (x.dieList.map x.freeFrames).foldl (· + ·) 0
    let leaves := ((recs.filter (fun b => edOp b == 2 && q.lacksLeaf (edPage b))).map (fun b => edPage b / 4096)).dedup.length
    let blocks := (x.dieList.map x.freeBlocks).foldl (· + ·) 0
    decide (free < maps) || decide (blocks < leaves) || decide (x.storePages < x.storeUsed.length + mappedDemotes recs) ||
    recs.any (fun b => match Tab.find q.entries (edPage b) with
      | none => false
      | some e =>
        (edOp b == 4 && e.tier == 1 && !Tab.has x.storeMigr (pageKey slot (edPage b)) &&
          !Tab.has x.promoted (pageKey slot (edPage b))) ||
        (edOp b == 3 && e.tier == 0 && !e.shared && !e.storeCopy && !x.demoting.any (fun y => y.1 == slot && y.2.1 == edPage b)))

/-- Whether a copy of a batch still runs. -/
def Part.batchCopies (x : Part) (slot : Nat) (recs : List Bytes) : Bool :=
  recs.any (fun b =>
    (edOp b == 4 && Tab.has x.storeMigr (pageKey slot (edPage b))) ||
    (edOp b == 3 && x.demoting.any (fun y => y.1 == slot && y.2.1 == edPage b)))

/-- What becomes of a batch at this commit. -/
def Dev.batchFate (d : Dev) (p slot : Nat) (q : Seq) (recs : List Bytes) : BatchFate :=
  let x := d.part p
  let pages := d.openPages p slot
  if !lengthsHold recs q.tokens then .stale
  else if recs.any (recOpens q pages) then .wait
  else if x.batchLacks slot recs then .lacks
  else if x.batchCopies slot recs then .wait
  else .apply

/-- The frames that were filled for the PROMOTE records of a batch go. -/
def Part.dropPromoted (x : Part) (slot : Nat) (recs : List Bytes) : Part :=
  (recs.filter (fun b => edOp b == 4)).foldl (fun (x : Part) b =>
    let key := pageKey slot (edPage b)
    match Tab.find x.promoted key with
    | some r => { x with promoted := Tab.del x.promoted key }.dropFrame r.die r.frame x.tick.index
    | none => x) x

/-- Drops a batch: STALE or NO_SPACE for PAGE_EDIT, a count for pg.publish (R224). -/
def Dev.dropBatch (d : Dev) (p id : Nat) (handle : Option Nat) (recs : List Bytes) (status : Nat) : Dev :=
  let d := d.modPart p (fun x => x.dropPromoted (id % 65536) recs)
  match handle with
  | some h => d.complete h status 0 0
  | none => d.count p 14 1

/-! ## State changes at a commit (R221, R233 to R236) -/

/-- Ends the held SEQ_APPENDs of a sequence with a status. -/
def Dev.endAppends (d : Dev) (p id status tokens : Nat) : Dev :=
  (d.heldAppends p id).foldl (fun d e => d.complete e.1 status tokens 0) d

/-- Gives a sequence every leaf of a list of pages; false, and nothing taken, when blocks run out. -/
def Part.leavesFor (x : Part) (slot : Nat) (pages : List Nat) : Bool × Part :=
  let r := pages.foldl (fun (acc : Bool × Part) g =>
    if acc.1 then acc.2.ensureLeaf slot g else acc) (true, x)
  if r.1 then r else (false, x)

/-- A slot for a new sequence. -/
def Part.freeSlot (x : Part) : Option Nat := firstGap (Tab.keys x.seqs) 0 65536

/-- A new sequence as SEQ_CREATE's fields give it. -/
def newSeq (c : Cmd) (gen dirBlock now : Nat) : Seq where
  gen := gen
  pageTokens := c.field 16 2
  planes := c.field 18 2
  maxTokens := c.field 24 8
  homeDie := c.field 20 1
  evictable := bitOf (c.field 21 1) 0
  ns := c.field 32 4
  state := .active
  tokens := 0
  entries := []
  dirBlock := dirBlock
  leaves := []
  leafStore := []
  hold := none
  noSpaceOnce := false
  durable := false
  parkHandle := none
  pending := []
  resumeBy := 0
  walked := now
  badLeaves := []

/-- The page of a fork that holds what a page of its source holds. -/
def forkPage (src : Seq) (ppp page : Nat) : Option Nat :=
  let j := src.blockOf page
  if j < ppp then some (page / src.perPlane * ppp + j) else none

/-- Applies a fork (R233): every valid page of the source, now shared by both. -/
def Dev.applyFork (d : Dev) (p h src : Nat) : Dev :=
  let x := d.part p
  match d.cmd h, x.seqOf src with
  | none, _ => d
  | some _, none => d.failAt h stInvalid 36
  | some c, some (s, q) =>
    match x.freeSlot, x.pickBlock (c.field 20 1) with
    | none, _ => d.failAt h stCount 0
    | _, none => d.complete h stNoSpace 0 0
    | some slot, some b =>
      let new := { newSeq c (Tab.getD x.seqGens slot 1) b d.now with tokens := q.tokens }
      let pairs := q.entries.filterMap (fun e => (forkPage q new.perPlane e.1).map (fun g => (g, e.1, e.2)))
      let r := ((x.takeBlock b).setSeq slot new).leavesFor slot (pairs.map (·.1))
      if !r.1 then d.complete h stNoSpace 0 0
      else
        let y := pairs.foldl (fun (y : Part) e =>
          let en : Entry := { e.2.2 with shared := true }
          let y := if en.tier = 0 then y.refFrame en.die en.frame else y
          let y := if en.tier = 1 ∨ en.storeCopy then y.refStore en.store else y
          (y.setEntry slot e.1 en).setEntry s e.2.1 en) r.2
        (d.setPart p y).complete h stOK (new.ident slot) 0

/-- Applies a suspend. -/
def Dev.applySuspend (d : Dev) (p h id : Nat) : Dev :=
  match (d.part p).seqOf id with
  | none => d.complete h stOK 0 0
  | some (slot, q) =>
    if q.state = .active then
      ((d.modPart p (fun x => (x.endHold slot).modSeq slot (fun q => { q with
        state := .suspended, noSpaceOnce := false }))).endAppends p id stSuspended q.tokens).complete h stOK 0 0
    else d.complete h (if q.state = .parking ∨ q.state = .resuming then stBusy else stOK) 0 0

/-- Pages that parking writes: unshared, in a frame. -/
def Seq.parkPages (q : Seq) : List Nat := (q.entries.filter (fun e => e.2.tier == 0 && !e.2.shared)).map (·.1)

/-- The marker in `pending` for leaves and record, so that it is never empty before PARK_COMPLETE. -/
def leafMarker : Nat := 2 ^ 24

/-- Whether the store has room for a list of a sequence's pages and for its leaves. -/
def Part.storeRoom (x : Part) (q : Seq) : Bool :=
  let pages := (q.entries.filter (fun e => e.2.tier == 0 && !e.2.shared && !e.2.storeCopy)).length
  decide (pages + q.leaves.length ≤ x.storePages - x.storeUsed.length)

/-- Takes store pages for the leaves of a sequence that is being parked (R236). -/
def Part.takeLeafStore (x : Part) (slot : Nat) (leaves : Tab Nat) : Part :=
  leaves.foldl (fun (x : Part) e => match x.freeStore with
    | some g => (x.takeStore g).modSeq slot (fun q => { q with leafStore := Tab.put q.leafStore e.1 g })
    | none => x) x

/-- Applies a park: PARKING, its writes pending; the store pages they go to are taken at once (R236). In read-only mode
durable parking completes with NO_SPACE (R280). -/
def Dev.applyPark (d : Dev) (p h id : Nat) (durable : Bool) : Dev :=
  match (d.part p).seqOf id with
  | none => d.complete h stOK 0 0
  | some (slot, q) =>
    if q.state ≠ .active ∧ q.state ≠ .suspended then
      d.complete h (if q.state = .parked then stOK else stBusy) 0 0
    else if !(d.part p).storeRoom q || (durable && d.tier.readOnly) then d.complete h stNoSpace 0 0
    else
      let d := q.parkPages.foldl (fun (d : Dev) g => d.copyToStore p slot g) d
      (d.modPart p (fun x => ((x.endHold slot).takeLeafStore slot q.leaves).modSeq slot (fun q => { q with
        state := .parking, noSpaceOnce := false, parkHandle := some h, durable := durable
        pending := q.parkPages ++ [leafMarker] }))).endAppends p id stSuspended q.tokens

/-- Releases the store pages of a sequence's leaves. -/
def Part.dropLeafStore (x : Part) (slot : Nat) : Part :=
  match x.seq slot with
  | none => x
  | some q => q.leafStore.foldl (fun (x : Part) e => x.dropStore e.2 x.tick.index) (x.modSeq slot (fun q => { q with leafStore := [] }))

/-- Brings the leaves of a parked sequence back into table blocks; their store pages stay until the sequence is ACTIVE. -/
def Part.leavesBack (x : Part) (slot : Nat) : Bool × Part :=
  match x.seq slot with
  | none => (false, x)
  | some q =>
    x.leavesFor slot (q.leafStore.map (fun e => e.1 * 4096))

/-- Applies a resume that leaves pages in the store, or that ends a suspension. -/
def Dev.applyResumeLazy (d : Dev) (p h id : Nat) : Dev :=
  match (d.part p).seqOf id with
  | none => d.complete h stOK 0 0
  | some (slot, q) =>
    match q.state with
    | .suspended => (d.modPart p (fun x => x.modSeq slot (fun q => { q with state := .active, noSpaceOnce := false }))).complete h stOK 0 0
    | .parked =>
      let r := (d.part p).leavesBack slot
      if r.1 then
        (d.setPart p ((r.2.dropLeafStore slot).modSeq slot (fun q => { q with state := .active, durable := false }))).complete h
          stOK 0 0
      else d.complete h stNoSpace 0 0
    | .active => d.complete h stOK 0 0
    | _ => d.complete h stBusy 0 0

/-- Starts the migrations that an eager resume still lacks, each with a pool frame; eviction makes room for the
rest (R236, R238). -/
def Dev.resumeTake (d : Dev) (p slot : Nat) : Dev :=
  match (d.part p).seq slot with
  | none => d
  | some q =>
    let cold := (q.entries.filter (fun e => e.2.tier == 1)).map (·.1)
    let d := cold.foldl (fun d g => d.startQuiet p slot g q.homeDie false) d
    d.evictFor p (cold.filter (fun g => !Tab.has (d.part p).storeMigr (pageKey slot g))).length

/-- Applies an eager resume: RESUMING, every page of tier 1 to be migrated. -/
def Dev.applyResumeEager (d : Dev) (p h id : Nat) : Dev :=
  match (d.part p).seqOf id with
  | none => d.complete h stOK 0 0
  | some (slot, q) =>
    if q.state ≠ .parked then d.applyResumeLazy p h id
    else
      let r := (d.part p).leavesBack slot
      if !r.1 then d.complete h stNoSpace 0 0
      else
        let y := r.2.modSeq slot (fun q => { q with
          state := .resuming, parkHandle := some h
          pending := (q.entries.filter (fun e => e.2.tier == 1)).map (·.1) ++ [leafMarker]
          resumeBy := r.2.tick.index + r.2.holdLimit })
        (d.setPart p y).resumeTake p slot

/-- Applies a destroy: pages and table blocks are released, the seq_id becomes invalid (R210, R235). -/
def Dev.applyDestroy (d : Dev) (p h id : Nat) : Dev :=
  match (d.part p).seqOf id with
  | none => d.complete h stOK 0 0
  | some (slot, q) =>
    if q.state = .parking ∨ q.state = .resuming then d.complete h stBusy 0 0
    else
      let d := d.freezeWalks p slot
      let x := (d.part p).endHold slot
      let w := x.tick.index
      let x := (q.entries.map (·.1)).foldl (fun x g => x.clearEntry slot g w) x
      let x := (q.leaves.map (·.2)).foldl (fun x b => x.dropBlock b w) (x.dropBlock q.dirBlock w)
      let x := (q.leafStore.map (·.2)).foldl (fun x g => x.dropStore g w) x
      let gen := if q.gen = 65535 then 1 else q.gen + 1
      let x := { x with seqs := Tab.del x.seqs slot, seqGens := Tab.put x.seqGens slot gen }
      ((d.setPart p x).endAppends p id stAborted q.tokens).complete h stOK 0 0

/-- Whether a sequence is fit for a MAP (R229). -/
def Seq.fitFor (q : Seq) (ns pageTokens planes : Nat) : Bool :=
  q.state == .active && q.tokens == 0 && q.entries.isEmpty && q.ns == ns && q.pageTokens == pageTokens && q.planes == planes

/-- Removes the pins that a MAP put on its nodes. -/
def Part.unpin (x : Part) (nodes : List Nat) : Part :=
  nodes.foldl (fun x i => match Tab.find x.nodes i with
    | some n => { x with nodes := Tab.put x.nodes i { n with pins := n.pins - 1 } }
    | none => x) x

/-- Applies the mapping of a PREFIX_LOOKUP MAP (R229): the target's entries are shared, node set. -/
def Dev.applyMap (d : Dev) (p h id : Nat) (nodes : List Nat) : Dev :=
  let x := (d.part p).unpin nodes
  let found := nodes.filterMap (fun i => (Tab.find x.nodes i).map (fun n => (i, n)))
  match x.seqOf id with
  | none => (d.setPart p x).failAt h stInvalid 40
  | some (slot, q) =>
    match found.head? with
    | none => (d.setPart p x).complete h stOK 0 0
    | some (_, n0) =>
      if !q.fitFor n0.ns n0.pageTokens n0.planes then (d.setPart p x).failAt h stInvalid 40
      else
        let spots := found.zipIdx.flatMap (fun e => e.1.2.pages.zipIdx.map (fun f => (f.2 * q.perPlane + e.2, e.1.1, f.1)))
        let r := x.leavesFor slot (spots.map (·.1))
        if !r.1 then (d.setPart p x).complete h stNoSpace 0 0
        else
          let n := found.length * q.pageTokens
          let y := spots.foldl (fun (y : Part) e =>
            (y.refFrame e.2.2.1 e.2.2.2).setEntry slot e.1
              ⟨some e.2.1, 0, e.2.2.1, e.2.2.2, q.pageTokens, d.frameGen p e.2.2.1 e.2.2.2, false, true, 0⟩) r.2
          let y := y.modSeq slot (fun q => { q with tokens := n })
          (d.setPart p y).complete h stOK n 0

/-- Switches to the next key generation (R376): the old generation and its inst are swept. A second KEY_ROTATE of one
window finds the first one's sweep and changes nothing. -/
def Dev.applyRotate (d : Dev) (p h : Nat) : Dev :=
  let x := d.part p
  let g := (x.gen + 1) % 256
  let y := { x with oldGen := some (x.gen, x.inst), gen := g, inst := if g = 0 then x.inst + 1 else x.inst }
  if x.oldGen.isSome then d.complete h stBusy 0 0 else (d.setPart p y).complete h stOK g 0

/-! ## Step 1 of a commit -/

/-- The window in which a staged item arrived. -/
def Staged.window : Staged → Nat
  | .edits _ _ _ w => w
  | .fork _ _ w => w
  | .suspend _ _ w => w
  | .park _ _ _ w => w
  | .resumeLazy _ _ w => w
  | .resumeEager _ _ w => w
  | .destroy _ _ w => w
  | .mapPages _ _ _ w => w
  | .rotate _ w => w
  | .abortAt _ _ w => w

/-- The command that a staged item belongs to. -/
def Staged.handle : Staged → Option Nat
  | .edits h _ _ _ => h
  | .fork h _ _ => some h
  | .suspend h _ _ => some h
  | .park h _ _ _ => some h
  | .resumeLazy h _ _ => some h
  | .resumeEager h _ _ => some h
  | .destroy h _ _ => some h
  | .mapPages h _ _ _ => some h
  | .rotate h _ => some h
  | .abortAt h _ _ => some h

/-- Applies one batch, or keeps it for the next boundary. A batch that could wait no longer and still lacks a
frame is left to EDIT_BATCH_EXPIRY at the commit at which a hold of its window would expire. -/
def Dev.applyEdits (d : Dev) (p : Nat) (h : Option Nat) (id : Nat) (recs : List Bytes) (w : Nat) : Bool × Dev :=
  let x := d.part p
  match x.seqOf id with
  | none => (true, match h with
      | some h => d.complete h stInvalid 0 (locus 0 0 28)
      | none => d.count p 14 1)
  | some (slot, q) =>
    match d.batchFate p slot q recs with
    | .stale => (true, d.dropBatch p id h recs stStale)
    | .wait => (false, d)
    | .lacks =>
      if w + x.holdLimit < x.tick.index then (true, d.dropBatch p id h recs stNoSpace)
      else (false, (d.startCopies p slot recs).evictOne p)
    | .apply =>
      let d := recs.foldl (fun d b => d.applyRec p slot w b) (d.freezeWalks p slot)
      (true, match h with
        | some h => d.complete h stOK x.tick.index 0
        | none => d)

/-- Applies one staged item; false keeps it staged. -/
def Dev.applyOne (d : Dev) (p : Nat) (held : List Nat) : Staged → Bool × Dev
  | .edits h id recs w => if held.contains id then (false, d) else d.applyEdits p h id recs w
  | .fork h src _ => (true, d.applyFork p h src)
  | .suspend h id _ => (true, d.applySuspend p h id)
  | .park h id durable _ => (true, d.applyPark p h id durable)
  | .resumeLazy h id _ => (true, d.applyResumeLazy p h id)
  | .resumeEager h id _ => (true, d.applyResumeEager p h id)
  | .destroy h id _ => (true, d.applyDestroy p h id)
  | .mapPages h id nodes _ => (true, d.applyMap p h id nodes)
  | .rotate h _ => (true, d.applyRotate p h)
  | .abortAt _ _ _ => (true, d)

/-- The sequence whose later batches wait behind a batch that stays. -/
def Staged.holdsBack : Staged → List Nat
  | .edits _ id _ _ => [id]
  | _ => []

/-- Applies what was staged in earlier windows, in arrival order. -/
def Dev.applyStaged (d : Dev) (p : Nat) : Dev :=
  let k := (d.part p).tick.index
  let items := (d.part p).staged
  let d := d.modPart p (fun x => { x with staged := [] })
  let r := items.foldl (fun (acc : List Staged × List Nat × Dev) i =>
    if k ≤ i.window then (acc.1 ++ [i], acc.2.1, acc.2.2)
    else
      let q := acc.2.2.applyOne p acc.2.1 i
      if q.1 then (acc.1, acc.2.1, q.2) else (acc.1 ++ [i], acc.2.1 ++ i.holdsBack, q.2)) ([], [], d)
  r.2.2.modPart p (fun x => { x with staged := r.1 ++ x.staged })

/-- Completes the parks and resumes whose work has ended: PARKED or ACTIVE at this commit (R235). -/
def Dev.finishMoves (d : Dev) (p : Nat) : Dev :=
  (d.part p).seqs.foldl (fun (d : Dev) e =>
    match (d.part p).seq e.1 with
    | none => d
    | some q =>
      let become := fun (d : Dev) st => d.modPart p (fun x => x.modSeq e.1 (fun q => { q with
        state := st, parkHandle := none, durable := q.durable && st == SeqState.parked }))
      let tell := fun (d : Dev) => match q.parkHandle with
        | some h => d.complete h stOK 0 0
        | none => d
      if !q.pending.isEmpty then d
      else match q.state with
        | .parking => tell (become d .parked)
        | .resuming => tell ((become d .active).modPart p (fun x => x.dropLeafStore e.1))
        | _ => d) d

/-- Eager resumes that still lack frames try again (R236). -/
def Dev.retryResumes (d : Dev) (p : Nat) : Dev :=
  (d.part p).seqs.foldl (fun (d : Dev) e => if e.2.state = .resuming then d.resumeTake p e.1 else d) d

/-- Takes back what a command has staged: it is never applied (R360, R395). -/
def Dev.unstage (d : Dev) (p h : Nat) : Dev :=
  d.modPart p (fun x =>
    let mine := x.staged.flatMap (fun i => match i with
      | .mapPages a _ nodes _ => if a = h then nodes else []
      | _ => [])
    { x.unpin mine with staged := x.staged.filter (fun i => i.handle != some h) })

/-! ## Step 3 of a commit (R221, R222) -/

/-- Gives each hold, in the order in which they began, a page that is free on its die or another; eviction goes on for
those that stay short (R238). -/
def Dev.assignHolds (d : Dev) (p : Nat) : Dev :=
  let order := ((d.part p).seqs.filter (fun e => e.2.hold.isSome)).mergeSort
    (fun a b => decide (a.2.hold.elim 0 (·.order) ≤ b.2.hold.elim 0 (·.order)))
  let d := order.foldl (fun (d : Dev) e =>
    let x := d.part p
    match x.seq e.1 with
    | none => d
    | some q => match q.hold with
      | none => d
      | some h =>
        if h.kept.isSome then d
        else match x.pickFrame h.die with
          | none => d
          | some f =>
            ((d.setPart p ((x.takeFrame f).setSeq e.1 { q with hold := some { h with kept := some f } })).pageRecord p
              (q.ident e.1) 2 q.tokens none).2) d
  d.evictFor p (d.part p).shortHolds

/-- Ends the holds that have reached their limit without what they lack (R221 step 4). -/
def Dev.expireHolds (d : Dev) (p : Nat) : Dev := (Tab.keys (d.part p).seqs).foldl (fun d slot => d.expireHold p slot) d

/-! ## Rows -/

/-- HOLD_EXPIRY: one hold that has reached its limit and lacks its page. The commit expires those it finds so in step 4 of
R221; one that loses its kept page to an append that still lacks another is past its limit later in the window
(DESIGN CHOICE, log 158). -/
def execHoldExpiry (p slot : Nat) (s : State) : Host.Outcome State Fault Refusal :=
  onUnit (decide (p < 4)) (whenUp s (fun d => d.expireHold p slot))

/-- Drops every batch whose waiting time is over and that still lacks a frame or store page. -/
def Dev.expireBatches (d : Dev) (p : Nat) : Dev :=
  let x := d.part p
  let late := x.staged.filter (fun i => match i with
    | .edits _ id recs w => decide (w + x.holdLimit ≤ x.tick.index) && (match x.seqOf id with
        | some (slot, _) => x.batchLacks slot recs
        | none => false)
    | _ => false)
  let d := d.setPart p { x with staged := x.staged.filter (fun i => !late.contains i) }
  late.foldl (fun d i => match i with
    | .edits h id recs _ => d.dropBatch p id h recs stNoSpace
    | _ => d) d

/-- EDIT_BATCH_EXPIRY (R224). -/
def execEditBatchExpiry (p : Nat) (s : State) : Host.Outcome State Fault Refusal :=
  onUnit (decide (p < 4)) (whenUp s (fun d => d.expireBatches p))

/-- An eager resume that could not get its frames in time goes back to PARKED (R236): frames already filled
are released, leaves go back to the store. -/
def Dev.expireResume (d : Dev) (p slot : Nat) : Dev :=
  let x := d.part p
  match x.seq slot with
  | none => d
  | some q =>
    let cold := (q.entries.filter (fun e => e.2.tier == 1)).map (·.1)
    let lacking := cold.any (fun g => !Tab.has x.storeMigr (pageKey slot g))
    if q.state ≠ .resuming ∨ x.tick.index < q.resumeBy ∨ !lacking then d
    else
      let w := x.tick.index
      let x := cold.foldl (fun (x : Part) g => match Tab.find x.storeMigr (pageKey slot g) with
        | some m =>
          let y := { x with storeMigr := Tab.del x.storeMigr (pageKey slot g) }
          (match m.frame with
            | some f => y.dropFrame f.1 f.2 w
            | none => y)
        | none => x) x
      let x := ((q.entries.filter (fun e => e.2.tier == 0 && e.2.storeCopy && !e.2.shared)).map (·.1)).foldl
        (fun x g => x.toStore slot g w) x
      let x := q.leaves.foldl (fun (x : Part) e => x.dropBlock e.2 w) x
      let d := d.setPart p (x.modSeq slot (fun q => { q with
        state := .parked, leaves := [], pending := [], parkHandle := none }))
      match q.parkHandle with
      | some h => d.complete h stNoSpace 0 0
      | none => d

/-- RESUME_EXPIRY. -/
def execResumeExpiry (p slot : Nat) (s : State) : Host.Outcome State Fault Refusal :=
  onUnit (decide (p < 4)) (whenUp s (fun d => d.expireResume p slot))

/-- Makes every store page and leaf of a sequence durable, with its 4 KiB record; the bytes count (R237, R280). -/
def Dev.settleSeq (d : Dev) (p slot : Nat) : Dev :=
  let x := d.part p
  match x.seq slot with
  | none => d
  | some q =>
    let mine := q.entries.map (·.2.store)
    let n := (x.storeSectors.filter (fun e => mine.contains (e.1 / 16) && !e.2.later.isEmpty)).length
    (d.setPart p { x with storeSectors := x.storeSectors.map (fun e =>
      if mine.contains (e.1 / 16) then (e.1, e.2.settle) else e) }).count p 7 (4096 * n + 65536 * q.leafStore.length + 4096)

/-- The last store write of a parking sequence ends (R236): pages that are still unshared go to tier 1, the leaves to
their store pages, their table blocks back; all durable when asked. In read-only mode nothing becomes durable, and the
park that asked for it completes with NO_SPACE (R280). -/
def Dev.parkWritten (d : Dev) (p slot : Nat) : Dev :=
  match (d.part p).seq slot with
  | none => d
  | some q =>
    if q.state ≠ .parking ∨ q.pending.isEmpty then d
    else
      let w := (d.part p).tick.index
      let pages := q.pending.filter (fun g => decide (g < leafMarker) &&
        ((d.part p).entryOf slot g).elim false (fun e => !e.shared))
      let d := pages.foldl (fun (d : Dev) g => d.modPart p (fun x => x.toStore slot g w)) d
      let d := d.modPart p (fun x => q.leaves.foldl (fun (x : Part) e => x.dropBlock e.2 w) x)
      let refused := q.durable && d.tier.readOnly
      let d := d.modPart p (fun x => x.modSeq slot (fun q => { q with
        leaves := [], pending := [], durable := q.durable && !refused
        parkHandle := if refused then none else q.parkHandle }))
      match refused, q.parkHandle with
      | true, some h => d.complete h stNoSpace 0 0
      | _, _ => if q.durable && !refused then d.settleSeq p slot else d

/-- PARK_COMPLETE. -/
def execParkComplete (p slot : Nat) (s : State) : Host.Outcome State Fault Refusal :=
  onUnit (decide (p < 4)) (whenUp s (fun d => d.parkWritten p slot))

/-- The last page of an eager resume lands: every migration that still runs for it lands whole. -/
def Dev.resumeLanded (d : Dev) (p slot : Nat) : Dev :=
  match (d.part p).seq slot with
  | none => d
  | some q =>
    let cold := (q.entries.filter (fun e => e.2.tier == 1)).map (·.1)
    let ready := fun g => match Tab.find (d.part p).storeMigr (pageKey slot g) with
      | some m => m.frame.elim false (fun f => d.ioState f.1 == 0)
      | none => false
    if q.state ≠ .resuming ∨ cold.any (fun g => !ready g) then d
    else
      let d := cold.foldl (fun d g => d.landStore p (pageKey slot g) 0) d
      d.modPart p (fun x => x.modSeq slot (fun q => { q with pending := [] }))

/-- RESUME_COMPLETE. -/
def execResumeComplete (p slot : Nat) (s : State) : Host.Outcome State Fault Refusal :=
  onUnit (decide (p < 4)) (whenUp s (fun d => d.resumeLanded p slot))

/-- DEMOTION_COMPLETE (R224, R238): the store write of a page ends; an eviction's entry switches now, an
edit's at its commit. -/
def execDemotionComplete (p slot page : Nat) (s : State) : Host.Outcome State Fault Refusal :=
  onUnit (decide (p < 4)) (whenUp s (fun d =>
    match (d.part p).demoting.find? (fun y => y.1 == slot && y.2.1 == page) with
    | none => d
    | some y =>
      if ((d.part p).entryOf slot page).elim false (fun e => e.tier == 0 && d.ioState e.die != 0) then d else
      let d := d.modPart p (fun x => { x with demoting := x.demoting.filter (fun z => !(z.1 == slot && z.2.1 == page)) })
      match (d.part p).entryOf slot page with
      | none => d
      | some e =>
        if e.tier = 1 ∨ e.shared then d
        else
          let d := d.copyToStore p slot page
          if y.2.2 then d else d.modPart p (fun x => x.toStore slot page x.tick.index)))

end Sys2Proof.Machine
end

