-- ==== Sys2Proof/Machine/PgOps.lean ====
section
/-!
DEFINITION. The pg. operations and the request queue of the cluster control core (R73, R74, R76, R102 to R104).
-/

namespace Sys2Proof.Machine

/-! ## What each operation comes to when its request is served -/

/-- What a SUSPENDED, PARKING, PARKED or RESUMING sequence answers a pg.append, and the sequence after it. -/
def Seq.refuse (q : Seq) : Nat × Seq :=
  if q.state = .suspended ∧ q.noSpaceOnce then (stNoSpace, { q with noSpaceOnce := false }) else (stSuspended, q)

/-- Serves a pg.append; false while a page comes from the store, a tag unit is converted or the stacks are throttled. One
that begins a hold waits for its PAGE record when only reserved entries of the ledger are free (R133). -/
def Dev.pgAppend (d : Dev) (c : Nat) (e : Issued) : Bool × Dev :=
  let p := d.corePart c
  let w := e.bytes
  let off := fieldOf w 24 8
  let n := fieldOf w 32 8
  match (d.part p).seqOf (fieldOf w 16 4) with
  | none => (true, d.settle c e.id stInvalid false)
  | some (slot, q) =>
    if q.state ≠ .active then (true, (d.modPart p (fun x => x.setSeq slot q.refuse.2)).settle c e.id q.refuse.1 false)
    else match q.appendFail off n (fieldOf w 40 4) with
      | some st => (true, d.settle c e.id st false)
      | none =>
        if (piecesOf off n).any (fun y => q.badLeaves.contains (y.1 / 4096)) then (true, d.settle c e.id stDeviceFault false)
        else
          let bs := good (Mem.read (d.core c).sp ((d.core c).ref w 20) n)
          let r := d.tryAppend p slot (dieOfCore c) off bs (fieldOf w 40 4)
          if !d.affords r.2 then (false, d)
          else match r.1 with
            | .yes =>
              let d := if (r.2.heldAppends p (q.ident slot)).isEmpty then r.2.modPart p (fun x => x.endHold slot) else r.2
              (true, d.settle c e.id stOK true)
            | .lack b =>
              let h := r.2.holdSeq p slot (dieOfCore c) b (some (c, e))
              let d := h.2.settle c e.id stBusy false
              (true, if h.1 then d else d.setWait c e.id .ledger)
            | .later => (false, r.2)

/-- Serves a pg.publish (R104): the records come from the scratchpad; a record that fails faults the operation. -/
def Dev.pgPublish (d : Dev) (c : Nat) (e : Issued) : Dev :=
  let p := d.corePart c
  let n := fieldOf e.bytes 40 4
  match (d.part p).seqOf (fieldOf e.bytes 16 4) with
  | none => d.settle c e.id stInvalid false
  | some (slot, q) =>
    let recs := recsOf (Mem.read (d.core c).sp ((d.core c).ref e.bytes 20) (32 * n)) n
    if q.state = .parking ∨ q.state = .parked ∨ q.state = .resuming then d.settle c e.id stBusy false
    else match batchFail (d.part p) q recs with
      | some f => d.settle c e.id f.1 false
      | none => ((d.acceptBatch p slot none recs).2).settle c e.id stOK false

/-- Walks the pages of a pg.prefetch in ascending order (R214, R215, R217): promotion starts for each that is cold; an
entry that cannot be used ends the walk. The status, and whether some page was cold. -/
def Dev.prefetchWalk (d : Dev) (p slot die : Nat) (q : Seq) : List Nat → Bool → Nat × Bool × Dev
  | [], cold => (stOK, cold, d)
  | g :: gs, cold =>
    if q.badLeaves.contains (g / 4096) then (stDeviceFault, cold, d)
    else
      let e := q.latch g
      match (d.part p).entryFail e with
      | some st => (st, cold, d)
      | none =>
        if e.tier = 1 then (d.startStoreMigr p slot g die true).prefetchWalk p slot die q gs true
        else d.prefetchWalk p slot die q gs cold

/-- Serves a pg.prefetch; its condition is that some page was cold. -/
def Dev.pgPrefetch (d : Dev) (c : Nat) (e : Issued) : Dev :=
  let p := d.corePart c
  let off := fieldOf e.bytes 24 8
  let n := fieldOf e.bytes 32 8
  match d.liveSeq p (fieldOf e.bytes 16 4) with
  | .inl st => d.settle c e.id st false
  | .inr (slot, q) => match q.walkFail off n 1 0 with
    | some st => d.settle c e.id st false
    | none =>
      let r := d.prefetchWalk p slot (dieOfCore c) q (pagesOf off n) false
      r.2.2.settle c e.id r.1 r.2.1

/-- The state code of a sequence (R234). -/
def seqCode : SeqState → Nat
  | .active => 1
  | .suspended => 2
  | .parking => 3
  | .parked => 4
  | .resuming => 5

/-- The record pg.info writes (R104). -/
def Seq.info (q : Seq) (gen : Nat) : Bytes :=
  natLE 8 q.tokens ++ natLE 8 q.regionBytes ++ natLE 1 (seqCode q.state) ++ natLE 1 gen ++
    natLE 1 (b2n q.hold.isSome) ++ List.replicate 13 0

/-- Serves a pg.info; its condition is that the sequence accepts appends. -/
def Dev.pgInfo (d : Dev) (c : Nat) (e : Issued) : Dev :=
  let p := d.corePart c
  match (d.part p).seqOf (fieldOf e.bytes 16 4) with
  | none => d.settle c e.id stInvalid false
  | some (_, q) =>
    let bs := q.info (d.part p).gen
    (d.modCore c (fun k => { k with sp := Mem.write k.sp (k.ref e.bytes 20) bs })).settle c e.id stOK (q.state == .active)

/-! ## The request queue (R73, R74, R102) -/

/-- Requests a cluster control core holds, and those of one core among them. -/
def pgQueue : Nat := 64
/-- Requests of one core at most. -/
def pgPerCore : Nat := 8

/-- Whether the queue takes one more request of a core. -/
def Cluster.pgRoom (x : Cluster) (c : Nat) : Bool :=
  decide (x.pgQ.length < pgQueue) && decide ((x.pgQ.filter (fun r => r.core == c)).length < pgPerCore)

/-- The pg. words of a cluster's cores that wait in the window take the places that are free: each core's oldest first,
the cores in ascending order. -/
def Dev.pgLetIn (d : Dev) (cl : Nat) : Dev :=
  (List.range 8).foldl (fun (d : Dev) i =>
    (d.core (8 * cl + i)).window.foldl (fun (d : Dev) e =>
      let r : PgReq := ⟨8 * cl + i, e.id⟩
      if e.wait == .pgq && !(d.cluster cl).pgQ.contains r && (d.cluster cl).pgRoom (8 * cl + i) then
        d.modCluster cl (fun x => { x with pgQ := x.pgQ ++ [r] })
      else d) d) d

/-- Serves the request at the front of the queue: false when it has to wait. -/
def Dev.serveFront (d : Dev) (r : PgReq) : Bool × Dev :=
  match (d.core r.core).window.find? (fun e => e.id == r.op) with
  | none => (true, d)
  | some e => match opCode e.bytes with
    | 1 => d.pgAppend r.core e
    | 2 => (true, d.pgPublish r.core e)
    | 3 => (true, d.pgPrefetch r.core e)
    | _ => (true, d.pgInfo r.core e)

/-- Serves the requests of a cluster in the order in which they arrived, up to the first that waits. `fuel` bounds the
requests of eight windows. -/
def Dev.servePgFuel : Nat → Dev → Nat → Dev
  | 0, d, _ => d
  | n + 1, d, cl =>
    let d := d.pgLetIn cl
    match (d.cluster cl).pgQ with
    | [] => d
    | r :: _ =>
      let q := d.serveFront r
      if q.1 then Dev.servePgFuel n (q.2.modCluster cl (fun x => { x with pgQ := x.pgQ.drop 1 })) cl else q.2

/-- Serves the requests of a cluster. -/
def Dev.servePgOf (d : Dev) (cl : Nat) : Dev := Dev.servePgFuel 256 d cl

/-- Serves the requests of a partition's clusters. -/
def Dev.servePg (d : Dev) (p : Nat) : Dev :=
  (d.part p).clusterList.foldl (fun (d : Dev) cl => if (d.cluster cl).pgQ.isEmpty then d else d.servePgOf cl) d

/-- Issues a pg. operation: it takes a place in the request queue of its cluster, or waits in the window for one, and the
queue is served. An empty one names its sequence all the same (R203). -/
def Dev.pgIssue (d : Dev) (c : Nat) (w : Bytes) (empty : Bool) : Dev :=
  let cl := clusterOfCore c
  if (d.cluster cl).failed then d.pushOp c w stDeviceFault false .ready
  else if empty then
    (if ((d.part (d.corePart c)).seqOf (fieldOf w 16 4)).isNone then d.pushOp c w stInvalid false .ready else d.pushEmpty c w)
  else (d.pushOp c w stOK false .pgq).servePgOf cl

/-- PG_APPEND (R102, R103): bytes alone decides whether it is empty. -/
def execPgAppend (c : Nat) (s : State) : Host.Outcome State Fault Refusal :=
  issueOn c 9 1 s (fun w d => d.pgIssue c w (fieldOf w 32 8 == 0))

/-- PG_PUBLISH (R104). -/
def execPgPublish (c : Nat) (s : State) : Host.Outcome State Fault Refusal :=
  issueOn c 9 2 s (fun w d => d.pgIssue c w (fieldOf w 40 4 == 0))

/-- PG_PREFETCH (R217). -/
def execPgPrefetch (c : Nat) (s : State) : Host.Outcome State Fault Refusal :=
  issueOn c 9 3 s (fun w d => d.pgIssue c w (fieldOf w 32 8 == 0))

/-- PG_INFO (R104). -/
def execPgInfo (c : Nat) (s : State) : Host.Outcome State Fault Refusal :=
  issueOn c 9 4 s (fun w d => d.pgIssue c w false)

end Sys2Proof.Machine
end

