-- ==== Sys2Proof/Machine/SeqCmd.lean ====
section
/-!
DEFINITION. The commands on sequences: SEQ_CREATE to SEQ_DESTROY, PAGE_EDIT and PREFIX_LOOKUP (R207 to R210,
R218 to R225, R228 to R237, R363).
-/

namespace Sys2Proof.Machine

/-- Stages an item for the commit that ends this window; the command runs until then. -/
def Dev.stage (d : Dev) (p h : Nat) (i : Nat → Staged) : Dev :=
  (d.running h).modPart p (fun x => { x with staged := x.staged ++ [i x.tick.index] })

/-! ## SEQ_CREATE (R207, R209 to R211, R233) -/

/-- The checks on a power-of-two page size. -/
def pageTokensFail (off n : Nat) : List (Nat × Nat × Bool) :=
  [(off, stInvalid, !isPow2 n), (off, stBounds, decide (512 < n))]

/-- The first failing fork check of R209. -/
def forkFail (x : Part) (c : Cmd) : Option (Nat × Nat) :=
  if c.field 36 4 = 0 then none
  else match x.seqOf (c.field 36 4) with
    | none => some (stInvalid, 36)
    | some (_, q) =>
      if q.state ≠ .active ∧ q.state ≠ .suspended then some (stInvalid, 36)
      else if c.field 16 2 ≠ q.pageTokens then some (stInvalid, 16)
      else if c.field 18 2 ≠ q.planes then some (stInvalid, 18)
      else if c.field 24 8 < q.tokens then some (stLength, 24)
      else none

/-- SEQ_CREATE once its fields have passed. -/
def Dev.seqCreate (d : Dev) (h : Nat) (c : Cmd) : Dev :=
  let p := c.part
  let x := d.part p
  match forkFail x c with
  | some f => d.failAt h f.1 f.2
  | none =>
    if c.field 24 8 = 0 then d.complete h stOK 0 0
    else match x.freeSlot, x.pickBlock (c.field 20 1) with
    | none, _ => d.failAt h stCount 0
    | _, none => d.complete h stNoSpace 0 0
    | some slot, some b =>
      if c.field 36 4 ≠ 0 then d.stage p h (fun w => .fork h (c.field 36 4) w)
      else
        let q := newSeq c (Tab.getD x.seqGens slot 1) b d.now
        (d.setPart p ((x.takeBlock b).setSeq slot q)).complete h stOK (q.ident slot) 0

/-- SEQ_CREATE. -/
def execSeqCreate (h : Nat) (s : State) : Host.Outcome State Fault Refusal :=
  runCmd h 0x40 anyForm s (fun c d =>
    let pt := c.field 16 2
    let planes := c.field 18 2
    d.checked h (pageTokensFail 16 pt ++
      [(18, stCount, planes == 0 || decide (4096 < planes)), (20, stPartition, !(d.part c.part).hasDie (c.field 20 1)),
       (21, stInvalid, decide (1 < c.field 21 1)),
       (24, stBounds, decide (2 ^ 40 < planes * ceilDiv (c.field 24 8) pt * 65536))] ++
      rsvBytes c [(22, 2), (40, 24)]) (fun d => d.seqCreate h c))

/-! ## SEQ_APPEND (R218 to R222) -/

/-- Where a failed append check lies: the count when it alone takes the sequence beyond its length. -/
def appendFailAt (q : Seq) (off n count : Nat) : Nat :=
  if (q.appendFail off n 0).isNone ∧ (q.appendFail off n count).isSome then 40 else 32

/-- Tries a SEQ_APPEND that has its data: it completes, is held, or waits for a page from the store. Those held
before it on its sequence go first. -/
def Dev.seqAppend (d : Dev) (h : Nat) (c : Cmd) (bs : Bytes) : Dev :=
  let p := c.part
  match (d.part p).seqOf (c.field 28 4) with
  | none => d.failAt h stInvalid 28
  | some (slot, q) =>
    let off := c.field 32 8
    let wait := fun (d : Dev) => d.modCmd h (fun c => { c with phase := .running, data := bs })
    if q.state ≠ .active then d.complete h stSuspended q.tokens 0
    else match q.appendFail off bs.length (c.field 40 4) with
      | some st => d.failAt h st (appendFailAt q off bs.length (c.field 40 4))
      | none =>
        let r := d.tryAppend p slot q.homeDie off (good bs) (c.field 40 4)
        if (piecesOf off bs.length).any (fun y => q.badLeaves.contains (y.1 / 4096)) then d.complete h stDeviceFault 0 0
        else if (d.heldAppends p (c.field 28 4)).any (fun e => decide (e.2.order < c.order)) || !d.affords r.2 then wait d
        else match r.1 with
          | .yes =>
            let last := ((r.2.heldAppends p (c.field 28 4)).filter (fun e => e.1 != h)).isEmpty
            let d := if last then r.2.modPart p (fun x => x.endHold slot) else r.2
            d.complete h stOK (((d.part p).seq slot).elim 0 (·.tokens)) 0
          | .lack b => wait (r.2.holdSeq p slot q.homeDie b none).2
          | .later => wait r.2

/-- SEQ_APPEND. -/
def execSeqAppend (h : Nat) (data : Bytes) (s : State) : Host.Outcome State Fault Refusal :=
  runCmd h 0x41 anyForm s (fun c d =>
    let n := c.field 24 4
    d.checked h ([(24, stAlign, n % 128 != 0),
        (28, stInvalid, ((d.part c.part).seqOf (c.field 28 4)).isNone)] ++ rsvBytes c [(44, 20)])
      (fun d =>
        if n = 0 then d.complete h stOK (((d.part c.part).seqOf (c.field 28 4)).elim 0 (·.2.tokens)) 0
        else d.withObject h c n data (fun bs d => d.seqAppend h c bs)))

/-- Tries again the SEQ_APPENDs of a partition that wait, in fetch order. -/
def Dev.retryAppends (d : Dev) (p : Nat) : Dev :=
  let waiting := (d.host.live.filter (fun e => e.2.part == p && e.2.op == 0x41 && e.2.phase == .running)).mergeSort
    (fun a b => decide (a.2.order ≤ b.2.order))
  waiting.foldl (fun (d : Dev) e => match d.cmd e.1 with
    | some c => d.seqAppend e.1 c c.data
    | none => d) d

/-! ## SEQ_SUSPEND, SEQ_RESUME, SEQ_DESTROY (R235 to R237, R363) -/

/-- A field check that a seq_id names a sequence. -/
def Dev.seqChecked (d : Dev) (h : Nat) (c : Cmd) (off : Nat) (cs : List (Nat × Nat × Bool))
    (act : Nat → Seq → Dev → Dev) : Dev :=
  d.checked h ((off, stInvalid, ((d.part c.part).seqOf (c.field off 4)).isNone) :: cs) (fun d =>
    match (d.part c.part).seqOf (c.field off 4) with
    | some (slot, q) => act slot q d
    | none => d)

/-- What a command that R235's table does not list for a state comes to. -/
def Dev.unlisted (d : Dev) (h : Nat) (q : Seq) : Dev :=
  d.complete h (if q.state = .parking ∨ q.state = .resuming then stBusy else stOK) 0 0

/-- The reserved bits of SEQ_SUSPEND. -/
def suspendRsv (c : Cmd) : List (Nat × Nat × Bool) := (20, stInvalid, decide (15 < c.field 20 1)) :: rsvBytes c [(21, 43)]

/-- SEQ_SUSPEND with park = 0. -/
def execSeqSuspend (h : Nat) (s : State) : Host.Outcome State Fault Refusal :=
  runCmd h 0x42 (fun c => !bitOf (c.field 20 1) 0 && !bitOf (c.field 20 1) 2) s (fun c d =>
    d.seqChecked h c 16 (suspendRsv c) (fun _ q d =>
      if q.state = .active then d.stage c.part h (fun w => .suspend h (c.field 16 4) w) else d.unlisted h q))

/-- SEQ_SUSPEND with park = 1: durable parking completes with NO_SPACE in read-only mode (R280). -/
def execSeqSuspendPark (h : Nat) (s : State) : Host.Outcome State Fault Refusal :=
  runCmd h 0x42 (fun c => bitOf (c.field 20 1) 0 && !bitOf (c.field 20 1) 2) s (fun c d =>
    d.seqChecked h c 16 (suspendRsv c) (fun _ q d =>
      let durable := bitOf (c.field 20 1) 1
      if q.state ≠ .active ∧ q.state ≠ .suspended then d.unlisted h q
      else if durable && d.tier.readOnly then d.complete h stNoSpace 0 0
      else d.stage c.part h (fun w => .park h (c.field 16 4) durable w)))

/-- SEQ_SUSPEND with evict_only = 1: the evictable field alone, in every state. -/
def execSeqSuspendEvictOnly (h : Nat) (s : State) : Host.Outcome State Fault Refusal :=
  runCmd h 0x42 (fun c => bitOf (c.field 20 1) 2) s (fun c d =>
    d.seqChecked h c 16 (suspendRsv c) (fun slot _ d =>
      (d.modPart c.part (fun x => x.modSeq slot (fun q => { q with evictable := bitOf (c.field 20 1) 3 }))).complete h stOK 0 0))

/-- The reserved bits of SEQ_RESUME. -/
def resumeRsv (c : Cmd) : List (Nat × Nat × Bool) := (20, stInvalid, decide (1 < c.field 20 1)) :: rsvBytes c [(21, 43)]

/-- SEQ_RESUME with lazy = 1. -/
def execSeqResumeLazy (h : Nat) (s : State) : Host.Outcome State Fault Refusal :=
  runCmd h 0x43 (fun c => bitOf (c.field 20 1) 0) s (fun c d =>
    d.seqChecked h c 16 (resumeRsv c) (fun _ q d =>
      if q.state = .suspended ∨ q.state = .parked then d.stage c.part h (fun w => .resumeLazy h (c.field 16 4) w)
      else d.unlisted h q))

/-- SEQ_RESUME with lazy = 0. -/
def execSeqResumeEager (h : Nat) (s : State) : Host.Outcome State Fault Refusal :=
  runCmd h 0x43 (fun c => !bitOf (c.field 20 1) 0) s (fun c d =>
    d.seqChecked h c 16 (resumeRsv c) (fun _ q d =>
      if q.state = .suspended ∨ q.state = .parked then d.stage c.part h (fun w => .resumeEager h (c.field 16 4) w)
      else d.unlisted h q))

/-- SEQ_DESTROY. -/
def execSeqDestroy (h : Nat) (s : State) : Host.Outcome State Fault Refusal :=
  runCmd h 0x44 anyForm s (fun c d =>
    d.seqChecked h c 16 (rsvBytes c [(20, 44)]) (fun _ q d =>
      if q.state = .parking ∨ q.state = .resuming then d.complete h stBusy 0 0
      else d.stage c.part h (fun w => .destroy h (c.field 16 4) w)))

/-! ## PAGE_EDIT (R223 to R225) -/

/-- PAGE_EDIT: its batch is checked whole, then accepted. -/
def execPageEdit (h : Nat) (data : Bytes) (s : State) : Host.Outcome State Fault Refusal :=
  runCmd h 0x46 anyForm s (fun c d =>
    let p := c.part
    let n := c.field 24 4
    d.seqChecked h c 28 ((24, stCount, decide (4096 < n)) :: rsvBytes c [(32, 32)]) (fun slot q d =>
      if n = 0 then d.complete h stOK 0 0
      else if q.state = .parking ∨ q.state = .parked ∨ q.state = .resuming then d.failAt h stBusy 28
      else d.withObject h c (32 * n) data (fun bs d =>
        let recs := recsOf bs n
        match batchFail (d.part p) q recs with
        | some f => d.failObj h f.1 (32 * f.2.1 + f.2.2)
        | none =>
          let r := d.acceptBatch p slot (some h) recs
          if r.1 then r.2.complete h stOK (r.2.part p).tick.index 0 else r.2.running h)))

/-! ## PREFIX_LOOKUP (R228 to R230) -/

/-- The hash of a block: K_p over the hash before it, namespace, geometry and token ids (R228). -/
def blockHash (key : Bytes) (before ns pt planes : Nat) (ids : List Nat) : Nat :=
  leNat (Config.kmac256 key (natLE 8 before ++ natLE 4 ns ++ natLE 2 pt ++ natLE 2 planes ++ ids.flatMap (natLE 4)) 64 7)

/-- The token ids of an object. -/
def idsOf (bs : Bytes) (n : Nat) : List Nat := (List.range n).map (fun i => fieldOf bs (4 * i) 4)

/-- The node for a block under a parent, among those a test allows. -/
def Part.nodeFor (x : Part) (may : Node → Bool) (hash : Nat) (parent : Option Nat) (ns pt planes : Nat)
    (ids : List Nat) : Option (Nat × Node) :=
  x.nodes.find? (fun e => may e.2 && e.2.hash == hash && e.2.parent == parent && e.2.ns == ns &&
    e.2.pageTokens == pt && e.2.planes == planes && e.2.ids == ids)

/-- The full blocks of a list of token ids. -/
def blocksOf (ids : List Nat) (pt : Nat) : List (List Nat) :=
  (List.range (ids.length / pt)).map (fun j => (ids.drop (j * pt)).take pt)

/-- The nodes that a lookup finds, block by block, stopping at the first it cannot find. -/
def Part.lookup (x : Part) (ns pt planes : Nat) : List (List Nat) → Nat → Option Nat → List Nat
  | [], _, _ => []
  | b :: bs, before, parent =>
    let hash := blockHash x.pfxKey before ns pt planes b
    match x.nodeFor (fun n => n.visible) hash parent ns pt planes b with
    | none => []
    | some (i, _) => i :: x.lookup ns pt planes bs hash (some i)

/-- Marks nodes as matched now. -/
def Part.matchedNow (x : Part) (t : Nat) (nodes : List Nat) (pin : Nat) : Part :=
  nodes.foldl (fun x i => match Tab.find x.nodes i with
    | some n => { x with nodes := Tab.put x.nodes i { n with matched := t, pins := n.pins + pin } }
    | none => x) x

/-- Nodes of a partition at most (R230). -/
def maxNodes : Nat := 1048576

/-- The frames of a block in every plane, when every page is valid and in a frame (R230). -/
def Seq.blockFrames (q : Seq) (j : Nat) : Option (List (Nat × Nat)) :=
  (List.range q.planes).foldr (fun p acc =>
    match acc, Tab.find q.entries (p * q.perPlane + j) with
    | some l, some e => if e.tier = 0 then some ((e.die, e.frame) :: l) else none
    | _, _ => none) (some [])

/-- Adds a node for a block: its pages gain a reference, and the entries of the sequence name it. -/
def Part.addNode (x : Part) (slot j : Nat) (q : Seq) (hash : Nat) (parent : Option Nat) (ids : List Nat)
    (pages : List (Nat × Nat)) (block t : Nat) : Part :=
  let i := x.nextNode
  let n : Node := ⟨hash, parent, q.ns, q.pageTokens, q.planes, ids, pages, false, 0, t, block⟩
  let x := pages.foldl (fun x f => (x.refFrame f.1 f.2).markShared f.1 f.2)
    { x.takeBlock block with nodes := Tab.put x.nodes i n, nextNode := i + 1 }
  (List.range q.planes).foldl (fun x p => x.modSeq slot (fun q => { q with entries := q.entries.map (fun e =>
    if e.1 = p * q.perPlane + j then (e.1, { e.2 with shared := true, node := some i }) else e) })) x

/-- Inserts nodes for the blocks of a sequence, from block `j`: those inserted, and whether it ran out of space. -/
def Part.insertFrom (x : Part) (slot t : Nat) : List (List Nat) → Nat → Nat → Option Nat → Nat → Nat × Bool × Part
  | [], _, _, _, done => (done, false, x)
  | b :: bs, j, before, parent, done =>
    match x.seq slot with
    | none => (done, false, x)
    | some q => match q.blockFrames j with
      | none => (done, false, x)
      | some pages =>
        let hash := blockHash x.pfxKey before q.ns q.pageTokens q.planes b
        match x.nodeFor (fun _ => true) hash parent q.ns q.pageTokens q.planes b with
        | some (i, _) => x.insertFrom slot t bs (j + 1) hash (some i) done
        | none =>
          match x.pickBlock q.homeDie with
          | none => (done, true, x)
          | some block =>
            if maxNodes ≤ x.nodes.length then (done, true, x)
            else (x.addNode slot j q hash parent b pages block t).insertFrom slot t bs (j + 1) hash (some x.nextNode) (done + 1)

/-- The field checks that every PREFIX_LOOKUP shares. -/
def prefixChecks (c : Cmd) : List (Nat × Nat × Bool) :=
  pageTokensFail 36 (c.field 36 2) ++
  [(24, stCount, decide (2 ^ 24 < c.field 24 4)), (28, stInvalid, decide (3 < c.field 28 1)),
   (38, stCount, c.field 38 2 == 0 || decide (4096 < c.field 38 2))] ++ rsvBytes c [(29, 3), (44, 20)]

/-- The token ids of a PREFIX_LOOKUP by blocks. -/
def prefixBlocks (c : Cmd) (bs : Bytes) : List (List Nat) := blocksOf (idsOf bs (c.field 24 4)) (c.field 36 2)

/-- PREFIX_LOOKUP mode 0: the matched count. A mode above 3 is reported here. -/
def execPrefixLookupLookup (h : Nat) (data : Bytes) (s : State) : Host.Outcome State Fault Refusal :=
  runCmd h 0x45 (fun c => c.field 28 1 == 0 || decide (3 < c.field 28 1)) s (fun c d =>
    d.checked h (prefixChecks c) (fun d =>
      if c.field 24 4 = 0 then d.complete h stOK 0 0
      else d.withObject h c (4 * c.field 24 4) data (fun bs d =>
        let x := d.part c.part
        let found := x.lookup (c.field 32 4) (c.field 36 2) (c.field 38 2) (prefixBlocks c bs) 0 none
        (d.setPart c.part (x.matchedNow d.now found 0)).complete h stOK (found.length * c.field 36 2) 0)))

/-- PREFIX_LOOKUP mode 1: the found nodes are pinned until the commit that maps them. -/
def execPrefixLookupMap (h : Nat) (data : Bytes) (s : State) : Host.Outcome State Fault Refusal :=
  runCmd h 0x45 (fun c => c.field 28 1 == 1) s (fun c d =>
    d.seqChecked h c 40 (prefixChecks c) (fun _ q d =>
      if !q.fitFor (c.field 32 4) (c.field 36 2) (c.field 38 2) then d.failAt h stInvalid 40
      else if c.field 24 4 = 0 then d.complete h stOK 0 0
      else d.withObject h c (4 * c.field 24 4) data (fun bs d =>
        let x := d.part c.part
        let blocks := (prefixBlocks c bs).take (q.maxTokens / q.pageTokens)
        let found := x.lookup (c.field 32 4) (c.field 36 2) (c.field 38 2) blocks 0 none
        (d.setPart c.part (x.matchedNow d.now found 1)).stage c.part h (fun w => .mapPages h (c.field 40 4) found w))))

/-- PREFIX_LOOKUP mode 2. -/
def execPrefixLookupInsert (h : Nat) (data : Bytes) (s : State) : Host.Outcome State Fault Refusal :=
  runCmd h 0x45 (fun c => c.field 28 1 == 2) s (fun c d =>
    d.seqChecked h c 40 (prefixChecks c) (fun slot q d =>
      if q.tokens < c.field 24 4 then d.failAt h stInvalid 24
      else if q.ns ≠ c.field 32 4 ∨ q.pageTokens ≠ c.field 36 2 ∨ q.planes ≠ c.field 38 2 then d.failAt h stInvalid 40
      else if c.field 24 4 = 0 then d.complete h stOK 0 0
      else d.withObject h c (4 * c.field 24 4) data (fun bs d =>
        let r := (d.part c.part).insertFrom slot d.now (prefixBlocks c bs) 0 0 none 0
        (d.setPart c.part r.2.2).complete h (if r.2.1 then stNoSpace else stOK) r.1 0)))

/-- PREFIX_LOOKUP mode 3: only mode and namespace count. -/
def execPrefixLookupDrop (h : Nat) (s : State) : Host.Outcome State Fault Refusal :=
  runCmd h 0x45 (fun c => c.field 28 1 == 3) s (fun c d =>
    d.checked h (rsvBytes c [(29, 3), (44, 20)]) (fun d =>
      (d.modPart c.part (fun x =>
        ((x.nodes.filter (fun e => e.2.ns == c.field 32 4)).map (·.1)).foldl (fun x i => x.removeNode i x.tick.index) x)).complete
          h stOK 0 0))

/-- Makes newly inserted nodes visible (R221 step 6). -/
def Part.showNodes (x : Part) : Part := { x with nodes := x.nodes.map (fun e => (e.1, { e.2 with visible := true })) }

end Sys2Proof.Machine
end

