-- ==== Sys2Proof/Machine/Bar2.lean ====
section
/-!
DEFINITION. Host requests through BAR2 once they are accepted, and those that wait: for pages, links, base dies
(R245, R254, R258, R267, R283, R284, R337).
-/

namespace Sys2Proof.Machine

/-- Who asks for the pages of a function's BAR2 requests. -/
def bar2Asker (f : Nat) : Nat := 2 ^ 32 + f

/-- Ends a request over a link that is down: a read returns data marked with EP, a write is discarded (R284). -/
def Dev.bar2Down (d : Dev) (f p : Nat) (req : Bar2Req) : Dev :=
  let d := d.modPart p (fun x => x.unask (bar2Asker f))
  if req.write.isNone then d.modFn f (fun x => { x with reply := some (.data (List.replicate req.len 0) true) }) else d

/-- Tries to serve an accepted request; false while it has to wait. A poisoned atom sets EP. -/
def Dev.bar2Try (d : Dev) (f p a : Nat) (req : Bar2Req) : Bool × Dev :=
  let lack := (d.part p).lacking (bar2Asker f) a req.len
  let way := d.ioWay p a req.len
  if !lack.isEmpty then (false, d.ask p (bar2Asker f) lack ((d.part p).dieList.headD 0))
  else if way = 2 then (true, d.bar2Down f p req)
  else if way = 1 || d.extentHeld p a req.len || (req.write.isSome && d.staleExtent p a req.len) then (false, d)
  else
    let free := fun (d : Dev) => d.modPart p (fun x => x.unask (bar2Asker f))
    let e := match req.write with
      | none =>
        let r := d.devRead p a req.len 0
        (free (r.2.ioCarried p a req.len true)).modFn f (fun x => { x with reply := some (.data (plain r.1) (poisoned r.1)) })
      | some bs => free ((d.devWrite p a (good ((bs ++ List.replicate req.len 0).take req.len)) 0).ioCarried p a req.len false)
    if d.affords e then (true, e) else (false, d)

/-- The requests of a function that wait, in order, as far as they can be served. -/
def Dev.bar2Go (d : Dev) (f p : Nat) : List (Nat × Bar2Req) → Dev
  | [] => d
  | q :: qs =>
    let r := d.bar2Try f p q.1 q.2
    if r.1 then (r.2.modFn f (fun x => { x with bar2Wait := qs })).bar2Go f p qs else r.2

/-- Serves an accepted request behind those of its function that wait (R267). -/
def Dev.bar2Serve (d : Dev) (f p a : Nat) (req : Bar2Req) : Dev :=
  let d := d.modFn f (fun x => { x with bar2Wait := x.bar2Wait ++ [(a, req)] })
  if (d.fn f).bar2Wait.length = 1 then d.bar2Go f p (d.fn f).bar2Wait else d

/-- Tries again what waits on every function. -/
def Dev.bar2Retry (d : Dev) : Dev :=
  (d.host.fns.filter (fun e => !e.2.bar2Wait.isEmpty)).foldl (fun (d : Dev) e =>
    match d.ownerOfFn e.1 with
    | some p => d.bar2Go e.1 p (d.fn e.1).bar2Wait
    | none => d) d

/-- Ends the oldest waiting request of a function: its page cannot be migrated (R284). -/
def Dev.bar2Fail (d : Dev) (f : Nat) : Dev :=
  match (d.fn f).bar2Wait, d.ownerOfFn f with
  | q :: qs, some p => (d.bar2Down f p q.2).modFn f (fun x => { x with bar2Wait := qs })
  | _, _ => d

end Sys2Proof.Machine
end

