-- ==== Sys2Proof/Machine/Tier.lean ====
section
/-!
DEFINITION. The rows of the Folnas tier: TIER_PREFETCH, TIER_FLUSH, landings, write-back and the work of the
translation layer (R264 to R280).
-/

namespace Sys2Proof.Machine

/-! ## What a landing releases -/

/-- A command that waits for unified pages: pages that are there leave its list; of a TIER_PREFETCH those that
found no frame are counted. With none left it completes. -/
def Dev.cmdLanded (d : Dev) (h : Nat) (c : Cmd) : Dev :=
  let x := d.part c.part
  let runs := c.work.filter (fun g => Tab.has x.migr g)
  let lost := (c.work.filter (fun g => !Tab.has x.migr g && !Tab.has x.resident g)).length
  let n := if c.op = 0x50 then c.count + lost else 0
  if runs.isEmpty then d.complete h (if n = 0 then stOK else stNoSpace) n 0
  else d.setCmd h { c with work := runs, count := n }

/-- TIER_PREFETCH and MEM_FREE commands that wait for landings. -/
def Dev.cmdsLanded (d : Dev) (p : Nat) : Dev :=
  (d.host.live.filter (fun e => e.2.part == p && e.2.phase == .running && (e.2.op == 0x50 || e.2.op == 0x12))).foldl
    (fun d e => d.cmdLanded e.1 e.2) d

/-- After a landing everything that waited for it goes on (R267). -/
def Dev.released (d : Dev) (p : Nat) : Dev :=
  let d := (d.part p).coreList.foldl (fun d c =>
    if (d.core c).descrs.isEmpty || d.corePart c != p then d else d.pump c) d
  (((d.servePg p).retryAppends p).cmdsLanded p).bar2Retry

/-- The descriptors of a core that wait for a unified page are served by its reserve frame, a residual fetch with
them (R267): how many, and the core. -/
def Core.lentPage (k : Core) (x : Part) (g : Nat) : Nat × Core :=
  let asks := fun (y : Descr) => y.cold && !y.started && (x.descrLacks y).contains g
  let resid := k.window.any (fun e => e.wait == .residual && (x.coldPages (fieldOf e.bytes 32 8) (residBytes (fieldOf e.bytes 40 2))).contains g)
  ((k.descrs.filter asks).length + b2n (resid && k.climb.isSome),
   { k with
     descrs := k.descrs.map (fun y => if asks y then { y with lent := y.lent ++ [g] } else y)
     climb := k.climb.map (fun c => if resid then { c with lent := c.lent ++ [g] } else c) })

/-- The core requests that waited for a page when it landed in a reserve frame are served by it. -/
def Dev.lendCores (d : Dev) (p g : Nat) : Dev :=
  if !Tab.has (d.part p).reserve g then d
  else
    let x := d.part p
    x.coreList.foldl (fun (d : Dev) c =>
      if d.corePart c = p ∧ !((d.core c).descrs.isEmpty && (d.core c).climb.isNone) then
        let r := (d.core c).lentPage x g
        (d.setCore c r.2).modPart p (fun y => match Tab.find y.reserve g with
          | some e => { y with reserve := Tab.put y.reserve g { e with waiters := e.waiters + r.1 } }
          | none => y)
      else d) d

/-- Every request that waits for a unified page ends with DEVICE_FAULT: its migration needs a link that is down (R284). -/
def Dev.failMigr (d : Dev) (p g : Nat) : Dev :=
  let x := d.part p
  let mine := x.askers.filter (fun k => k.page == g && !k.lent)
  let d := d.setPart p (match (Tab.find x.migr g).bind (·.frame) with
    | some f => { x with migr := Tab.del x.migr g }.dropFrame f.1 f.2 x.tick.index
    | none => { x with migr := Tab.del x.migr g })
  let d := x.coreList.foldl (fun (d : Dev) c =>
    if d.corePart c = p then
      (d.core c).descrs.zipIdx.foldl (fun (d : Dev) e =>
        if e.1.cold && !e.1.started && ((d.part p).descrLacks e.1).contains g then d.failDescr c e.2 e.1 stDeviceFault else d) d
    else d) d
  mine.foldl (fun (d : Dev) k =>
    if k.who < 2 ^ 32 then (d.modPart p (fun x => x.unask k.who)).complete k.who stDeviceFault 0 0
    else if k.who < 2 ^ 33 then d.bar2Fail (k.who - 2 ^ 32)
    else d.modPart p (fun x => { x.unask k.who with denied := x.denied ++ [k.who] })) d

/-- The die over whose I/O-die link a landing comes, if it comes from flash (R13). -/
def Dev.landDie (d : Dev) (p page : Nat) : Option Nat :=
  let x := d.part p
  if storePageBase ≤ page then
    (Tab.find x.storeMigr (page - storePageBase)).map (fun m =>
      (match m.frame with
        | some f => some f
        | none => x.pickFrame m.die).elim m.die (·.1))
  else (Tab.find x.migr page).bind (fun m => (x.landing page m).die m)

/-- Ends every request that waits for the page that an operand names. -/
def Dev.failLand (d : Dev) (p page : Nat) : Dev :=
  if storePageBase ≤ page then
    let key := page - storePageBase
    let d := d.modPart p (fun x => match (Tab.find x.storeMigr key).bind (·.frame) with
      | some f => { x with storeMigr := Tab.del x.storeMigr key }.dropFrame f.1 f.2 x.tick.index
      | none => { x with storeMigr := Tab.del x.storeMigr key })
    d.failAwaiting p (key / 2 ^ 24) (key % 2 ^ 24) stDeviceFault
  else d.failMigr p page

/-- Lands the page that an operand names: a unified page, or from 2^40 on a page of a sequence. A link that retrains holds
the landing, one that is down ends what waits for it (R13, R283, R284). -/
def Dev.land (d : Dev) (p page bad : Nat) : Dev :=
  match (d.landDie p page).elim 0 d.ioState with
  | 0 =>
    if storePageBase ≤ page then d.ifAffords (d.landStore p (page - storePageBase) bad)
    else
      let fresh := !Tab.has (d.part p).reserve page
      let e := d.landPage p page bad
      d.ifAffords (if fresh then e.lendCores p page else e)
  | 1 => d
  | _ => d.failLand p page

/-- MIGRATION_LANDED. -/
def execMigrationLanded (p page bad : Nat) (s : State) : Host.Outcome State Fault Refusal :=
  onUnit (decide (p < 4)) (whenUp s (fun d => (d.land p page bad).released p))

/-- The migration that an operand names. -/
def Part.migrOf (x : Part) (page : Nat) : Option Migr :=
  if storePageBase ≤ page then Tab.find x.storeMigr (page - storePageBase) else Tab.find x.migr page

/-- The bound of a page read from its miss stamp (R276). -/
def retryBound : Nat := 400000

/-- FOLNAS_RETRY_BOUND: at the bound the sectors that have not decoded are delivered poisoned. -/
def execFolnasRetryBound (p page undecoded : Nat) (s : State) : Host.Outcome State Fault Refusal :=
  onUnit (decide (p < 4)) (whenUp s (fun d =>
    match (d.part p).migrOf page with
    | none => d
    | some m =>
      let d := d.reach ((d.part p).tick.origin + m.stamp + retryBound)
      (d.land p page undecoded).released p))

/-! ## TIER_PREFETCH (R269) -/

/-- Accepts the cold pages of an extent: each with a frame migrates; the pages that found none are counted. -/
def Dev.prefetchPages (d : Dev) (p die : Nat) (pick : Part → Option (Nat × Nat)) (pages : List Nat) : Nat × Dev :=
  pages.foldl (fun (acc : Nat × Dev) g =>
    let x := acc.2.part p
    if Tab.has x.migr g then acc
    else if (pick x).isSome || Tab.has x.evict g then (acc.1, acc.2.startMigrOn p g die true false pick)
    else (acc.1 + 1, acc.2.evictOne p)) (0, d)

/-- The die of a partition from which a requester without a die of its own takes frames: its lowest. -/
def Part.firstDie (x : Part) : Nat := x.dieList.headD 0

/-- TIER_PREFETCH. -/
def execTierPrefetch (h : Nat) (s : State) : Host.Outcome State Fault Refusal :=
  runCmd h 0x50 anyForm s (fun c d =>
    let p := c.part
    let x := d.part p
    let a := c.field 16 8
    let n := c.field 24 8
    let die := c.field 32 1
    d.checked h ([(16, stInvalid, n != 0 && wideAddr a), (16, stPartition, n != 0 && x.extent a n == .outside),
        (32, stPartition, die != 0xFF && !x.hasDie die), (33, stInvalid, decide (1 < c.field 33 1))] ++ rsvBytes c [(34, 30)])
      (fun d =>
        if n = 0 then d.complete h stOK 0 0
        else
          let cold := x.coldPages a n
          let r := if die = 0xFF then d.prefetchPages p x.firstDie (fun x => x.pickFrame x.firstDie) cold
            else d.prefetchPages p die (fun x => x.freeOn die) cold
          let runs := cold.filter (fun g => Tab.has (r.2.part p).migr g)
          if bitOf (c.field 33 1) 0 && !runs.isEmpty then
            r.2.modCmd h (fun c => { c with phase := .running, work := runs, count := r.1 })
          else r.2.complete h (if r.1 = 0 then stOK else stNoSpace) r.1 0))

/-! ## Write-back (R270 to R272) -/

/-- A sector of a reserve frame goes to flash. -/
def Dev.backReserve (d : Dev) (p g : Nat) (r : Reserve) (v i : Nat) : Dev :=
  let key := g * 16 + i
  let block := d.tier.place v i
  (((d.program 1).carriedIo r.die true 4096).modPart p (fun x =>
    let c : Content := ⟨Mem.cells 0 (Mem.read r.data (i * 4096) 4096), r.bad.contains i⟩
    { x with sectors := Tab.put x.sectors key ((Tab.getD x.sectors key Sector.blank).wrote c x.gen block) })).count p 6 4096

/-- Writes back the dirty sectors of a page's reserve frame that a test names. -/
def Dev.backLent (d : Dev) (p g : Nat) (which : Nat → Bool) : Dev :=
  match Tab.find (d.part p).reserve g with
  | none => d
  | some r =>
    let go := (r.dirty.map (·.1)).filter which
    let q := d.draw
    let d := if go.isEmpty then d else go.foldl (fun d i => d.backReserve p g r q.1 i) q.2
    let left := { r with dirty := r.dirty.filter (fun e => !which e.1) }
    d.modPart p (fun x => { x with reserve := Tab.put x.reserve g left })

/-- Writes back the dirty sectors of a page that is being evicted. -/
def Dev.backEvict (d : Dev) (p g : Nat) (which : Nat → Bool) : Dev :=
  match Tab.find (d.part p).evict g with
  | none => d
  | some e =>
    let d := d.backSectors p g e.die e.frame ((e.order.map (·.1)).filter which)
    let left := { e with order := e.order.filter (fun y => !which y.1) }
    d.modPart p (fun x => { x with evict := Tab.put x.evict g left })

/-- An evicted page whose sectors are all in flash releases its frame (R270 step 3). -/
def Dev.evictDone (d : Dev) (p g : Nat) : Dev :=
  match Tab.find (d.part p).evict g with
  | none => d
  | some e =>
    if e.order.isEmpty && (d.part p).frameRefs e.die e.frame != 0 then
      d.modPart p (fun x => x.dropFrame e.die e.frame x.tick.index)
    else d

/-- EVICTION_WRITE_BACK_DONE. In read-only mode write-back has stopped (R280); over a link that is not up nothing moves. -/
def execEvictionWriteBackDone (p page : Nat) (s : State) : Host.Outcome State Fault Refusal :=
  onUnit (decide (p < 4)) (whenUp s (fun d =>
    if d.tier.readOnly || (Tab.find (d.part p).evict page).elim false (fun e => d.ioState e.die != 0) then d
    else d.ifAffords ((d.backEvict p page (fun _ => true)).evictDone p page)))

/-- RESERVE_FRAME_RETURN: once no request uses it, its dirty sectors go to flash and the frame goes back; in read-only
mode a dirty one stays (R280). -/
def execReserveFrameReturn (p page : Nat) (s : State) : Host.Outcome State Fault Refusal :=
  onUnit (decide (p < 4)) (whenUp s (fun d =>
    match Tab.find (d.part p).reserve page with
    | none => d
    | some r =>
      if r.waiters ≠ 0 ∨ (!r.dirty.isEmpty && (d.tier.readOnly || d.ioState r.die != 0)) then d
      else (d.backLent p page (fun _ => true)).modPart p (fun x => { x with
        reserve := Tab.del x.reserve page
        reserveUsed := Tab.put x.reserveUsed r.die (Tab.getD x.reserveUsed r.die 0 - 1) })))

/-- The dirty sectors of a partition's resident pages, oldest first. -/
def Part.dirtySectors (x : Part) : List (Nat × Nat × Nat) :=
  (x.resident.flatMap (fun e => e.2.order.map (fun y => (y.2, e.1, y.1)))).mergeSort (fun a b => decide (a.1 ≤ b.1))

/-- How many dirty sectors exceed tier_dirty_pct of the resident sectors (R271). -/
def Part.dirtyExcess (x : Part) : Nat :=
  x.dirtySectors.length - ((x.layout.map (·.dirtyPct)).getD 25) * (16 * x.resident.length) / 100

/-- BACKGROUND_WRITE_BACK: oldest first, down to the share. -/
def execBackgroundWriteBack (p : Nat) (s : State) : Host.Outcome State Fault Refusal :=
  onUnit (decide (p < 4)) (whenUp s (fun d =>
    if s.plat.lowPower then d else
    if d.tier.readOnly then d
    else ((d.part p).dirtySectors.take (d.part p).dirtyExcess).foldl (fun (d : Dev) e =>
      if (Tab.find (d.part p).resident e.2.1).elim false (fun r => d.ioState r.die == 0) then
        d.backResident p e.2.1 (fun i => i == e.2.2) else d) d))

/-- The pages that TIER_FLUSH names. -/
def flushCovers (c : Cmd) (page : Nat) : Bool :=
  bitOf (c.field 32 1) 0 ||
    (decide (page * 65536 < c.field 16 8 + c.field 24 8) && decide (c.field 16 8 < (page + 1) * 65536))

/-- The sectors of a page that TIER_FLUSH names. -/
def flushSector (c : Cmd) (sector : Nat) : Bool :=
  bitOf (c.field 32 1) 0 ||
    (decide (sector * 4096 < c.field 16 8 + c.field 24 8) && decide (c.field 16 8 < (sector + 1) * 4096))

/-- TIER_FLUSH: its checks; then it runs until its sectors are durable. -/
def execTierFlush (h : Nat) (s : State) : Host.Outcome State Fault Refusal :=
  runCmd h 0x51 anyForm s (fun c d =>
    let x := d.part c.part
    let whole := bitOf (c.field 32 1) 0
    let n := c.field 24 8
    d.checked h ([(16, stInvalid, !whole && n != 0 && wideAddr (c.field 16 8)),
        (16, stPartition, !whole && n != 0 && x.extent (c.field 16 8) n != .unified),
        (32, stInvalid, decide (1 < c.field 32 1))] ++ rsvBytes c [(33, 31)]) (fun d =>
      if !whole && n = 0 then d.complete h stOK 0 0
      else if d.tier.readOnly then d.complete h stNoSpace 0 0
      else d.running h))

/-- The pages that a flush writes back, wherever they are held, with the dies of their frames. -/
def Part.flushPages (x : Part) (c : Cmd) : List (Nat × Nat) :=
  (x.resident.map (fun e => (e.1, e.2.die)) ++ x.reserve.map (fun e => (e.1, e.2.die)) ++ x.evict.map (fun e => (e.1, e.2.die))).filter
    (fun e => flushCovers c e.1)

/-- Writes back every dirty sector that a flush names, wherever its page is held, and makes the extent durable. -/
def Dev.flushExtent (d : Dev) (p : Nat) (c : Cmd) : Dev :=
  let in_ := fun g i => flushSector c (g * 16 + i)
  let d := ((d.part p).flushPages c).foldl (fun d e =>
    ((d.backResident p e.1 (in_ e.1)).backLent p e.1 (in_ e.1)).backEvict p e.1 (in_ e.1)) d
  d.settleSectors p (flushSector c)

/-- TIER_FLUSH_DURABLE: with `ok` false the flash failed the write, and the sectors stay dirty. Read-only mode that began
meanwhile ends the flush with NO_SPACE (R280); a link on its way that is down with DEVICE_FAULT (R284), one that retrains
holds it. -/
def execTierFlushDurable (h : Nat) (ok : Bool) (s : State) : Host.Outcome State Fault Refusal :=
  .next (whenUp s (fun d =>
    match d.cmd h with
    | none => d
    | some c =>
      let way := (((d.part c.part).flushPages c).map (fun e => d.ioState e.2)).foldl max 0
      if c.op ≠ 0x51 ∨ c.phase ≠ .running then d
      else if d.tier.readOnly then d.complete h stNoSpace 0 0
      else if !ok || way == 2 then d.complete h stDeviceFault 0 0
      else if way = 1 then d
      else (d.flushExtent c.part c).complete h stOK 0 0))

/-! ## The translation layer (R275, R280) -/

/-- A table of sectors after those of a block have moved to where `dest` says. -/
def movedSectors (t : Tab Sector) (b : Nat) (dest : Nat → Nat) : Tab Sector :=
  t.map (fun e => if e.2.block = b then (e.1, { e.2 with block := dest e.1 }) else e)

/-- A block's live sectors move and it is erased: one program-erase cycle more, and no read since. A retired block has
nothing more to move. -/
def Dev.relocate (d : Dev) (b : Nat) (dest : Nat → Nat) : Dev :=
  if (d.tier.block b).retired then d
  else
    { d with
      parts := d.parts.map (fun e => (e.1, { e.2 with
        sectors := movedSectors e.2.sectors b dest, storeSectors := movedSectors e.2.storeSectors b dest }))
      tier := { d.tier.modBlock b (fun x => { x with erases := x.erases + 1, reads := 0 }) with cycles := d.tier.cycles + 1 } }

/-- Relocates a block into open ones, which firmware chooses: a free value. The sectors of a page go together, a quarter
to a channel (R275). -/
def Dev.relocateOpen (d : Dev) (b : Nat) : Dev :=
  let q := d.draw
  q.2.relocate b (fun i => q.2.tier.place q.1 i)

/-- A row of the translation layer on a block that exists. -/
def onBlock (block : Nat) (s : State) (f : Dev → Dev) : Host.Outcome State Fault Refusal :=
  onUnit (decide (block < rawBlocks)) (whenUp s f)

/-- GARBAGE_COLLECTION: below 2 % of free blocks a block's live sectors move and it is free again. -/
def execGarbageCollection (block : Nat) (s : State) : Host.Outcome State Fault Refusal :=
  onBlock block s (fun d =>
    if d.tier.freeBlocks * 100 < 2 * rawBlocks ∧ !(d.tier.block block).retired then
      let d := d.relocateOpen block
      { d with tier := { d.tier with freeBlocks := d.tier.freeBlocks + 1 } }
    else d)

/-- WEAR_LEVELLING: a block erased more than 200 times fewer gives its cold data to the worn one. -/
def execWearLevelling (cold worn : Nat) (s : State) : Host.Outcome State Fault Refusal :=
  if worn < rawBlocks then
    onBlock cold s (fun d => if (d.tier.block cold).erases + 200 < (d.tier.block worn).erases then d.relocate cold (fun _ => worn) else d)
  else .fault .noSuchUnit

/-- Reads of a block since its last erase at which it is relocated (R275). -/
def readLimit : Nat := 50000

/-- READ_DISTURB_REFRESH: a block that has reached 50,000 reads. -/
def execReadDisturbRefresh (block : Nat) (s : State) : Host.Outcome State Fault Refusal :=
  onBlock block s (fun d => if readLimit ≤ (d.tier.block block).reads then d.relocateOpen block else d)

/-- FOLNAS_PATROL: once in each 7 days; `corrected` is in percent of hard-decision capacity. -/
def execFolnasPatrol (block corrected : Nat) (s : State) : Host.Outcome State Fault Refusal :=
  onBlock block s (fun d =>
    let period := d.now / (7 * 86400 * 10 ^ 9) + 1
    if (d.tier.block block).checked = period then d
    else
      let d := { d with tier := d.tier.modBlock block (fun x => { x with checked := period, reads := x.reads + 1 }) }
      if 60 < corrected then d.relocateOpen block else d)

/-- BAD_BLOCK_RETIRE: a spare replaces the block, and what it held moves. -/
def execBadBlockRetire (block : Nat) (s : State) : Host.Outcome State Fault Refusal :=
  onBlock block s (fun d =>
    if (d.tier.block block).retired then d
    else
      let q := d.draw
      let t := q.2.tier.retire block
      { q.2 with
        tier := t
        parts := q.2.parts.map (fun e => (e.1, { e.2 with
          sectors := movedSectors e.2.sectors block (t.place q.1), storeSectors := movedSectors e.2.storeSectors block (t.place q.1) })) })

/-- Rated program-erase cycles of a block (R280). -/
def ratedCycles : Nat := 3500

/-- Whether the tier must be read-only: spares at 1 % of raw, or the rated cycles used up. -/
def Tier.exhausted (t : Tier) : Bool :=
  decide (t.spares * 100 ≤ rawBlocks) || decide (ratedCycles * rawBlocks ≤ t.cycles)

/-- READ_ONLY_MODE_ENTRY: reported to the management controller as kind 2, and to every partition. -/
def execReadOnlyModeEntry (s : State) : Host.Outcome State Fault Refusal :=
  .next (if s.plat.up && s.dev.tier.exhausted && !s.dev.tier.readOnly then
    let d := { s.dev with tier := { s.dev.tier with readOnly := true } }
    let d := d.modEvent (EventRec.blank 0x0008 3 5)
    { s with
      dev := (List.range 4).foldl (fun d p => d.queueEvents p 0x0008 0 0) d
      plat := { s.plat with mgmt := s.plat.mgmt ++ [⟨2, 0⟩] } }
  else s)

end Sys2Proof.Machine
end

