-- ==== Sys2Proof/Machine/Regions.lean ====
section
/-!
DEFINITION. MEM_ALLOC and MEM_FREE (R433, R265, R249, R386), and the zeroing of an extent.
-/

namespace Sys2Proof.Machine

/-! ## Extents -/

/-- Clears the keep bits of the lines of a span, placed line by line (R249). -/
def Dev.unkeepSpan (d : Dev) (loc : Nat → Nat × Nat) (a n : Nat) : Dev :=
  (linesOf a n).foldl (fun (d : Dev) l =>
    let q := loc (l * 128)
    d.modStack q.1 (fun st => match Tab.find st.lines (q.2 / 128) with
      | some x => { st with lines := Tab.put st.lines (q.2 / 128) { x with keep := false } }
      | none => st)) d

/-- Clears the keep bits of a frame's lines. -/
def Dev.unkeepFrame (d : Dev) (p die f : Nat) : Dev :=
  match (d.part p).layout with
  | some y => d.unkeepSpan (fun j => y.framePlace die f j) 0 65536
  | none => d

/-- Clears the keep bits of a device extent: in the unified range those of its resident pages. -/
def Dev.unkeepExtent (d : Dev) (p a n : Nat) : Dev :=
  match (d.part p).layout with
  | none => d
  | some y => match y.extent a n with
    | .outside => d
    | .volatile => d.unkeepSpan (fun q => y.volPlace (q - volBase)) a n
    | .unified => (pagesOf a n).foldl (fun (d : Dev) g => match Tab.find (d.part p).resident g with
        | some r => d.unkeepFrame p r.die r.frame
        | none => d) d

/-- Discards unified pages without write-back (R265): resident copies, evicting and lent ones, the sectors in
flash; a running migration is discarded when it lands. -/
def Part.discard (x : Part) (a n : Nat) : Part :=
  let pages := pagesOf a n
  let gone := fun (g : Nat) => pages.contains g
  let w := x.tick.index
  let x := pages.foldl (fun (x : Part) g =>
    match Tab.find x.resident g with
    | some r => { x with resident := Tab.del x.resident g }.dropFrame r.die r.frame w
    | none => match Tab.find x.evict g with
      | some e => { x with evict := Tab.del x.evict g }.dropFrame e.die e.frame w
      | none => x) x
  { x with
    sectors := x.sectors.filter (fun e => !gone (e.1 / 16))
    migr := x.migr.map (fun e => (e.1, if gone e.1 then { e.2 with discard := true } else e.2))
    reserve := x.reserve.map (fun e => (e.1, if gone e.1 then { e.2 with data := [], bad := [], dirty := [] } else e.2)) }

/-- Zeroes a device extent. -/
def Dev.zeroExtent (d : Dev) (p a n : Nat) : Dev :=
  match (d.part p).extent a n with
  | .unified => d.modPart p (fun x => x.discard a n)
  | .volatile => d.devWrite p a (List.replicate n (some 0)) 1
  | .outside => d

/-! ## Rows -/

/-- Whether a region overlaps an extent. -/
def MemRegion.meets (r : MemRegion) (a n : Nat) : Bool := decide (r.addr < a + n) && decide (a < r.addr + r.bytes)

/-- MEM_ALLOC (R433): checks that compute no extent come first, as R83 has it for words (DEDUCED). -/
def execMemAlloc (h : Nat) (s : State) : Host.Outcome State Fault Refusal :=
  runCmd h 0x11 anyForm s (fun c d =>
    let p := c.part
    let x := d.part p
    let a := c.field 16 8
    let n := c.field 24 8
    if n = 0 then d.checked h (rsvBytes c [(32, 32)]) (fun d => d.complete h stOK 0 0)
    else
      d.checked h ([(16, stInvalid, wideAddr a), (16, stAlign, a % 65536 != 0), (24, stAlign, n % 65536 != 0)] ++ rsvBytes c [(32, 32)]) (fun d =>
        d.checked h [(16, stPartition, x.extent a n == .outside), (16, stBounds, x.regions.any (fun e => e.2.meets a n))]
          (fun d => (d.modPart p (fun x => { x with
            regions := Tab.put x.regions x.nextRegion ⟨a, n, none⟩, nextRegion := x.nextRegion + 1 })).complete
              h stOK x.nextRegion 0)))

/-- Whether a running pipeline names a region (R433). -/
def Part.namesRegion (x : Part) (r : MemRegion) : Bool :=
  x.pipes.any (fun e => e.2.run.isSome &&
    (e.2.addrs.any (fun a => r.meets a 1) || e.2.bufs.any (fun b => b.space == 1 && r.meets b.base (b.depth * (b.slotBytes + 128)))))

/-- MEM_FREE (R433, R249, R265, R386). -/
def execMemFree (h : Nat) (s : State) : Host.Outcome State Fault Refusal :=
  runCmd h 0x12 anyForm s (fun c d =>
    let p := c.part
    let x := d.part p
    let i := c.field 16 4
    d.checked h ([(16, stInvalid, !Tab.has x.regions i),
        (16, stBusy, (Tab.find x.regions i).elim false (fun r => x.namesRegion r))] ++ rsvBytes c [(20, 44)])
      (fun d => match Tab.find x.regions i with
        | none => d
        | some r =>
          let d := d.unkeepExtent p r.addr r.bytes
          let d := d.modPart p (fun x => { x with regions := Tab.del x.regions i })
          let d := if r.key.isSome ∨ x.extent r.addr r.bytes = .unified then d.zeroExtent p r.addr r.bytes else d
          let runs := (pagesOf r.addr r.bytes).filter (fun g => x.extent r.addr r.bytes == .unified && Tab.has x.migr g)
          if runs.isEmpty then d.complete h stOK 0 0
          else d.modCmd h (fun c => { c with phase := .running, work := runs })))

end Sys2Proof.Machine
end

