-- ==== Sys2Proof/Machine/Session.lean ====
section
/-!
DEFINITION. Video sessions (R304 to R315): the session object, its checks, VIDEO_SESSION's OPEN and RECONFIG.
-/

namespace Sys2Proof.Machine

/-! ## The session object (R313 and its byte layout) -/

/-- Encode or decode: bit 1 of byte 0. -/
def voDecode (o : Bytes) : Bool := bitOf (fieldOf o 0 1) 1
/-- HEVC or AV1. -/
def voHevc (o : Bytes) : Bool := bitOf (fieldOf o 0 1) 0
/-- Wavefronts. -/
def voWpp (o : Bytes) : Bool := bitOf (fieldOf o 0 1) 2
/-- Bit depth. -/
def voDepth (o : Bytes) : Nat := bitsOf (fieldOf o 3 1) 4 1
/-- Width. -/
def voW (o : Bytes) : Nat := fieldOf o 4 2
/-- Height. -/
def voH (o : Bytes) : Nat := fieldOf o 6 2
/-- Frame rate: numerator. -/
def voNum (o : Bytes) : Nat := fieldOf o 8 2
/-- Frame rate: denominator. -/
def voDen (o : Bytes) : Nat := fieldOf o 10 2
/-- The mini-GOP of random access; 1 otherwise. -/
def voGop (o : Bytes) : Nat := if fieldOf o 12 1 = 2 then fieldOf o 13 1 else 1
/-- Tile columns. -/
def voCols (o : Bytes) : Nat := 2 ^ bitsOf (fieldOf o 15 1) 3 0
/-- Tile rows. -/
def voRows (o : Bytes) : Nat := 2 ^ bitsOf (fieldOf o 15 1) 7 4
/-- Largest coded frame. -/
def voMax (o : Bytes) : Nat := fieldOf o 60 4
/-- Bytes of a sample (R314). -/
def voSample (o : Bytes) : Nat := if voDepth o = 10 then 2 else 1

/-- The limits of a level: largest picture, width and height, samples per second, tile columns and rows. -/
structure Level where
  area : Nat
  width : Nat
  height : Nat
  rate : Nat
  cols : Nat
  rows : Nat
  deriving DecidableEq, Repr

/-- The levels of HEVC, by general_level_idc. PRESUMED from the HEVC standard, which the spec names and does not quote. -/
def levelsHevc : List (Nat × Level) :=
  [(30, ⟨36864, 543, 543, 552960, 1, 1⟩), (60, ⟨122880, 991, 991, 3686400, 1, 1⟩), (63, ⟨245760, 1402, 1402, 7372800, 1, 1⟩),
   (90, ⟨552960, 2103, 2103, 16588800, 2, 2⟩), (93, ⟨983040, 2804, 2804, 33177600, 3, 3⟩),
   (120, ⟨2228224, 4222, 4222, 66846720, 5, 5⟩), (123, ⟨2228224, 4222, 4222, 133693440, 5, 5⟩),
   (150, ⟨8912896, 8444, 8444, 267386880, 10, 11⟩), (153, ⟨8912896, 8444, 8444, 534773760, 10, 11⟩),
   (156, ⟨8912896, 8444, 8444, 1069547520, 10, 11⟩), (180, ⟨35651584, 16888, 16888, 1069547520, 20, 22⟩),
   (183, ⟨35651584, 16888, 16888, 2139095040, 20, 22⟩), (186, ⟨35651584, 16888, 16888, 4278190080, 20, 22⟩)]
/-- The levels of AV1, by seq_level_idx. PRESUMED from the AV1 standard; the tile limits are R307's own. -/
def levelsAv1 : List (Nat × Level) :=
  [(0, ⟨147456, 2048, 1152, 4423680, 16, 64⟩), (1, ⟨278784, 2816, 1584, 8363520, 16, 64⟩),
   (4, ⟨665856, 4352, 2448, 19975680, 16, 64⟩), (5, ⟨1065024, 5504, 3096, 31950720, 16, 64⟩),
   (8, ⟨2359296, 6144, 3456, 70778880, 16, 64⟩), (9, ⟨2359296, 6144, 3456, 141557760, 16, 64⟩),
   (12, ⟨8912896, 8192, 4352, 267386880, 16, 64⟩), (13, ⟨8912896, 8192, 4352, 534773760, 16, 64⟩),
   (14, ⟨8912896, 8192, 4352, 1069547520, 16, 64⟩), (15, ⟨8912896, 8192, 4352, 1069547520, 16, 64⟩),
   (16, ⟨35651584, 16384, 8704, 1069547520, 16, 64⟩), (17, ⟨35651584, 16384, 8704, 2139095040, 16, 64⟩),
   (18, ⟨35651584, 16384, 8704, 4278190080, 16, 64⟩)]

/-- The limits of the level an object names, in its direction (R305). -/
def voLevel (o : Bytes) : Option Level :=
  let l := fieldOf o 2 1
  let top := if voHevc o then 183 else 17
  if !voDecode o && decide (top < l) then none
  else ((if voHevc o then levelsHevc else levelsAv1).find? (fun e => e.1 == l)).map (·.2)

/-- Whether tier 1 exists at the object's level: from level 4 on. -/
def voTierOk (o : Bytes) : Bool :=
  !bitOf (fieldOf o 3 1) 0 || decide ((if voHevc o then 120 else 8) ≤ fieldOf o 2 1)

/-- Samples per second, exactly num × area ÷ den, compared with a limit. -/
def rateAbove (o : Bytes) (limit : Nat) : Bool := decide (limit * voDen o < voW o * voH o * voNum o)

/-- The encode rate of an engine (R304). -/
def encodeRate : Nat := 1990656000

/-- Sizes of `parts` tiles over `n` 64-sample blocks, in order: HEVC spreads what does not divide, AV1 fills each but the last
(PRESUMED from the two standards). -/
def tileSizes (hevc : Bool) (n parts : Nat) : List Nat :=
  let each := ceilDiv n parts
  ((List.range parts).map (fun i => if hevc then (i + 1) * n / parts - i * n / parts else min each (n - i * each))).filter (0 < ·)
/-- Blocks across the picture. -/
def blocksAcross (o : Bytes) : Nat := ceilDiv (voW o) 64
/-- Blocks down the picture. -/
def blocksDown (o : Bytes) : Nat := ceilDiv (voH o) 64
/-- Widths of the tile columns, in blocks. -/
def tileWidths (o : Bytes) : List Nat := tileSizes (voHevc o) (blocksAcross o) (voCols o)
/-- Heights of the tile rows, in blocks. -/
def tileHeights (o : Bytes) : List Nat := tileSizes (voHevc o) (blocksDown o) (voRows o)

/-- Guard rows of a picture (R321). -/
def guardRows (o : Bytes) : Nat := blocksDown o * (tileWidths o).length
/-- The most 64 × 64 blocks of a guard row. -/
def rowBlocks (o : Bytes) : Nat := (tileWidths o).foldl max 0
/-- The minimal row bound m (R323). -/
def minimalRow (o : Bytes) (intra : Bool) : Nat := (if intra then 48 else 8) * rowBlocks o + 64
/-- The bits that flow in during one frame interval. -/
def inflow (o : Bytes) (rate : Nat) : Nat := if voNum o = 0 then 0 else rate * voDen o / voNum o

/-- Bytes of a slot of the reference pool (R315). -/
def refSlotBytes (o : Bytes) : Nat :=
  let pitch := roundUp (voW o * voSample o) 128
  roundUp (pitch * voH o + pitch * (voH o / 2) + ceilDiv (voW o) 8 * ceilDiv (voH o) 8 * 8) 65536

/-- The fewest reference slots of a session; the most is 17 for HEVC decode. -/
def refSlotsMin (o : Bytes) : Nat :=
  if voDecode o then (if voHevc o then 2 else 9)
  else match fieldOf o 12 1 with
    | 0 => 2
    | 1 => 3
    | _ => 3 + (voGop o).log2

/-- Why an area of a frame or session may not be used (R314): INVALID in the wrong range, PARTITION outside. -/
def videoArea (x : Part) (a n : Nat) (unified : Bool) : Option Nat :=
  if wideAddr a then some stInvalid
  else match x.extent a n with
  | .outside => some stPartition
  | .unified => if unified then none else some stInvalid
  | .volatile => none

/-- A check on an area. -/
def areaCheck (off : Nat) (f : Option Nat) : Nat × Nat × Bool := (off, f.getD stOK, f.isSome)

/-- The quantiser limits of a codec: HEVC QP, AV1 qindex (R313). -/
def qLow (o : Bytes) : Nat := if voHevc o then 0 else 1
/-- The upper limit. -/
def qHigh (o : Bytes) : Nat := if voHevc o then 51 else 255
/-- Whether a quantiser is out of its codec's range; 0 takes the default. -/
def qBad (o : Bytes) (off : Nat) : Bool := fieldOf o off 2 != 0 && (decide (fieldOf o off 2 < qLow o) || decide (qHigh o < fieldOf o off 2))

/-- The checks of the rate-control fields (R313, R324): encode sessions only. -/
def rateChecks (o : Bytes) (header : Nat) : List (Nat × Nat × Bool) :=
  if voDecode o then []
  else
    let first := header + guardRows o * minimalRow o true
    let cbr := fieldOf o 30 1 == 1
    [(30, stInvalid, decide (3 < fieldOf o 30 1)),
     (31, stBounds, decide ((if voHevc o then 12 else 48) < fieldOf o 31 1) ||
       (!voHevc o && fieldOf o 31 1 != 0 && decide (fieldOf o 31 1 < 4))),
     (36, stBounds, decide (fieldOf o 36 4 < fieldOf o 32 4)),
     (44, stBounds, decide (fieldOf o 40 4 < fieldOf o 44 4) || decide (min (fieldOf o 44 4) (8 * voMax o) < first)),
     (48, stBounds, qBad o 48), (50, stBounds, qBad o 50 || (fieldOf o 50 2 != 0 && decide (fieldOf o 50 2 < fieldOf o 48 2))),
     (52, stBounds, qBad o 52),
     (60, stBounds, decide (8 * voMax o < first) || (cbr && decide (voMax o * 8 < inflow o (fieldOf o 32 4))))]

/-- The checks of a session object, by the tables of R305 to R315. -/
def sessionChecks (x : Part) (o : Bytes) (header : Nat) : List (Nat × Nat × Bool) :=
  let dec := voDecode o
  let lv := (voLevel o).getD ⟨0, 0, 0, 0, 0, 0⟩
  let area := voW o * voH o
  let pool := fieldOf o 28 2 * refSlotBytes o
  let prof := fieldOf o 1 1
  [(0, stInvalid, decide (7 < fieldOf o 0 1)), (0, stUnsupported, voWpp o && !voHevc o),
   (1, stUnsupported, if voHevc o then prof != 1 && prof != 2 else prof != 0),
   (2, stUnsupported, (voLevel o).isNone),
   (3, stInvalid, decide (31 < fieldOf o 3 1)),
   (3, stUnsupported, !voTierOk o || (voDepth o != 8 && voDepth o != 10) || (prof == 1 && voDepth o == 10)),
   (4, stBounds, voW o % 8 != 0 || decide (voW o < 128) || decide (8192 < voW o) || decide (35651584 < area)),
   (4, stInvalid, decide (lv.area < area) || decide (lv.width < voW o)),
   (6, stBounds, voH o % 8 != 0 || decide (voH o < 128) || decide (8192 < voH o)),
   (6, stInvalid, decide (lv.height < voH o)),
   (8, stBounds, decide (voNum o < voDen o) || decide (240 * voDen o < voNum o) || (!dec && rateAbove o encodeRate)),
   (8, stInvalid, rateAbove o lv.rate),
   (10, stBounds, voDen o == 0),
   (12, stInvalid, !dec && decide (2 < fieldOf o 12 1)),
   (13, stInvalid, !dec && fieldOf o 12 1 == 2 && !([2, 4, 8].contains (fieldOf o 13 1))),
   (14, stBounds, !dec && decide (16 < fieldOf o 14 1)),
   (15, stUnsupported, !dec && (decide (lv.cols < voCols o) || decide (lv.rows < voRows o) ||
     (!voHevc o && decide (64 < voCols o * voRows o)) || (voWpp o && fieldOf o 15 1 != 0))),
   (20, stAlign, fieldOf o 20 8 % 65536 != 0), areaCheck 20 (videoArea x (fieldOf o 20 8) pool false),
   (28, stCount, decide (fieldOf o 28 2 < refSlotsMin o) || (dec && voHevc o && decide (17 < fieldOf o 28 2)))] ++
  rateChecks o header ++
  (if dec then [] else
    [(54, stAlign, fieldOf o 54 1 % 4 != 0),
     (54, stBounds, fieldOf o 54 1 != 0 && (decide (fieldOf o 54 1 < 8) || decide (64 < fieldOf o 54 1))),
     (55, stAlign, fieldOf o 55 1 % 4 != 0),
     (55, stBounds, fieldOf o 55 1 != 0 && decide (32 < fieldOf o 55 1))]) ++
  [(56, stBounds, dec && !voHevc o && decide (31 < fieldOf o 56 1)),
   (57, stInvalid, fieldOf o 57 1 != 0), (58, stInvalid, fieldOf o 58 1 != 0), (59, stInvalid, fieldOf o 59 1 != 0)]

/-! ## Sessions -/

/-- The share units of an engine that a partition holds (R311). -/
def Part.units (x : Part) (j : Nat) : Nat :=
  match x.layout with
  | some y => ((List.range 4).filter (fun u => bitOf y.agateUnits (4 * j + u))).length
  | none => 0

/-- A session of a partition, by its id: engine in bits [1:0]. -/
def Dev.session (d : Dev) (p id : Nat) : Option VSession :=
  (Tab.find (d.engine (id % 4)).sessions id).bind (fun v => if v.part = p then some v else none)

/-- Changes a session. -/
def Dev.modSession (d : Dev) (id : Nat) (f : VSession → VSession) : Dev :=
  d.modEngine (id % 4) (fun e => match Tab.find e.sessions id with
    | some v => { e with sessions := Tab.put e.sessions id (f v) }
    | none => e)

/-- Twice the sample rate times den over num of a session, as R312 adds them up: encode whole, decode half.
The sum is compared exactly over the product of the denominators. -/
def shareExceeded (objs : List Bytes) (u : Nat) : Bool :=
  let den := (objs.map voDen).foldl (· * ·) 1
  let sum := (objs.map (fun o => (if voDecode o then 1 else 2) * voW o * voH o * voNum o * (den / voDen o))).foldl (· + ·) 0
  decide (2 * encodeRate * u * den < 4 * sum)

/-- Changes what a partition sees of an engine. -/
def Dev.see (d : Dev) (j p : Nat) (f : EngSeen → EngSeen) : Dev :=
  d.modEngine j (fun e => { e with seen := Tab.put e.seen p (f (Tab.getD e.seen p EngSeen.reset)) })

/-- The check of a VIDEO_SESSION's engine: one where the partition holds no unit is refused (R311). -/
def Dev.engineCheck (d : Dev) (c : Cmd) : Nat × Nat × Bool :=
  (29, stPartition, decide (3 < c.field 29 1) || (d.part c.part).units (c.field 29 1) == 0)

/-- VIDEO_SESSION op 0: OPEN. A code above 2 is refused here. -/
def execVideoSessionOpen (h : Nat) (data : Bytes) (s : State) : Host.Outcome State Fault Refusal :=
  runCmd h 0x60 (fun c => c.field 28 1 != 1 && c.field 28 1 != 2) s (fun c d =>
    let p := c.part
    let j := c.field 29 1
    let u := (d.part p).units j
    let n := c.field 24 4
    let e := d.engine j
    let id := e.nextSession * 4 + j
    d.checked h ([(24, stBounds, n != 0 && n != 64), (28, stInvalid, c.field 28 1 != 0),
        d.engineCheck c, (30, stInvalid, c.field 30 2 != 0)] ++ rsvBytes c [(32, 32)])
      (fun d =>
        if n = 0 then d.complete h stOK 0 0
        else d.withObject h c n data (fun o d =>
          let header := Config.videoHeaderBits id 0
          match firstFail (sessionChecks (d.part p) o header) with
          | some f => d.failObj h f.1 f.2
          | none =>
            let mine := (e.sessions.filter (fun v => v.2.part == p)).map (·.2.obj)
            if e.failed then d.complete h stDeviceFault 0 0
            else if shareExceeded (o :: mine) u || decide (4 * u < mine.length + 1) then d.failAt h stBusy 29
            else
              (d.modEngine j (fun e => { e with
                nextSession := e.nextSession + 1
                sessions := Tab.put e.sessions id ⟨p, o, [], 0, 0, 0, 0, none, fieldOf o 44 4, false, false, 0, none⟩ })).complete
                  h stOK id 0)))

/-- The bytes of a session object that a reconfiguration may change: rc_mode to q_const, max_frame_bytes. -/
def rateByte (i : Nat) : Bool := (decide (30 ≤ i) && decide (i < 54)) || decide (60 ≤ i)

/-- VIDEO_SESSION op 1: RECONFIG, from the next frame that the engine starts. -/
def execVideoSessionReconfig (h : Nat) (data : Bytes) (s : State) : Host.Outcome State Fault Refusal :=
  runCmd h 0x60 (fun c => c.field 28 1 == 1) s (fun c d =>
    let n := c.field 24 4
    let id := c.field 32 4
    d.checked h ([(24, stBounds, n != 0 && n != 64), d.engineCheck c, (30, stInvalid, c.field 30 2 != 0),
        (32, stInvalid, (d.session c.part id).isNone)] ++ rsvBytes c [(36, 28)])
      (fun d =>
        if n = 0 then d.complete h stOK 0 0
        else d.withObject h c n data (fun o d =>
          match d.session c.part id with
          | none => d.failAt h stInvalid 32
          | some v =>
            let diff := (List.range 64).map (fun i => (i, stInvalid, !rateByte i && fieldOf o i 1 != fieldOf v.obj i 1))
            match firstFail (diff ++ rateChecks o (Config.videoHeaderBits id v.nextCoded)) with
            | some f => d.failObj h f.1 f.2
            | none => (d.modSession id (fun v => { v with obj := o })).complete h stOK id 0)))

end Sys2Proof.Machine
end

