-- ==== Sys2Proof/Machine/Guard.lean ====
section
/-!
DEFINITION. Inside an Agate engine: units of work and tile workers, the syntax-element buffer, guard rows and their
quantisers (R310, R321, R323, R325).
-/

namespace Sys2Proof.Machine

/-! ## Units of work and guard rows -/

/-- A guard row: its unit of work and its place in it; its left block, its block row and its blocks. -/
structure GuardRow where
  unit : Nat
  idx : Nat
  x : Nat
  y : Nat
  width : Nat
  deriving DecidableEq, Repr

/-- The guard rows of a picture in bitstream order (R321): a CTU row each under WPP, the rows of one tile after the other else. -/
def guardList (o : Bytes) : List GuardRow :=
  if voWpp o then (List.range (blocksDown o)).map (fun y => ⟨y, 0, 0, y, blocksAcross o⟩)
  else
    let ws := tileWidths o
    let hs := tileHeights o
    hs.zipIdx.flatMap (fun h => ws.zipIdx.flatMap (fun w => (List.range h.1).map (fun i =>
      (⟨h.2 * ws.length + w.2, i, (ws.take w.2).foldl (· + ·) 0, (hs.take h.2).foldl (· + ·) 0 + i, w.1⟩ : GuardRow))))

/-- The units of work of a picture (R310). -/
def unitCount (o : Bytes) : Nat := if voWpp o then blocksDown o else (tileWidths o).length * (tileHeights o).length
/-- The blocks of a unit of work. -/
def unitSize (o : Bytes) (u : Nat) : Nat := ((guardList o).filter (fun g => g.unit == u)).foldl (fun n g => n + g.width) 0

/-- The first block of a guard row within its unit. -/
def GuardRow.start (g : GuardRow) : Nat := g.idx * g.width

/-! ## The tile workers (R310) -/

/-- Bytes of the syntax-element buffer. -/
def bufferSize : Nat := 2 ^ 24

/-- Blocks of a unit that are coded. -/
def Coding.progOf (k : Coding) (u : Nat) : Nat := Tab.getD k.prog u 0

/-- The unit a free worker takes next: under WPP the next of rows w, w + 4, …; else the first tile that nobody holds. -/
def Coding.nextUnit (k : Coding) (o : Bytes) (w : Nat) : Option Nat :=
  (List.range (unitCount o)).find? (fun u => decide (k.progOf u < unitSize o u) &&
    (if voWpp o then u % 4 == w else !k.workers.contains (some u)))

/-- Every worker that has finished its unit, or has none, takes another. -/
def Coding.assign (k : Coding) (o : Bytes) : Coding :=
  (List.range 4).foldl (fun (k : Coding) w =>
    let keeps := match k.workers.getD w none with
      | some u => decide (k.progOf u < unitSize o u)
      | none => false
    if keeps then k else { k with workers := k.workers.set w (k.nextUnit o w) }) k

/-- Whether the next block of a unit may be coded: under WPP the row above is two CTUs ahead. -/
def Coding.mayCode (k : Coding) (o : Bytes) (u : Nat) : Bool :=
  !voWpp o || u == 0 || decide (min (unitSize o (u - 1)) (k.progOf u + 2) ≤ k.progOf (u - 1))

/-- The guard row that holds a block of a unit. -/
def rowAt (o : Bytes) (u block : Nat) : Nat :=
  (guardList o).findIdx (fun g => g.unit == u && decide (g.start ≤ block) && decide (block < g.start + g.width))

/-- A worker codes its next block, whose syntax elements take `n` bytes; it waits while the buffer has no room. -/
def Coding.work (k : Coding) (o : Bytes) (w n : Nat) : Coding :=
  match k.workers.getD w none with
  | none => k
  | some u =>
    if !k.mayCode o u || decide (bufferSize < k.buffer.foldl (fun m e => m + e.2) 0 + n) then k
    else
      let block := k.progOf u
      { k with prog := Tab.put k.prog u (block + 1), buffer := Tab.bump k.buffer (rowAt o u block) n }.assign o

/-- The workers go on by `n` steps; who codes when is a free value. -/
def Coding.advance (k : Coding) (o : Bytes) (draw n : Nat) : Coding :=
  (List.range n).foldl (fun (k : Coding) i =>
    let s := Config.videoWork draw i
    k.work o (s.1 % 4) s.2) (k.assign o)

/-- A guard row that the entropy engine has counted is coded to its end. -/
def Coding.through (k : Coding) (o : Bytes) (i : Nat) : Coding :=
  match (guardList o)[i]? with
  | some g => { k with prog := Tab.put k.prog g.unit (max (k.progOf g.unit) (g.start + g.width)) }
  | none => k

/-- Guard row `i` and the later rows of its tile or wavefront that have started (R323). -/
def Coding.started (k : Coding) (o : Bytes) (i : Nat) : List (Nat × GuardRow) :=
  let unit := ((guardList o)[i]?).elim 0 (·.unit)
  ((guardList o).zipIdx.map (fun e => (e.2, e.1))).filter (fun e => decide (i ≤ e.1) && (voWpp o || e.2.unit == unit) &&
    (e.1 == i || decide (e.2.start < k.progOf e.2.unit)))

/-- Guard rows are discarded: their units go back to before them and their syntax elements leave the buffer. -/
def Coding.discard (k : Coding) (o : Bytes) (rows : List (Nat × GuardRow)) : Coding :=
  rows.foldl (fun (k : Coding) e =>
    { k with prog := Tab.put k.prog e.2.unit (min (k.progOf e.2.unit) e.2.start), buffer := Tab.del k.buffer e.1 }.assign o) k

/-! ## Quantisers (R321, R323, R325) -/

/-- The lowest row quantiser of a session. -/
def rowLow (o : Bytes) : Nat := if fieldOf o 48 2 = 0 then qLow o else fieldOf o 48 2
/-- The highest. -/
def rowHigh (o : Bytes) : Nat := if fieldOf o 50 2 = 0 then qHigh o else fieldOf o 50 2
/-- The largest change between guard rows. -/
def rowStep (o : Bytes) : Nat := if fieldOf o 31 1 = 0 then (if voHevc o then 3 else 12) else fieldOf o 31 1

/-- A free quantiser of a range. -/
def freeIn (lo hi free : Nat) : Nat := lo + free % (hi - lo + 1)

/-- The row quantiser of a guard row: q_const under CQP, else within row_step of the previous row's and within q_min and
q_max; which one is the controller's, a free value. -/
def rowQuant (o : Bytes) (first : Bool) (prev free : Nat) : Nat :=
  if fieldOf o 30 1 = 0 then (if fieldOf o 52 2 = 0 then freeIn (qLow o) (qHigh o) free else fieldOf o 52 2)
  else if first then freeIn (rowLow o) (rowHigh o) free
  else freeIn (max (rowLow o) (prev - rowStep o)) (min (rowHigh o) (prev + rowStep o)) free

/-- What the guard adds to the row quantiser after the failures of a row. -/
def coarsening (o : Bytes) (tries : Nat) : Nat := (if voHevc o then 6 else 24) * tries

/-- The offset of a 64 × 64 block: that of the lowest-numbered region that covers it. -/
def roiOffset (f : Bytes) (x y : Nat) : Int :=
  match (List.range (fieldOf f 1 1)).find? (fun i =>
    let r := fieldOf f (128 + 8 * i) 8
    decide (bitsOf r 7 0 ≤ x) && decide (x < bitsOf r 7 0 + bitsOf r 23 16) && decide (bitsOf r 15 8 ≤ y) &&
      decide (y < bitsOf r 15 8 + bitsOf r 31 24)) with
  | none => 0
  | some i =>
    let q := bitsOf (fieldOf f (128 + 8 * i) 8) 47 32
    if q < 32768 then q else (q : Int) - 65536

/-- The quantiser of a block, clamped to the codec's range. -/
def blockQuant (o f : Bytes) (q x y : Nat) : Nat :=
  (max (qLow o : Int) (min (qHigh o) (q + roiOffset f x y))).toNat

/-- The quantisers of the blocks of guard row `i`. -/
def rowQuants (o f : Bytes) (i q : Nat) : List Nat :=
  match (guardList o)[i]? with
  | some g => (List.range g.width).map (fun x => blockQuant o f q (g.x + x) g.y)
  | none => []

/-- The bits of a minimal guard row: no more than its bound of R323. -/
def minimalBits (o : Bytes) (key : Bool) (i bits : Nat) : Nat :=
  min bits ((if key then 48 else 8) * ((guardList o)[i]?).elim 0 (·.width) + 64)

/-- The quantisers of a minimal row: the highest in inter frames, none in intra frames, which have no residual. -/
def minimalQuants (o : Bytes) (key : Bool) (i : Nat) : List Nat :=
  if key then [] else ((guardList o)[i]?).elim [] (fun g => List.replicate g.width (qHigh o))

/-- A guard row is committed: its syntax elements have left the buffer. -/
def Coding.commitRow (k : Coding) (bits : Nat) (quants : List Nat) : Coding :=
  { k with c := k.c + bits, row := k.row + 1, tries := 0, buffer := Tab.del k.buffer k.row, quants := k.quants ++ [quants] }

end Sys2Proof.Machine
end

