-- ==== Sys2Proof/Machine/Motion.lean ====
section
/-!
DEFINITION. The motion search of the Agate engines and its hint maps (R319, R320).
-/

namespace Sys2Proof.Machine

/-! ## What the search reads -/

/-- A reference of a frame: its number as hints name it, its luma plane and its motion field. -/
structure RefPic where
  ref : Nat
  luma : Bytes
  field : Bytes
  deriving DecidableEq, Repr

/-- What a search works on; `draw` numbers its free values. -/
structure Search where
  obj : Bytes
  luma : Bytes
  pitch : Nat
  hints : PBytes
  hintPitch : Nat
  refs : List RefPic
  draw : Nat
  deriving DecidableEq, Repr

/-- Blocks of 16 × 16 samples across. -/
def mbAcross (o : Bytes) : Nat := ceilDiv (voW o) 16
/-- Blocks of 16 × 16 samples down. -/
def mbDown (o : Bytes) : Nat := ceilDiv (voH o) 16
/-- The pitch of a reference slot (R315). -/
def slotPitch (o : Bytes) : Nat := roundUp (voW o * voSample o) 128

/-- A luma sample; a position outside the picture takes the nearest sample, and bits [15:10] are ignored (R314). -/
def lumaAt (o plane : Bytes) (pitch : Nat) (x y : Int) : Nat :=
  let cx := (max 0 (min (voW o - 1 : Int) x)).toNat
  let cy := (max 0 (min (voH o - 1 : Int) y)).toNat
  fieldOf plane (cy * pitch + cx * voSample o) (voSample o) % 2 ^ voDepth o

/-! ## Hints (R320) -/

/-- A hint: reference, confidence, vector in quarter samples. -/
structure Hint where
  ref : Nat
  conf : Nat
  x : Int
  y : Int
  deriving DecidableEq, Repr

/-- A 16-bit field as a signed number. -/
def signed16 (v : Nat) : Int := if v < 32768 then v else (v : Int) - 65536

/-- The hint of an entry: none where it carries none, has no confidence or names a reference code of 3 to 7. -/
def hintOf (e : Nat) : Option Hint :=
  if !bitOf e 35 || bitsOf e 39 36 == 0 || decide (2 < bitsOf e 34 32) then none
  else some ⟨bitsOf e 34 32, bitsOf e 39 36, signed16 (bitsOf e 15 0), signed16 (bitsOf e 31 16)⟩

/-- The hint of a block for a reference; a block outside the picture, and an entry that cannot be read, has none. -/
def Search.hint (s : Search) (ref bx by_ : Nat) : Option Hint :=
  if s.hints.isEmpty || decide (mbAcross s.obj ≤ bx) || decide (mbDown s.obj ≤ by_) then none
  else
    let e := (s.hints.drop (by_ * s.hintPitch + 8 * bx)).take 8
    if poisoned e then none else (hintOf (leNat (plain e))).bind (fun h => if h.ref = ref then some h else none)

/-! ## Candidates (R319) -/

/-- A candidate vector in quarter samples; a hint's confidence, 0 for any other. -/
structure Cand where
  x : Int
  y : Int
  conf : Nat
  deriving DecidableEq, Repr

/-- A hint as a candidate. -/
def Hint.cand (h : Hint) : Cand := ⟨h.x, h.y, h.conf⟩

/-- The final vector of a block of the current frame, where the block lies in the picture: a free value. -/
def Search.final (s : Search) (ref : Nat) (bx by_ : Int) : Option Cand :=
  if bx < 0 ∨ by_ < 0 ∨ (mbAcross s.obj : Int) ≤ bx then none
  else (Config.videoFinal s.draw ref (by_.toNat * mbAcross s.obj + bx.toNat)).map (fun v => ⟨v.1, v.2, 0⟩)

/-- The co-located vector: the nearest reference's motion field at the four 8 × 8 blocks of a block. -/
def Search.colocated (s : Search) (bx by_ : Nat) : Option Cand :=
  match s.refs with
  | [] => none
  | r :: _ =>
    let row := fun i => ((r.field.drop (((2 * by_ + i) * ceilDiv (voW s.obj) 8 + 2 * bx) * 8)).take 16)
    (Config.videoColocated (row 0 ++ row 1)).map (fun v => ⟨v.1, v.2, 0⟩)

/-- Drops each vector after its first appearance. -/
def firstOnes (cs : List Cand) : List Cand :=
  cs.foldl (fun acc c => if acc.any (fun b => b.x == c.x && b.y == c.y) then acc else acc ++ [c]) []

/-- The candidates of a block and a reference, in their order, up to 8. -/
def Search.cands (s : Search) (ref bx by_ : Nat) : List Cand :=
  let hint := fun x y => (s.hint ref x y).map Hint.cand
  let all := [hint bx by_, s.final ref (bx - 1 : Int) by_, s.final ref bx (by_ - 1 : Int), s.final ref (bx + 1 : Int) (by_ - 1 : Int),
    s.final ref (bx - 1 : Int) (by_ - 1 : Int), s.colocated bx by_, hint (bx + 1) by_, hint bx (by_ + 1), some ⟨0, 0, 0⟩]
  (firstOnes (all.filterMap id)).take 8

/-! ## Scores -/

/-- A vector component rounded to whole samples, ties away from zero. -/
def roundPel (v : Int) : Int := if v < 0 then -(((v.natAbs + 2) / 4 : Nat) : Int) else ((v.natAbs + 2) / 4 : Nat)

/-- A vector component clamped so that the block stays in the picture extended by 128 samples. -/
def clampPel (at_ size : Nat) (v : Int) : Int := max (-128 - at_ : Int) (min ((size : Int) + 128 - 16 - at_) v)

/-- The sum of absolute differences of a block under a vector of whole samples. -/
def Search.sad (s : Search) (r : RefPic) (bx by_ : Nat) (x y : Int) : Nat :=
  (List.range 256).foldl (fun n i =>
    let px := 16 * bx + i % 16
    let py := 16 * by_ + i / 16
    n + ((lumaAt s.obj s.luma s.pitch px py : Int) - lumaAt s.obj r.luma (slotPitch s.obj) (px + x) (py + y)).natAbs) 0

/-- λ × the rate of a vector in quarter samples, in parts of 65,536. -/
def Search.rate (s : Search) (ref bx by_ : Nat) (x y : Int) : Nat := Config.videoRate s.draw ref (by_ * mbAcross s.obj + bx) x y

/-- The score of a vector of whole samples: SAD plus λ × rate, in parts of 65,536. -/
def Search.score (s : Search) (r : RefPic) (bx by_ : Nat) (x y : Int) : Nat :=
  s.sad r bx by_ x y * 65536 + s.rate r.ref bx by_ (4 * x) (4 * y)

/-- The score of a vector in quarter samples: SATD plus λ × rate. -/
def Search.fine (s : Search) (r : RefPic) (bx by_ : Nat) (x y : Int) : Nat :=
  Config.videoSatd s.draw r.ref (by_ * mbAcross s.obj + bx) x y * 65536 + s.rate r.ref bx by_ x y

/-- The entries of a list in order of their scores, equal ones in the list's order. -/
def byScore {α : Type} (f : α → Nat) (l : List α) : List α :=
  l.foldl (fun acc a => acc.takeWhile (fun b => decide (f b ≤ f a)) ++ a :: acc.dropWhile (fun b => decide (f b ≤ f a))) []

/-- Positions up to `rx` and `ry` steps of `step` away from a position, itself among them. -/
def around (x y : Int) (rx ry : Nat) (step : Int) : List (Int × Int) :=
  (List.range (2 * ry + 1)).flatMap (fun j => (List.range (2 * rx + 1)).map (fun i =>
    (x + step * ((i : Int) - rx), y + step * ((j : Int) - ry))))

/-- search_x; 0 takes the default. -/
def searchX (o : Bytes) : Nat := if fieldOf o 54 1 = 0 then 32 else fieldOf o 54 1
/-- search_y; 0 takes the default. -/
def searchY (o : Bytes) : Nat := if fieldOf o 55 1 = 0 then 16 else fieldOf o 55 1

/-! ## The search of a block -/

/-- The two best candidates of a block, in whole samples. -/
def Search.best (s : Search) (r : RefPic) (bx by_ : Nat) : List (Int × Int) :=
  let pel := fun (c : Cand) => (clampPel (16 * bx) (voW s.obj) (roundPel c.x), clampPel (16 * by_) (voH s.obj) (roundPel c.y))
  ((byScore (fun c => s.score r bx by_ (pel c).1 (pel c).2 * (32 - c.conf)) (s.cands r.ref bx by_)).take 2).map pel

/-- The 16 × 16 result of a block and a reference: a full integer search about the two best candidates, then half and quarter
samples about the best. -/
def Search.result (s : Search) (r : RefPic) (bx by_ : Nat) : Seed :=
  let whole := (s.best r bx by_).flatMap (fun v => around v.1 v.2 (searchX s.obj) (searchY s.obj) 1)
  let a := (byScore (fun v => s.score r bx by_ v.1 v.2) whole).headD (0, 0)
  let fine := fun (v : Int × Int) => s.fine r bx by_ v.1 v.2
  let b := (byScore fine (around (4 * a.1) (4 * a.2) 1 1 2)).headD (0, 0)
  let c := (byScore fine (around b.1 b.2 1 1 1)).headD (0, 0)
  ⟨by_ * mbAcross s.obj + bx, r.ref, c.1, c.2⟩

/-- The results of every 16 × 16 block of an inter frame, per reference: the seeds of its partition decisions. -/
def Search.seeds (s : Search) : List Seed :=
  (List.range (mbDown s.obj)).flatMap (fun j => (List.range (mbAcross s.obj)).flatMap (fun i => s.refs.map (fun r => s.result r i j)))

end Sys2Proof.Machine
end

