-- ==== Sys2Proof/Machine/Video.lean ====
section
/-!
DEFINITION. The frames of the Agate video engines (R311, R316 to R327): submission, start, the receiver-buffer guard, completion.
-/

namespace Sys2Proof.Machine

/-! ## Frames: the object (R316) -/

/-- Bytes of a picture's planes at a pitch. -/
def lumaBytes (o f : Bytes) : Nat := fieldOf f 4 4 * voH o
/-- Chroma bytes. -/
def chromaBytes (o f : Bytes) : Nat := fieldOf f 4 4 * (voH o / 2)

/-- A region of interest goes wrong (R325): beyond the picture or qoff out of the codec's range. -/
def roiBad (o f : Bytes) (i : Nat) : Bool :=
  let r := fieldOf f (128 + 8 * i) 8
  let w := bitsOf r 23 16
  let t := bitsOf r 31 24
  let q := bitsOf r 47 32
  let mag := if q < 32768 then q else 65536 - q
  w != 0 && t != 0 &&
    (decide (ceilDiv (voW o) 64 < bitsOf r 7 0 + w) || decide (ceilDiv (voH o) 64 < bitsOf r 15 8 + t) ||
      decide ((if voHevc o then 51 else 255) < mag))

/-- The checks of a frame object's regions. -/
def roiChecks (o f : Bytes) : List (Nat × Nat × Bool) :=
  (List.range 16).flatMap (fun i =>
    if i < fieldOf f 1 1 then
      [(128 + 8 * i, stBounds, roiBad o f i), (128 + 8 * i + 6, stInvalid, fieldOf f (128 + 8 * i + 6) 2 != 0)]
    else [(128 + 8 * i, stInvalid, fieldOf f (128 + 8 * i) 8 != 0)])

/-- The checks of a frame object that an eos frame keeps: flags, counts, RSV. -/
def frameRsv (f : Bytes) : List (Nat × Nat × Bool) :=
  [(0, stInvalid, decide (3 < fieldOf f 0 1)), (1, stCount, decide (16 < fieldOf f 1 1)), (2, stInvalid, fieldOf f 2 2 != 0),
   (60, stInvalid, fieldOf f 60 4 != 0)] ++ (List.range 32).map (fun i => (96 + i, stInvalid, fieldOf f (96 + i) 1 != 0))

/-- A cluster endpoint of a frame's done_word: its cluster and offset. -/
def doneWord (f : Bytes) : Nat × Nat := ((endpoint 1 (fieldOf f 88 8) 0).cluster, (endpoint 1 (fieldOf f 88 8) 0).addr)

/-- The checks of done_word: zero for none. -/
def doneChecks (x : Part) (f : Bytes) : List (Nat × Nat × Bool) :=
  let v := fieldOf f 88 8
  let e := endpoint 1 v 0
  if v = 0 then []
  else [(88, stInvalid, endpointRsv 1 v), (88, stAlign, e.addr % 8 != 0), (88, stBounds, decide (userBytes < e.addr + 8)),
    (88, stPartition, !x.hasDie (e.cluster / 8))]

/-- R386 for an encode frame: out_addr may not touch a weight region, and what is coded into it comes from none. -/
def weightChecks (x : Part) (o f : Bytes) : List (Nat × Nat × Bool) :=
  [(8, stAuth, x.hitsWeights (fieldOf f 8 8) (lumaBytes o f)), (16, stAuth, x.hitsWeights (fieldOf f 16 8) (chromaBytes o f)),
   (40, stAuth, x.hitsWeights (fieldOf f 40 8) (fieldOf f 36 4)),
   (48, stAuth, fieldOf f 48 8 != 0 && x.hitsWeights (fieldOf f 48 8) (fieldOf f 56 4 * ceilDiv (voH o) 16))]

/-- The checks that a decode frame with in_bytes = 0 keeps: it is empty (R203). -/
def emptyChecks (o f : Bytes) : List (Nat × Nat × Bool) :=
  frameRsv f ++ [(88, stInvalid, fieldOf f 88 8 != 0 && endpointRsv 1 (fieldOf f 88 8))] ++ roiChecks o f

/-- The checks of a frame object (R314, R316, R325). -/
def frameChecks (x : Part) (o f : Bytes) : List (Nat × Nat × Bool) :=
  let pitch := fieldOf f 4 4
  let hint := fieldOf f 48 8
  let slot := fieldOf f 72 8
  frameRsv f ++
  [(4, stAlign, pitch % 128 != 0), (4, stBounds, decide (pitch < voW o * voSample o)),
   (8, stAlign, fieldOf f 8 8 % 128 != 0), areaCheck 8 (videoArea x (fieldOf f 8 8) (lumaBytes o f) false),
   (16, stAlign, fieldOf f 16 8 % 128 != 0), areaCheck 16 (videoArea x (fieldOf f 16 8) (chromaBytes o f) false)] ++
  (if voDecode o then [areaCheck 24 (videoArea x (fieldOf f 24 8) (fieldOf f 32 4) true)]
   else
    [(36, stBounds, decide (fieldOf f 36 4 < voMax o)), areaCheck 40 (videoArea x (fieldOf f 40 8) (fieldOf f 36 4) true)] ++
    (if hint = 0 then [] else
      [(48, stAlign, hint % 128 != 0),
       areaCheck 48 (videoArea x hint (fieldOf f 56 4 * ceilDiv (voH o) 16) false),
       (56, stAlign, fieldOf f 56 4 % 128 != 0)]) ++ weightChecks x o f) ++
  (if slot = 0 then [] else [(72, stInvalid, x.extent slot 32 != .volatile)]) ++
  [(80, stAlign, fieldOf f 80 8 % 32 != 0), areaCheck 80 (videoArea x (fieldOf f 80 8) 32 true)] ++
  doneChecks x f ++ roiChecks o f

/-! ## The end of a frame (R318, R326) -/

/-- Who asks for the pages of an engine's frame. -/
def engineAsker (j : Nat) : Nat := 2 ^ 33 + j

/-- How the extents of a frame stand: 0 ready, 1 to be waited for, 2 not to be reached. Cold pages stall the engine and are
asked for (R314); so do a link that retrains, an atom that a base die holds, and for writes a tag unit to be converted
(R245, R254, R283, R284). -/
def Dev.engineWay (d : Dev) (j p : Nat) (exts : List (Nat × Nat)) (writes : Bool) : Nat × Dev :=
  let exts := exts.filter (fun e => e.2 != 0)
  let lack := (exts.flatMap (fun e => (d.part p).lacking (engineAsker j) e.1 e.2)).dedup
  if !lack.isEmpty && !(d.part p).denied.contains (engineAsker j) then (1, d.ask p (engineAsker j) lack ((d.part p).dieList.headD 0))
  else if (d.part p).denied.contains (engineAsker j) || exts.any (fun e => d.ioWay p e.1 e.2 == 2) then (2, d)
  else if exts.any (fun e => d.ioWay p e.1 e.2 == 1 || d.extentHeld p e.1 e.2 || (writes && d.staleExtent p e.1 e.2)) then (1, d)
  else (0, d)

/-- Reads an extent for an engine, over the I/O-die links of the dies that hold it (R13). -/
def Dev.engineRead (d : Dev) (p a n : Nat) : PBytes × Dev :=
  if n = 0 then ([], d)
  else
    let r := d.devRead p a n 1
    (r.1, r.2.ioCarried p a n true)

/-- Writes bytes that an engine produces to a device extent. -/
def Dev.engineWrite (d : Dev) (p a : Nat) (bs : Bytes) : Dev :=
  if bs.isEmpty then d else (d.devWrite p a (good bs) 1).ioCarried p a bs.length false

/-- What an engine's frame asked for is served. -/
def Dev.engineServed (d : Dev) (j p : Nat) : Dev := d.modPart p (fun x => x.unask (engineAsker j))

/-- Bytes that the spec leaves open, drawn afresh. -/
def Dev.freeBytes (d : Dev) (n : Nat) : Bytes × Dev :=
  ((List.range n).map (fun i => Config.videoByte d.free 0 i), { d with free := d.free + 1 })

/-- Leaves an extent with open contents. -/
def Dev.scramble (d : Dev) (p a n : Nat) : Dev :=
  let r := d.freeBytes n
  r.2.engineWrite p a r.1

/-- A frame record (R318). -/
def frameRecord (stamp bytes display coded kind flags reenc minRows status : Nat) : Bytes :=
  natLE 8 stamp ++ natLE 8 bytes ++ natLE 4 display ++ natLE 4 coded ++ natLE 1 kind ++ natLE 1 flags ++ natLE 2 reenc ++
    natLE 2 minRows ++ natLE 1 status ++ natLE 1 0

/-- Removes a session. -/
def Dev.dropSession (d : Dev) (id : Nat) : Dev :=
  d.modEngine (id % 4) (fun e => { e with sessions := Tab.del e.sessions id })

/-- After a frame ended: eos completes with the last frame, CLOSE removes the session. -/
def Dev.sessionIdle (d : Dev) (id : Nat) : Dev :=
  let e := d.engine (id % 4)
  match Tab.find e.sessions id with
  | none => d
  | some v =>
    if !v.frames.isEmpty || (e.coding.map (·.session)) == some id || e.ends.any (fun x => x.session == id) then d
    else
      let d := match v.eosBy with
        | some h => (d.modSession id (fun v => { v with eosBy := none })).complete h stOK 0 0
        | none => d
      match v.closing with
      | some h => (d.dropSession id).complete h stOK id 0
      | none => d

/-- The state of the I/O-die link to the cluster of a frame's done_word; 0 for none. -/
def Dev.doneWay (d : Dev) (f : Bytes) : Nat := if fieldOf f 88 8 = 0 then 0 else d.ioState ((doneWord f).1 / 8)

/-- The record of a frame, its done word, its DONE (r0 bytes, r1 display index); without the first two where a link to them
is down (R284). -/
def Dev.endNow (d : Dev) (j : Nat) (e : FrameEnd) (down : Bool) : Dev :=
  let f := e.frame.obj
  let status := if down ∧ (e.status = stOK ∨ e.status = stStale ∨ e.status = stQuality) then stDeviceFault else e.status
  let d := if down then d
    else
      let d := d.engineWrite e.part (fieldOf f 80 8)
        (frameRecord (d.tc e.part) e.bytes e.display e.coded e.kind e.flags e.reenc e.minRows e.status)
      let w := doneWord f
      if fieldOf f 88 8 = 0 then d
      else (d.modCluster w.1 (fun y => { y with
        mem := Mem.putNat y.mem w.2 8 ((Mem.nat y.mem w.2 8 + 1) % 2 ^ 64) })).carriedIo (w.1 / 8) false 8
  let d := d.see j e.part (fun x => { x with
    fault := x.fault || status == stDeviceFault || status == stUnsupported
    stale := x.stale || bitOf e.flags 3
    keyDeferred := x.keyDeferred || bitOf e.flags 2
    minimal := x.minimal || bitOf e.flags 1
    reencode := x.reencode || bitOf e.flags 0 })
  (d.engineServed j e.part).complete e.frame.handle status e.bytes e.display

/-- Tries to end a frame; false while its record or done word has to wait. -/
def Dev.endTry (d : Dev) (j : Nat) (e : FrameEnd) : Bool × Dev :=
  let w := d.engineWay j e.part [(fieldOf e.frame.obj 80 8, 32)] true
  let way := if w.1 = 1 then 1 else max w.1 (d.doneWay e.frame.obj)
  if way = 1 then (false, w.2)
  else
    let d' := d.endNow j e (decide (way = 2))
    if d.affords d' then (true, d') else (false, d)

/-- The frames of an engine that have ended, in order, as far as their records can be written. -/
def Dev.endsGo (d : Dev) (j : Nat) : List FrameEnd → Dev
  | [] => d
  | e :: es =>
    let r := d.endTry j e
    if r.1 then ((r.2.modEngine j (fun x => { x with ends := es })).sessionIdle e.session).endsGo j es else r.2

/-- Ends a frame, behind those of its engine that wait for their records. -/
def Dev.endFrame (d : Dev) (j : Nat) (e : FrameEnd) : Dev :=
  let d := d.modEngine j (fun x => { x with ends := x.ends ++ [e] })
  if (d.engine j).ends.length = 1 then d.endsGo j (d.engine j).ends else d

/-- Completes a frame that wrote nothing: aborted, faulted or unsupported; the session's state is as before. -/
def Dev.failFrame (d : Dev) (id : Nat) (f : VFrame) (status : Nat) : Dev :=
  match Tab.find (d.engine (id % 4)).sessions id with
  | none => d.complete f.handle status 0 f.display
  | some v => d.endFrame (id % 4) ⟨id, v.part, f, status, 0, f.display, v.nextCoded, 0, 0, 0, 0⟩

/-- Completes the waiting frames of a session with a status. -/
def Dev.failWaiting (d : Dev) (id status : Nat) : Dev :=
  match Tab.find (d.engine (id % 4)).sessions id with
  | none => d
  | some v => v.frames.foldl (fun d f => d.failFrame id f status) (d.modSession id (fun v => { v with frames := [] }))

/-- Ends the frame an engine is coding with a fault or ABORTED. -/
def Dev.dropCoding (d : Dev) (j status : Nat) : Dev :=
  match (d.engine j).coding with
  | none => d
  | some k => ((d.modEngine j (fun e => { e with coding := none, seeds := [] })).failFrame k.session k.frame status).sessionIdle k.session

/-- VIDEO_SESSION op 2: CLOSE. Waiting frames complete with ABORTED; the frame being coded ends first. -/
def execVideoSessionClose (h : Nat) (s : State) : Host.Outcome State Fault Refusal :=
  runCmd h 0x60 (fun c => c.field 28 1 == 2) s (fun c d =>
    let id := c.field 32 4
    d.checked h ([(24, stBounds, c.field 24 4 != 0), d.engineCheck c, (30, stInvalid, c.field 30 2 != 0),
        (32, stInvalid, (d.session c.part id).isNone)] ++ rsvBytes c [(36, 28)])
      (fun d =>
        let d := (d.running h).modSession id (fun v => { v with closing := some h })
        (d.failWaiting id stAborted).sessionIdle id))

/-! ## Frames: submission -/

/-- The session of a VIDEO_FRAME and its object, checked. -/
def Dev.onFrame (d : Dev) (h : Nat) (c : Cmd) (data : Bytes) (act : Bytes → VSession → Dev → Dev) : Dev :=
  let n := c.field 24 4
  let id := c.field 28 4
  d.checked h ([(24, stBounds, n != 0 && n != 256), (28, stInvalid, (d.session c.part id).isNone)] ++ rsvBytes c [(32, 32)])
    (fun d =>
      if n = 0 then d.complete h stOK 0 0
      else d.withObject h c n data (fun f d =>
        match d.session c.part id with
        | none => d.failAt h stInvalid 28
        | some v => if (d.engine (id % 4)).failed then d.complete h stDeviceFault 0 0 else act f v d))

/-- The frame object of a command, as far as it decides the row: eos of byte 0. -/
def frameEos (d : Dev) (c : Cmd) (data : Bytes) : Bool :=
  if bitOf (c.field 2 1) 1 then bitOf (leNat (plain (d.devRead c.part (c.field 16 8) 1 0).1)) 0
  else bitOf (fieldOf data 0 1) 0

/-- A frame joins those that wait; the first one after an eos begins a stream. -/
def VSession.submit (v : VSession) (h : Nat) (f : Bytes) : VSession :=
  let base := if v.ended = v.nextDisplay then v.nextDisplay else v.base
  { v with frames := v.frames ++ [⟨h, f, v.nextDisplay, base⟩], nextDisplay := v.nextDisplay + 1, base := base }

/-- VIDEO_FRAME (R316): the frame waits in its session. -/
def execVideoFrame (h : Nat) (data : Bytes) (s : State) : Host.Outcome State Fault Refusal :=
  runCmd h 0x61 (fun c => !(frameEos s.dev c data)) s (fun c d =>
    d.onFrame h c data (fun f v d =>
      let empty := voDecode v.obj && fieldOf f 32 4 == 0
      match firstFail (if empty then emptyChecks v.obj f else frameChecks (d.part c.part) v.obj f) with
      | some e => d.failObj h e.1 e.2
      | none =>
        if empty then d.complete h stOK 0 0
        else (d.running h).modSession (c.field 28 4) (fun v => v.submit h f)))

/-- VIDEO_FRAME with eos set (R316, R318): every waiting frame is coded; it completes with the last of them. On
a decode session eos has no meaning of its own. -/
def execVideoFrameEos (h : Nat) (data : Bytes) (s : State) : Host.Outcome State Fault Refusal :=
  runCmd h 0x61 (fun c => frameEos s.dev c data) s (fun c d =>
    d.onFrame h c data (fun f v d =>
      match firstFail (frameRsv f) with
      | some e => d.failObj h e.1 e.2
      | none =>
        let earlier := v.eosBy
        let d := (d.running h).modSession (c.field 28 4) (fun v => { v with ended := v.nextDisplay, eosBy := some h })
        let d := match earlier with
          | some g => d.complete g stOK 0 0
          | none => d
        d.sessionIdle (c.field 28 4)))

/-! ## Coding -/

/-- Whether a window has been committed (R317). -/
def Part.committed (x : Part) (w : Nat) : Bool := decide (w + 1 < x.tick.index) || (x.tick.boundary.isNone && decide (w + 1 ≤ x.tick.index))

/-- The last frame of its stream that must have been submitted before frame `n` of the stream starts (R318). -/
def neededFor (o : Bytes) (n : Nat) : Nat :=
  let g := voGop o
  max (n + fieldOf o 14 1) (if n = 0 then 0 else ((n - 1) / g + 1) * g)

/-- The place of a frame in its stream. -/
def VFrame.pos (f : VFrame) : Nat := f.display - f.base

/-- Whether a waiting frame may start. -/
def frameReady (x : Part) (v : VSession) (f : VFrame) : Bool :=
  let w := fieldOf f.obj 64 8
  (w == ones64 || x.committed w) && (voDecode v.obj || decide (f.display < v.ended) ||
    decide (f.base + neededFor v.obj f.pos < v.nextDisplay))

/-- The frames of a session that may be coded next: the oldest, or any of its mini-GOP (the order within a
mini-GOP is microcode). -/
def nextFrames (v : VSession) : List VFrame :=
  match v.frames with
  | [] => []
  | f :: _ =>
    if voDecode v.obj || voGop v.obj == 1 || f.pos == 0 then [f]
    else v.frames.filter (fun g => g.base == f.base && (g.pos - 1) / voGop v.obj == (f.pos - 1) / voGop v.obj)

/-- What an engine may start now: session and frame. -/
def Dev.mayStart (d : Dev) (j : Nat) : List (Nat × VSession × VFrame) :=
  (d.engine j).sessions.flatMap (fun e =>
    ((nextFrames e.2).filter (frameReady (d.part e.2.part) e.2)).map (fun f => (e.1, e.2, f)))

/-- The bytes of a slot's reconstructed picture (R315). -/
def slotPicture (o : Bytes) : Nat := slotPitch o * voH o + slotPitch o * (voH o / 2)

/-- Reads the references of an inter frame: which there are and which slots hold them is microcode, a free value. -/
def Dev.readRefs (d : Dev) (p : Nat) (o : Bytes) (kind draw : Nat) : List RefPic × Bool × Dev :=
  let refs := if kind = 3 then [0] ++ (if draw % 2 = 0 then [1] else []) ++ (if draw / 2 % 2 = 0 then [2] else [])
    else [0] ++ (if draw % 2 = 0 then [2] else [])
  refs.foldl (fun (acc : List RefPic × Bool × Dev) r =>
    let slot := draw / 4 / 64 ^ r % fieldOf o 28 2
    let g := acc.2.2.engineRead p (fieldOf o 20 8 + slot * refSlotBytes o) (refSlotBytes o)
    (acc.1 ++ [⟨r, (plain g.1).take (slotPitch o * voH o), (plain g.1).drop (slotPicture o)⟩], acc.2.1 || poisoned g.1, g.2)) ([], false, d)

/-- The motion search of an inter frame: its seeds, and whether a reference is poisoned (R319). -/
def Dev.search (d : Dev) (p : Nat) (o f : Bytes) (kind draw : Nat) (luma : PBytes) : List Seed × Bool × Dev :=
  let hint := fieldOf f 48 8
  let m := if hint = 0 then ([], d) else d.engineRead p hint (fieldOf f 56 4 * mbDown o)
  let r := m.2.readRefs p o kind draw
  (Search.seeds ⟨o, plain luma, fieldOf f 4 4, m.1, fieldOf f 56 4, r.1, d.free⟩, r.2.1, r.2.2)

/-- What the engine reads for a frame at its start: its input, or its source picture with the motion search of an inter frame.
A minimal frame has no source (R317). -/
def Dev.readSource (d : Dev) (p : Nat) (o f : Bytes) (kind draw : Nat) : List Seed × Bool × Dev :=
  if voDecode o then
    let r := d.engineRead p (fieldOf f 24 8) (fieldOf f 32 4)
    ([], poisoned r.1, r.2)
  else if kind = 4 then ([], false, d)
  else
    let r := d.engineRead p (fieldOf f 8 8) (lumaBytes o f)
    let t := r.2.engineRead p (fieldOf f 16 8) (chromaBytes o f)
    let m := if kind = 0 then ([], false, t.2) else t.2.search p o f kind draw r.1
    (m.1, poisoned r.1 || poisoned t.1 || m.2.1, m.2.2)

/-- The extents that an engine reads at the start of a frame. -/
def startExtents (o f : Bytes) : List (Nat × Nat) :=
  (if fieldOf f 72 8 = 0 then [] else [(fieldOf f 72 8, 32)]) ++
  (if voDecode o then [(fieldOf f 24 8, fieldOf f 32 4)]
   else [(fieldOf f 8 8, lumaBytes o f), (fieldOf f 16 8, chromaBytes o f), (fieldOf o 20 8, fieldOf o 28 2 * refSlotBytes o)] ++
    (if fieldOf f 48 8 = 0 then [] else [(fieldOf f 48 8, fieldOf f 56 4 * mbDown o)]))

/-- Whether an encode frame asks for a key frame or IDR: the first of a stream, force_key, key_interval, or one that was
deferred (R313, R316, R324). -/
def VSession.wantsKey (v : VSession) (f : VFrame) : Bool :=
  !voDecode v.obj && (!v.hasRef || f.pos == 0 || bitOf (fieldOf f.obj 0 1) 1 || v.keyPending ||
    (fieldOf v.obj 16 4 != 0 && decide (fieldOf v.obj 16 4 ≤ v.sinceKey)))

/-- The frame type of a coded frame that is no key frame: by the structure of the session's groups of pictures. -/
def interKind (o : Bytes) (draw : Nat) : Nat := if fieldOf o 12 1 = 0 then 2 else 2 + draw % 2

/-- A frame as an engine begins it, with nothing of it coded: `head` is its slot header. What a decoded stream holds is a
free value. A minimal frame is a key frame only where there is no picture to repeat. -/
def Coding.begin_ (id : Nat) (v : VSession) (f : VFrame) (head : PBytes) (draw : Nat) : Coding :=
  let o := v.obj
  let slot := !head.isEmpty
  let hd := plain head
  let stale := slot && (bitOf (fieldOf hd 8 1) 1 || fieldOf hd 0 8 != fieldOf f.obj 64 8)
  let header := Config.videoHeaderBits id v.nextCoded
  let fmax := min v.full (8 * voMax o)
  let wants := v.wantsKey f && !(stale && v.hasRef)
  let key := wants && (decide (header + guardRows o * minimalRow o true ≤ fmax) || !v.hasRef)
  { session := id
    frame := f
    obj := o
    key := key
    minimal := stale
    stale := stale
    qualityIn := slot && bitOf (fieldOf hd 8 1) 2
    deferred := wants && !key
    fmax := fmax
    header := header
    c := 0
    rows := if voDecode o then 0 else guardRows o
    row := 0
    tries := 0
    reenc := 0
    minRows := 0
    coded := v.nextCoded
    kind := if stale then 4 else if voDecode o then draw % 4 else if key then 0 else interKind o draw
    lost := poisoned head
    workers := [none, none, none, none]
    prog := []
    buffer := []
    rowQ := 0
    quants := [] }

/-- Starts a frame on an engine: the stores zeroed at a switch of partition, the slot header and the source read, the key
decision of R324, the motion search, the workers at their first units. -/
def Dev.startFrame (d : Dev) (j id : Nat) (v : VSession) (f : VFrame) : Dev :=
  let p := v.part
  let slot := fieldOf f.obj 72 8
  let r := if slot = 0 then ([], d) else d.engineRead p slot 32
  let q := r.2.draw
  let k := Coding.begin_ id v f r.1 q.1
  let m := q.2.readSource p v.obj f.obj k.kind (q.1 / 2)
  let k := { k with lost := k.lost || m.2.1 }
  ((m.2.2.draw.2.modEngine j (fun e => { e with
    coding := some (if voDecode v.obj then k else k.assign v.obj)
    seeds := m.1
    zeroed := e.zeroed + b2n (e.lastPart != some p)
    lastPart := some p })).modSession id (fun v => { v with frames := v.frames.filter (fun g => g.handle != f.handle) })).engineServed j p

/-- The partition that an engine serves next among those with frames that may start, and the frames left of its turn: weighted
round robin, a turn of as many frames as the partition has units (R311). -/
def Engine.nextTurn (e : Engine) (units : Nat → Nat) (ready : List Nat) : Option (Nat × Nat) :=
  if ready.contains e.turn && decide (0 < e.turnLeft) then some (e.turn, e.turnLeft - 1)
  else (((List.range 4).map (fun i => (e.turn + 1 + i) % 4)).find? ready.contains).map (fun p => (p, units p - 1))

/-- Starts a frame whose extents are ready, or waits for them; one that a link that is down keeps from its source ends with
DEVICE_FAULT. -/
def Dev.beginFrame (d : Dev) (j left id : Nat) (v : VSession) (f : VFrame) : Dev :=
  let w := d.engineWay j v.part (startExtents v.obj f.obj) false
  let turn := fun (d : Dev) => d.modEngine j (fun e => { e with turn := v.part, turnLeft := left })
  match w.1 with
  | 0 => d.ifAffords (turn (d.startFrame j id v f))
  | 1 => w.2
  | _ => ((turn ((w.2.engineServed j v.part).modSession id (fun v => { v with frames := v.frames.filter (fun g => g.handle != f.handle) }))).failFrame id f
      stDeviceFault).sessionIdle id

/-- VIDEO_FRAME_START: the partition by its turn; which of its frames that may start is a free value. -/
def execVideoFrameStart (j : Nat) (s : State) : Host.Outcome State Fault Refusal :=
  onUnit (decide (j < 4)) (whenUp s (fun d =>
    let e := d.engine j
    if e.failed || e.coding.isSome || s.plat.lowPower then d
    else
      let cands := d.mayStart j
      match e.nextTurn (fun p => (d.part p).units j) (cands.map (fun c => c.2.1.part)) with
      | none => d
      | some (p, left) =>
        let mine := cands.filter (fun c => c.2.1.part == p)
        let q := d.draw
        match mine[q.1 % mine.length]? with
        | none => d
        | some (id, v, f) => q.2.beginFrame j left id v f))

/-- The frame of an engine after its workers have gone on and have coded the guard row that is counted; a row that is coded for
the first time has its quantiser (R310, R321). -/
def Dev.atRow (d : Dev) (k : Coding) (o : Bytes) : Coding × Dev :=
  let q := d.draw
  let t := q.2.draw
  let k := (k.advance o d.free q.1).through o k.row
  (if k.tries = 0 then { k with rowQ := rowQuant o (k.row == 0) k.rowQ t.1 } else k, t.2)

/-- GUARD_ROW_COUNTED: the guard commits the row or discards it with the later rows of its tile or wavefront that have started;
after the third failure the row is coded minimal (R323), as every row of a minimal frame is (R317). -/
def execGuardRowCounted (j bits : Nat) (s : State) : Host.Outcome State Fault Refusal :=
  onUnit (decide (j < 4)) (whenUp s (fun d =>
    match (d.engine j).coding with
    | none => d
    | some k =>
      if !Tab.has (d.engine j).sessions k.session then d
      else
        let o := k.obj
        let m := minimalRow o k.key
        let put := fun (d : Dev) (k : Coding) => d.modEngine j (fun e => { e with coding := some k })
        if k.rows ≤ k.row then d
        else
          let r := d.atRow k o
          let k := r.1
          if k.minimal then put r.2 (k.commitRow (minimalBits o k.key k.row bits) (minimalQuants o k.key k.row))
          else if k.tries = 3 then
            put r.2 { k.commitRow (minimalBits o k.key k.row bits) (minimalQuants o k.key k.row) with minRows := k.minRows + 1 }
          else if k.c + bits + m * (k.rows - k.row - 1) + k.header ≤ k.fmax then
            put r.2 (k.commitRow bits (rowQuants o k.frame.obj k.row (k.rowQ + coarsening o k.tries)))
          else
            let gone := k.started o k.row
            put r.2 { k.discard o gone with tries := k.tries + 1, reenc := k.reenc + gone.length }))

/-- The bits of a coded frame, filler included, and whether there is filler (R322). -/
def codedBits (o : Bytes) (full bits : Nat) : Nat × Bool :=
  let whole := roundUp bits 8
  let extra := (full - whole) + inflow o (fieldOf o 32 4) - fieldOf o 40 4
  if fieldOf o 30 1 = 1 ∧ 0 < extra then (roundUp (whole + extra) 8, true) else (whole, false)

/-- The bytes of the planes that a decoded picture fills; bits [15:10] of a 10-bit sample are zero (R314). -/
def Dev.writePicture (d : Dev) (p : Nat) (o f : Bytes) : Dev :=
  let rowB := voW o * voSample o
  let row := fun (d : Dev) a =>
    let r := d.freeBytes rowB
    r.2.engineWrite p a (if voDepth o = 10 then r.1.zipIdx.map (fun e => if e.2 % 2 = 1 then e.1 &&& 3 else e.1) else r.1)
  let plane := fun (d : Dev) (base rows : Nat) => (List.range rows).foldl (fun (d : Dev) i => row d (base + i * fieldOf f 4 4)) d
  plane (plane d (fieldOf f 8 8) (voH o)) (fieldOf f 16 8) (voH o / 2)

/-- The status of a frame that ends with neither a fault nor ABORTED (R326). -/
def Coding.status (k : Coding) (concealed : Bool) : Nat :=
  if k.stale then stStale
  else if k.qualityIn || decide (0 < k.minRows) || k.deferred || concealed then stQuality
  else stOK

/-- The bits of a frame's bitstream, filler included, and whether there is filler. -/
def Coding.codedSize (k : Coding) (v : VSession) : Nat × Bool := codedBits k.obj v.full (k.c + k.header)

/-- The bytes of a frame's bitstream; none of a decoded one. -/
def Coding.bytes (k : Coding) (v : VSession) : Nat := if voDecode v.obj then 0 else (k.codedSize v).1 / 8

/-- The extents that an engine writes at the end of a frame. -/
def endExtents (o f : Bytes) (bytes : Nat) : List (Nat × Nat) :=
  (fieldOf f 80 8, 32) :: (fieldOf o 20 8, fieldOf o 28 2 * refSlotBytes o) ::
    (if voDecode o then [(fieldOf f 8 8, lumaBytes o f), (fieldOf f 16 8, chromaBytes o f)] else [(fieldOf f 40 8, bytes)])

/-- Ends a frame that was coded or decoded. -/
def Dev.finishFrame (d : Dev) (j : Nat) (k : Coding) (v : VSession) (concealed : Bool) : Dev :=
  let p := v.part
  let o := k.obj
  let dec := voDecode o
  let cb := k.codedSize v
  let d := d.modEngine j (fun e => { e with coding := none, seeds := [] })
  let d := if dec then d.writePicture p o k.frame.obj
    else
      let r := d.freeBytes (k.bytes v)
      r.2.engineWrite p (fieldOf k.frame.obj 40 8) r.1
  let d := d.scramble p (fieldOf o 20 8) (fieldOf o 28 2 * refSlotBytes o)
  let flags := b2n (decide (0 < k.reenc)) + 2 * b2n (decide (0 < k.minRows)) + 4 * b2n k.deferred + 8 * b2n k.stale +
    16 * b2n concealed + 32 * b2n (!dec && cb.2)
  let full := (v.full - cb.1) + inflow o (fieldOf o 32 4)
  let d := d.modSession k.session (fun v => { v with
    full := if dec then v.full else min full (fieldOf o 40 4)
    hasRef := true
    keyPending := k.deferred || (k.minimal && v.hasRef && v.wantsKey k.frame)
    sinceKey := if k.key then 1 else v.sinceKey + 1
    nextCoded := v.nextCoded + 1 })
  (d.endFrame j ⟨k.session, p, k.frame, k.status concealed, k.bytes v, if dec then k.coded else k.frame.display, k.coded, k.kind,
    flags, k.reenc, k.minRows⟩).sessionIdle k.session

/-- The end of a frame whose guard rows are all committed: what it writes is waited for; poison, a link that is down and a
stream outside R305 end it otherwise (R262, R284, R309, R326). -/
def Dev.closeFrame (d : Dev) (j : Nat) (k : Coding) (v : VSession) (result : FrameResult) : Dev :=
  if result.poisoned || k.lost then d.dropCoding j stDeviceFault
  else if result.unsupported && voDecode v.obj then d.dropCoding j stUnsupported
  else
    let w := d.engineWay j v.part (endExtents k.obj k.frame.obj (k.bytes v)) true
    match max w.1 (d.doneWay k.frame.obj) with
    | 0 => d.ifAffords (d.finishFrame j k v (result.concealed && voDecode v.obj))
    | 1 => w.2
    | _ => if w.1 = 1 then w.2 else (w.2.engineServed j v.part).dropCoding j stDeviceFault

/-- VIDEO_FRAME_COMPLETE: an encode frame ends once its last guard row is committed. Frames that have ended and wait for their
records come first. -/
def execVideoFrameComplete (j : Nat) (result : FrameResult) (s : State) : Host.Outcome State Fault Refusal :=
  onUnit (decide (j < 4)) (whenUp s (fun d =>
    if !(d.engine j).ends.isEmpty then d.endsGo j (d.engine j).ends
    else match (d.engine j).coding with
    | none => d
    | some k =>
      match Tab.find (d.engine j).sessions k.session with
      | none => d
      | some v => if k.row < k.rows then d else d.closeFrame j k v result))

/-- An engine fails: every waiting frame on it completes with DEVICE_FAULT (R327). -/
def Dev.failEngine (d : Dev) (j : Nat) : Dev :=
  let d := (d.modEvent { EventRec.blank 0x0105 2 6 with status := stDeviceFault, unit := j, d0 := j }).dropCoding j stDeviceFault
  let d := d.modEngine j (fun e => { e with failed := true })
  (Tab.keys (d.engine j).sessions).foldl (fun (d : Dev) id => (d.failWaiting id stDeviceFault).sessionIdle id) d

/-- AGATE_ENGINE_FAILURE: reported to the management controller as kind 3. -/
def execAgateEngineFailure (j : Nat) (s : State) : Host.Outcome State Fault Refusal :=
  onUnit (decide (j < 4))
    (if s.plat.up && !(s.dev.engine j).failed then
      { s with dev := s.dev.failEngine j, plat := { s.plat with mgmt := s.plat.mgmt ++ [⟨3, j⟩] } }
     else s)

/-! ## Frames that end early -/

/-- The session in which a frame of a handle waits. -/
def waitingFrame (h : Nat) (t : Tab VSession) : Option (Nat × Bool × VFrame) :=
  t.findSome? (fun y => (y.2.frames.find? (fun f => f.handle == h)).map (fun f => (y.1, false, f)))

/-- The session in which a frame of a handle waits, or on whose engine it is being coded. -/
def Dev.frameOf (d : Dev) (h : Nat) : Option (Nat × Bool × VFrame) :=
  (List.range 4).findSome? (fun j =>
    let e := d.engine j
    match e.coding with
    | some k => if k.frame.handle = h then some (k.session, true, k.frame) else waitingFrame h e.sessions
    | none => waitingFrame h e.sessions)
/-- Ends a waiting frame at once with a status; `coded` takes the frame being coded too. -/
def Dev.dropFrame (d : Dev) (h status : Nat) (coded : Bool) : Dev :=
  match d.frameOf h with
  | none => d
  | some (id, true, _) => if coded then d.dropCoding (id % 4) status else d
  | some (id, false, f) =>
    ((d.modSession id (fun v => { v with frames := v.frames.filter (fun g => g.handle != h) })).failFrame id f status).sessionIdle id

end Sys2Proof.Machine
end

