-- ==== Sys2Proof/Machine/Withdraw.lean ====
section
/-!
DEFINITION. Commands that end before their work does: what ABORT, TIMEOUT and a departure take back
(R342, R360, R361, R394 to R396).
-/

namespace Sys2Proof.Machine

/-- Takes a handle out of everything that would complete it, and withdraws what it has staged. -/
def Dev.forget (d : Dev) (p h : Nat) : Dev :=
  let d := d.unstage p h
  let d := (List.range 4).foldl (fun (d : Dev) q => match (d.part q).state with
    | .scrubbing (some g) del => if g = h then d.modPart q (fun x => { x with state := .scrubbing none del }) else d
    | _ => d) d
  let d := d.modPart p (fun x => { x.unask h with
    seqs := x.seqs.map (fun e => (e.1, if e.2.parkHandle = some h then { e.2 with parkHandle := none } else e.2))
    tick := { x.tick with next := x.tick.next.filter (fun e => e.1 != h) }
    pipes := x.pipes.map (fun e => (e.1, e.2.modRun (fun r => { r with stoppers := r.stoppers.filter (· != h) }))) })
  { d with engines := d.engines.map (fun e => (e.1, { e.2 with
      ends := e.2.ends.filter (fun y => y.frame.handle != h)
      sessions := e.2.sessions.map (fun y => (y.1, { y.2 with
        closing := if y.2.closing = some h then none else y.2.closing
        eosBy := if y.2.eosBy = some h then none else y.2.eosBy })) })) }

/-- Whether work of a running command goes on once its handle has ended: pages that migrate, sectors that are
written, a park or a resume that has begun, a decryption (R395, R396). -/
def Dev.goesOn (d : Dev) (h : Nat) (c : Cmd) : Bool :=
  c.phase == .running && (c.op == 0x10 || c.op == 0x12 || c.op == 0x30 || c.op == 0x50 || c.op == 0x51 || c.op == 0x92 ||
    (d.part c.part).seqs.any (fun e => e.2.parkHandle == some h))

/-- What an ended WEIGHTS_BIND leaves: its region zeroed (R395). -/
def Dev.unbind (d : Dev) (c : Cmd) : Dev :=
  if c.op = 0x30 ∧ c.phase = .running then
    match Tab.find (d.part c.part).regions (c.field 32 4) with
    | some r => d.zeroExtent c.part r.addr r.bytes
    | none => d
  else d

/-- Ends a command early with a status; what still runs for it is a late completion. -/
def Dev.cutShort (d : Dev) (h : Nat) (c : Cmd) (status r0 r1 : Nat) : Dev :=
  let on := d.goesOn h c
  let d := (d.forget c.part h).unbind c
  let d := if on then d.markLate h c.part else d
  d.complete h status r0 r1

/-- Ends a held SEQ_APPEND: the last one held on its sequence releases the hold (R222, R360). -/
def Dev.dropAppend (d : Dev) (h : Nat) (c : Cmd) (status : Nat) : Dev :=
  let id := c.field 28 4
  match (d.part c.part).seqOf id with
  | none => d.complete h status 0 0
  | some (slot, q) =>
    let d := d.complete h status q.tokens 0
    if (d.heldAppends c.part id).isEmpty then d.modPart c.part (fun x => x.endHold slot) else d

/-- Whether a command ends through its pipeline. -/
def Cmd.byUnit (c : Cmd) : Bool := c.phase == .running && (c.op == 0x23 || c.op == 0x70)

/-- Aborts a command at a boundary, if its handle is still of that generation. -/
def Dev.abortOne (d : Dev) (h gen : Nat) : Dev :=
  match d.cmd h with
  | none => d
  | some c =>
    if c.gen ≠ gen ∨ c.byUnit then d
    else if c.op = 0x41 ∧ c.phase = .running then d.dropAppend h c stAborted
    else if (d.frameOf h).isSome then d.dropFrame h stAborted true
    else d.cutShort h c stAborted 0 0

/-- The aborts that are due at the boundary that begins the current window, before its commit (R342, R360). -/
def Dev.abortDue (d : Dev) (p : Nat) : Dev :=
  let k := (d.part p).tick.index
  let due := (d.part p).staged.filterMap (fun i => match i with
    | .abortAt h gen w => if w < k then some (h, gen) else none
    | _ => none)
  let d := d.modPart p (fun x => { x with staged := x.staged.filter (fun i => match i with
    | .abortAt _ _ w => decide (k ≤ w)
    | _ => true) })
  due.foldl (fun (d : Dev) e => d.abortOne e.1 e.2) d

/-- Stages the abort of a command for the next boundary of its partition. -/
def Dev.abortLater (d : Dev) (h : Nat) (c : Cmd) : Dev :=
  d.modPart c.part (fun x => { x with staged := x.staged ++ [.abortAt h c.gen x.tick.index] })

/-- The pipeline that a PIPELINE_RUN or COLLECTIVE_LAUNCH runs. -/
def Part.runOf (x : Part) (h : Nat) : Option (Nat × Run) :=
  (x.pipes.find? (fun e => (e.2.run.bind (·.handle)) == some h)).bind (fun e => e.2.run.map (fun r => (e.1, r)))

/-- A run that is stopped during a stretch: its late stages issue nothing more, so that they are waited for only until what they
have issued has completed (R36). -/
def Dev.stopLate (d : Dev) (p slot : Nat) : Dev :=
  let x := d.part p
  let stages := if x.tick.inStretch then (x.tick.late.filter (fun l => l.slot == slot)).map (·.stage) else []
  match Tab.find x.pipes slot with
  | none => d
  | some y => (stages.flatMap (fun st => (y.stages[st]?).elim [] (·.cores))).foldl (fun (d : Dev) c => d.stopCore c) d

/-- Ends a run at the next boundary, as PIPELINE_STOP does (R41). -/
def Dev.stopRun (d : Dev) (p slot : Nat) : Dev :=
  (d.modPart p (fun x => x.modPipe slot (fun y => y.modRun (fun r => { r with stopAtBoundary := true })))).stopLate p slot

/-- Ends at the next boundary the run of a command. -/
def Dev.stopRunOf (d : Dev) (p h : Nat) : Dev :=
  match (d.part p).runOf h with
  | some (slot, _) => d.stopRun p slot
  | none => d

end Sys2Proof.Machine
end

