-- ==== Sys2Proof/Machine/Collective.lean ====
section
/-!
DEFINITION. Collective records (R293 to R298): their checks, the areas of each rank, and what a launched
collective leaves in them.
-/

namespace Sys2Proof.Machine

/-! ## The record (R293, R295) -/

/-- kind. -/
def coKind (o : Bytes) : Nat := fieldOf o 0 1
/-- ranks. -/
def coRanks (o : Bytes) : Nat := fieldOf o 3 1
/-- root. -/
def coRoot (o : Bytes) : Nat := fieldOf o 4 1
/-- in_place. -/
def coInPlace (o : Bytes) : Bool := bitOf (fieldOf o 5 1) 0
/-- The cores of core_mask, ascending. -/
def coCores (o : Bytes) : List Nat := (List.range 256).filter (fun c => bitOf (fieldOf o (32 + c / 8) 1) (c % 8))
/-- src of a rank. -/
def coSrc (o : Bytes) (r : Nat) : Nat := fieldOf o (64 + 8 * r) 8
/-- dst of a rank. -/
def coDst (o : Bytes) (r : Nat) : Nat := fieldOf o (96 + 8 * r) 8
/-- counts[i][j]. -/
def coCount (o : Bytes) (i j : Nat) : Nat := fieldOf o (128 + 32 * i + 8 * j) 8

/-- A sum over ranks. -/
def sumTo (n : Nat) (f : Nat → Nat) : Nat := ((List.range n).map f).foldl (· + ·) 0

/-- o_j: where chunk j begins. -/
def coOffset (o : Bytes) (j : Nat) : Nat := sumTo j (coCount o 0)
/-- The bytes of every chunk together. -/
def coTotal (o : Bytes) : Nat := coOffset o (coRanks o)

/-- The bytes of a rank's src area. -/
def coSrcBytes (o : Bytes) (r : Nat) : Nat :=
  match coKind o with
  | 1 => coCount o 0 r
  | 2 => coCount o 0 r
  | 3 => if r = coRoot o then coTotal o else 0
  | 4 => if r = coRoot o then coCount o 0 0 else 0
  | 5 => sumTo (coRanks o) (coCount o r)
  | _ => coTotal o

/-- The bytes of a rank's dst area. -/
def coDstBytes (o : Bytes) (r : Nat) : Nat :=
  match coKind o with
  | 1 => coTotal o
  | 2 => if r = coRoot o then coTotal o else 0
  | 3 => coCount o 0 r
  | 4 => coCount o 0 0
  | 5 => sumTo (coRanks o) (fun i => coCount o i r)
  | 6 => coCount o 0 r
  | 7 => coTotal o
  | _ => if r = coRoot o then coTotal o else 0

/-- Whether a kind uses an entry of counts. -/
def coUses (o : Bytes) (i j : Nat) : Bool :=
  match coKind o with
  | 4 => i == 0 && j == 0
  | 5 => decide (i < coRanks o) && decide (j < coRanks o)
  | _ => i == 0 && decide (j < coRanks o)

/-- Whether a kind gives a rank a src area (R295); a chunk of zero bytes leaves the area its own. -/
def coSends (o : Bytes) (r : Nat) : Bool :=
  decide (r < coRanks o) && (r == coRoot o || (coKind o != 3 && coKind o != 4))
/-- Whether a kind gives a rank a dst area. -/
def coGets (o : Bytes) (r : Nat) : Bool :=
  decide (r < coRanks o) && (r == coRoot o || (coKind o != 2 && coKind o != 8))

/-- The 16 entries of counts. -/
def coEntries : List (Nat × Nat) := (List.range 4).flatMap (fun i => (List.range 4).map (fun j => (i, j)))

/-- Whether a record's counts are all zero: it is empty. -/
def coEmpty (o : Bytes) : Bool := coEntries.all (fun e => coCount o e.1 e.2 == 0)

/-! ## The checks (R294) -/

/-- Whether two extents share a byte. -/
def extentsMeet (a n b m : Nat) : Bool := decide (0 < n) && decide (0 < m) && decide (a < b + m) && decide (b < a + n)

/-- The checks of a record, each row of the table one list in ascending offset. -/
def coChecks (x : Part) (o : Bytes) : List (List (Nat × Nat × Bool)) :=
  let k := coKind o
  let reduce := decide (6 ≤ k)
  let ranks := List.range (coRanks o)
  let all4 := List.range 4
  let dies := x.dieList
  [ [(0, stInvalid, k == 0 || decide (8 < k)), (1, stInvalid, if reduce then decide (2 < fieldOf o 1 1) else fieldOf o 1 1 != 0),
     (2, stInvalid, if reduce then decide (2 < fieldOf o 2 1) else fieldOf o 2 1 != 0),
     (5, stInvalid, decide (2 ≤ fieldOf o 5 1) || (coInPlace o && k != 7))] ++
      [(8, stInvalid, fieldOf o 8 24 != 0)],
    [(3, stCount, coRanks o != dies.length)],
    [(4, stBounds, decide (coRanks o ≤ coRoot o)), (6, stBounds, decide (248 < fieldOf o 6 2))],
    [(32, stPartition, (coCores o).any (fun c => !x.hasDie (dieOfCore c)))],
    [(32, stInvalid, dies.any (fun i => !((coCores o).any (fun c => dieOfCore c == i))))],
    coEntries.map (fun e => (128 + 32 * e.1 + 8 * e.2, stAlign, coCount o e.1 e.2 % 128 != 0)),
    all4.map (fun r => (64 + 8 * r, stInvalid, coSrc o r != 0 && !coSends o r)) ++
      all4.map (fun r => (96 + 8 * r, stInvalid, coDst o r != 0 && !coGets o r)) ++
      coEntries.map (fun e => (128 + 32 * e.1 + 8 * e.2, stInvalid, !coUses o e.1 e.2 && coCount o e.1 e.2 != 0)),
    ranks.map (fun r => (64 + 8 * r, stInvalid, coSrcBytes o r != 0 && wideAddr (coSrc o r))) ++
      ranks.map (fun r => (96 + 8 * r, stInvalid, coDstBytes o r != 0 && wideAddr (coDst o r))),
    ranks.map (fun r => (64 + 8 * r, stPartition, coSrcBytes o r != 0 && x.extent (coSrc o r) (coSrcBytes o r) == .outside)) ++
      ranks.map (fun r => (96 + 8 * r, stPartition, coDstBytes o r != 0 && x.extent (coDst o r) (coDstBytes o r) == .outside)),
    ranks.map (fun r => (96 + 8 * r, stInvalid, !coInPlace o && extentsMeet (coSrc o r) (coSrcBytes o r) (coDst o r) (coDstBytes o r))) ]

/-- The first failure of a record: status and offset. -/
def coFail (x : Part) (o : Bytes) : Option (Nat × Nat) := (coChecks x o).findSome? firstFail

/-! ## What it leaves (R295 to R298) -/

/-- Elements of a byte string. -/
def elemsOf (w : Nat) (bs : Bytes) : List Nat := (List.range (bs.length / w)).map (fun i => fieldOf bs (w * i) w)

/-- Bytes of an element of a type. -/
def coWidth (type : Nat) : Nat := if type = 2 then 2 else 4

/-- One step of a reduction: INT32 as integers, everything else in FP32 as vx.ew does (R92). -/
def coStep (type op a b : Nat) : Nat :=
  if type = 0 then usneaFn op 0 a b
  else match op with
    | 0 => add32 a b
    | 1 => r32 .near (vmax (d32 a) (d32 b))
    | _ => r32 .near (vmin (d32 a) (d32 b))

/-- A contribution's element as it travels: BF16 converted exactly to FP32. -/
def coWiden (type v : Nat) : Nat := if type = 2 then v * 2 ^ 16 else v
/-- A final value, rounded once to its type. -/
def coNarrow (type v : Nat) : Nat := if type = 2 then fBF16.round .near false fBF16.nanCode (d32 v) else v

/-- Chunk c of a reduction, summed in the order of the ring: from rank c + 1 round to rank c. -/
def coReduce (o : Bytes) (srcs : List Bytes) (c : Nat) : Bytes :=
  let p := coRanks o
  let type := fieldOf o 1 1
  let w := coWidth type
  let xs := (List.range p).map (fun i =>
    (elemsOf w (sliceOf (srcs.getD ((c + 1 + i) % p) []) (coOffset o c) (coCount o 0 c))).map (coWiden type))
  let sum := match xs with
    | [] => []
    | x :: rest => rest.foldl (fun acc y => (acc.zip y).map (fun (e : Nat × Nat) => coStep type (fieldOf o 2 1) e.1 e.2)) x
  sum.flatMap (fun v => natLE w (coNarrow type v))

/-- What lands in a rank's dst. -/
def coResult (o : Bytes) (srcs : List Bytes) (r : Nat) : Bytes :=
  let p := coRanks o
  let src := fun i => srcs.getD i []
  match coKind o with
  | 1 => (List.range p).flatMap src
  | 2 => if r = coRoot o then (List.range p).flatMap src else []
  | 3 => sliceOf (src (coRoot o)) (coOffset o r) (coCount o 0 r)
  | 4 => src (coRoot o)
  | 5 => (List.range p).flatMap (fun i => sliceOf (src i) (sumTo r (coCount o i)) (coCount o i r))
  | 6 => coReduce o srcs r
  | 7 => (List.range p).flatMap (coReduce o srcs)
  | _ => if r = coRoot o then (List.range p).flatMap (coReduce o srcs) else []

/-! ## Its way (R13, R296, R297) -/

/-- What each rank sends to each other over a link (R296, R297): from, to, bytes. A ring's partials travel as FP32 or INT32; its
final chunks in type. -/
def coMoves (o : Bytes) : List (Nat × Nat × Nat) :=
  let p := coRanks o
  let ranks := List.range p
  let root := coRoot o
  let n := coCount o 0
  let others := fun r => ranks.filter (· != r)
  let partials := ranks.map (fun r => (r, (r + 1) % p, (if fieldOf o 1 1 = 2 then 2 else 1) * ((others r).map n).foldl (· + ·) 0))
  match coKind o with
  | 1 => ranks.flatMap (fun i => (others i).map (fun j => (i, j, n i)))
  | 2 => (others root).map (fun i => (i, root, n i))
  | 3 => (others root).map (fun j => (root, j, n j))
  | 4 => (others root).map (fun j => (root, j, n 0))
  | 5 => ranks.flatMap (fun i => (others i).map (fun j => (i, j, coCount o i j)))
  | 6 => partials
  | 7 => partials ++ ranks.map (fun r => (r, (r + 1) % p, ((others ((r + 1) % p)).map n).foldl (· + ·) 0))
  | _ => partials ++ (others root).map (fun r => (r, root, n r))

/-- The die of a rank: the partition's dies in ascending order (R293). -/
def Part.rankDie (x : Part) (r : Nat) : Nat := x.dieList.getD r 0

/-- The areas of a collective, with the rank that reads or writes each. -/
def coSources (o : Bytes) : List (Nat × Nat × Nat) :=
  ((List.range (coRanks o)).map (fun r => (r, coSrc o r, coSrcBytes o r))).filter (fun e => e.2.2 != 0)
/-- The areas that it writes. -/
def coTargets (o : Bytes) : List (Nat × Nat × Nat) :=
  ((List.range (coRanks o)).map (fun r => (r, coDst o r, coDstBytes o r))).filter (fun e => e.2.2 != 0)

/-- The crossings of a collective: from die, to die, bytes. Each rank's cores read its src area and write its dst area, wherever
their pages lie. -/
def Part.coCrossings (x : Part) (o : Bytes) : List (Nat × Nat × Nat) :=
  ((coMoves o).filter (fun m => m.2.2 != 0)).map (fun m => (x.rankDie m.1, x.rankDie m.2.1, m.2.2)) ++
    (coSources o).flatMap (fun e => (x.extentDies e.2.1 e.2.2).map (fun y => (y.1, x.rankDie e.1, y.2))) ++
    (coTargets o).flatMap (fun e => (x.extentDies e.2.1 e.2.2).map (fun y => (x.rankDie e.1, y.1, y.2)))

/-- Who asks for the pages of a launched collective. -/
def coAsker (p slot : Nat) : Nat := 2 ^ 34 + 16 * p + slot

/-- How a launched collective stands: 0 ready, 1 to be waited for, 2 not to be reached. Its cold pages are asked for; links that
retrain and atoms that a base die holds are waited for (R245, R254, R267, R283, R284). -/
def Dev.coWay (d : Dev) (p slot : Nat) (o : Bytes) : Nat × Dev :=
  let x := d.part p
  let areas := coSources o ++ coTargets o
  let lack := (areas.flatMap (fun e => x.lacking (coAsker p slot) e.2.1 e.2.2)).dedup
  let way := ((x.coCrossings o).map (fun m => d.wayState m.1 m.2.1)).foldl max 0
  if x.denied.contains (coAsker p slot) || way == 2 then (2, d)
  else if !lack.isEmpty then (1, d.ask p (coAsker p slot) lack (x.rankDie 0))
  else if way = 1 || areas.any (fun e => d.extentHeld p e.2.1 e.2.2) || (coTargets o).any (fun e => d.staleExtent p e.2.1 e.2.2) then (1, d)
  else (0, d)

/-! ## Its end (R300) -/

/-- Reads the src areas of every rank; whether one of them is poisoned. -/
def Dev.coRead (d : Dev) (p : Nat) (o : Bytes) : List Bytes × Bool × Dev :=
  (List.range (coRanks o)).foldl (fun (acc : List Bytes × Bool × Dev) r =>
    let got := acc.2.2.devRead p (coSrc o r) (coSrcBytes o r) 1
    (acc.1 ++ [plain got.1], acc.2.1 || poisoned got.1, got.2)) ([], false, d)

/-- Free bytes in the part of an extent whose pages are in flash only. -/
def Part.spoilCold (x : Part) (a : Nat) (bs : Bytes) : Part :=
  (x.coldPages a bs.length).foldl (fun (x : Part) g => (List.range 16).foldl (fun (x : Part) i =>
    let base := g * 65536 + i * 4096
    let lo := max a base
    let hi := min (a + bs.length) (base + 4096)
    if hi ≤ lo then x
    else
      let r := Tab.getD x.sectors (g * 16 + i) Sector.blank
      { x with sectors := Tab.put x.sectors (g * 16 + i) { r with
        later := { r.content with data := Mem.write r.content.data (lo - base) ((bs.drop (lo - a)).take (hi - lo)) } :: r.later } }) x) x

/-- Leaves the dst areas of a collective with open contents (R300). -/
def Dev.coSpoil (d : Dev) (p : Nat) (o : Bytes) : Dev :=
  (coTargets o).foldl (fun (d : Dev) e =>
    let r := d.freeBytes e.2.2
    (r.2.devWrite p e.2.1 (good r.1) 1).modPart p (fun x => x.spoilCold e.2.1 r.1)) d

/-- The end of a launched collective that nothing stopped: its payload has crossed the links and the dst areas hold its result. The
first part is false where poison in a src area stops it. -/
def Dev.coFinish (d : Dev) (p slot : Nat) (o : Bytes) : Bool × Dev :=
  let d := ((d.part p).coCrossings o).foldl (fun (d : Dev) m => d.carried m.1 m.2.1 m.2.2) d
  let got := d.coRead p o
  let d := got.2.2.modPart p (fun x => x.unask (coAsker p slot))
  if got.2.1 then (false, d.coSpoil p o)
  else (true, (coTargets o).foldl (fun (d : Dev) e => d.devWrite p e.2.1 (good (coResult o got.1 e.1)) 1) d)

end Sys2Proof.Machine
end

