-- ==== Sys2Proof/Machine/Tiling.lean ====
section
/-!
DEFINITION. Tile maps (R153 to R158): the order codes, the claim map and the sub-tile map.
-/

namespace Sys2Proof.Machine

/-! ## The record (R155) -/

/-- M in sub-tiles. -/
def tiM (o : Bytes) : Nat := fieldOf o 0 4 / 128
/-- N in sub-tiles. -/
def tiN (o : Bytes) : Nat := fieldOf o 4 4 / 128
/-- super_m and super_n. -/
def tiSuper (o : Bytes) : Nat × Nat := (fieldOf o 12 2, fieldOf o 14 2)
/-- tile_m and tile_n. -/
def tiTile (o : Bytes) : Nat × Nat := (fieldOf o 16 1, fieldOf o 17 1)
/-- The order code of a level: 0 S, 1 C, 2 P. -/
def tiOrder (o : Bytes) (level : Nat) : Nat := fieldOf o (18 + level / 2) 1 / 16 ^ (level % 2) % 16
/-- The address of a level's explicit list. -/
def tiList (o : Bytes) (level : Nat) : Nat := fieldOf o (32 + 8 * level) 8
/-- The entries of a level's explicit list. -/
def tiCount (o : Bytes) (level : Nat) : Nat := fieldOf o (56 + 2 * level) 2
/-- claim_map. -/
def tiClaim (o : Bytes) : Nat := fieldOf o 20 4
/-- sub_map. -/
def tiSub (o : Bytes) : Nat := fieldOf o 24 4

/-- The grid of a level: super-tiles, the tiles of a full super-tile, the sub-tiles of a full tile (R157). -/
def tiGrid (o : Bytes) (level : Nat) : Nat × Nat :=
  match level with
  | 0 => (ceilDiv (tiM o) (tiSuper o).1, ceilDiv (tiN o) (tiSuper o).2)
  | 1 => ((tiSuper o).1 / (tiTile o).1, (tiSuper o).2 / (tiTile o).2)
  | _ => tiTile o

/-- The tiles of the stage's grid. -/
def tiTiles (o : Bytes) : Nat := ceilDiv (tiM o) (tiTile o).1 * ceilDiv (tiN o) (tiTile o).2

/-- Bytes of the claim map and of the sub-tile map, as they are placed (R158). -/
def claimBytes (o : Bytes) : Nat := roundUp (8 * tiTiles o) 128
/-- Bytes of the sub-tile map. -/
def subBytes (o : Bytes) : Nat := roundUp (4 * (tiTile o).1 * (tiTile o).2) 128

/-! ## Orders (R156) -/

/-- The side of the smallest square of a power of two that holds a grid: its exponent. -/
def squareLog (gm gn : Nat) : Nat := let g := max gm gn; if g ≤ 1 then 0 else (g - 1).log2 + 1

/-- The even bits of a number, brought together. -/
def evenBits : Nat → Nat → Nat
  | 0, _ => 0
  | k + 1, d => d % 2 + 2 * evenBits k (d / 4)

/-- One level of the Hilbert procedure: side done, index left, x, y. -/
def hilbertFuel : Nat → Nat → Nat → Nat → Nat → Nat × Nat
  | 0, _, _, x, y => (x, y)
  | k + 1, s, t, x, y =>
    let rx := t / 2 % 2
    let ry := (t + rx) % 2
    let q := if ry = 0 then (if rx = 1 then (s - 1 - y, s - 1 - x) else (y, x)) else (x, y)
    hilbertFuel k (2 * s) (t / 4) (q.1 + s * rx) (q.2 + s * ry)

/-- The point of a Hilbert index over a square of side 2^k: (m, n). -/
def hilbertPoint (k d : Nat) : Nat × Nat := let q := hilbertFuel k 1 d 0 0; (q.2, q.1)

/-- The points of a grid, m by m. -/
def rowMajor (gm gn : Nat) : List (Nat × Nat) := (List.range gm).flatMap (fun m => (List.range gn).map (fun n => (m, n)))

/-- The sequence in which a level visits its grid. -/
def visit (code gm gn : Nat) (list : List Nat) : List (Nat × Nat) :=
  let k := squareLog gm gn
  let inGrid := fun (q : Nat × Nat) => decide (q.1 < gm) && decide (q.2 < gn)
  match code with
  | 0 => rowMajor gm gn
  | 1 => (List.range gn).flatMap (fun n => (List.range gm).map (fun m => (m, n)))
  | 2 => (List.range gm).flatMap (fun m => (List.range gn).map (fun n => (m, if m % 2 = 1 then gn - 1 - n else n)))
  | 3 => ((List.range (4 ^ k)).map (fun d => (evenBits k (d / 2), evenBits k d))).filter inGrid
  | 4 => ((List.range (4 ^ k)).map (hilbertPoint k)).filter inGrid
  | _ => list.map (fun e => (e % 2 ^ 16, e / 2 ^ 16 % 2 ^ 16))

/-- The sequence of a level of a record, with the loader's copy of its list. -/
def Tiling.visits (t : Tiling) (level : Nat) : List (Nat × Nat) :=
  let g := tiGrid t.record level
  visit (tiOrder t.record level) g.1 g.2 (match level with
    | 0 => t.listS
    | 1 => t.listC
    | _ => t.listP)

/-! ## The maps (R158) -/

/-- The tiles of one super-tile in claim order; a tile beyond the grid is skipped. -/
def Tiling.tilesOf (t : Tiling) (s : (Nat × Nat) × Nat) : List Nat :=
  let o := t.record
  (t.visits 1).filterMap (fun q =>
    let m := s.1.1 * (tiSuper o).1 + q.1 * (tiTile o).1
    let n := s.1.2 * (tiSuper o).2 + q.2 * (tiTile o).2
    if m < tiM o ∧ n < tiN o then
      some (m + n * 2 ^ 16 + min (tiTile o).1 (tiM o - m) * 2 ^ 32 + min (tiTile o).2 (tiN o - n) * 2 ^ 40 + s.2 % 2 ^ 16 * 2 ^ 48)
    else none)

/-- The claim map. -/
def Tiling.claimMap (t : Tiling) : Bytes := ((t.visits 0).zipIdx.flatMap t.tilesOf).flatMap (natLE 8)

/-- The sub-tile map. -/
def Tiling.subMap (t : Tiling) : Bytes := (t.visits 2).flatMap (fun q => natLE 4 (q.1 + q.2 * 2 ^ 16))

end Sys2Proof.Machine
end

