-- ==== Sys2Proof/Machine/Boundary.lean ====
section
/-!
DEFINITION. The boundary of a partition: the instant, the stretch, the decision, the commit and the release
(R24 to R46, R128, R129, R132, R133, R167, R221), and the end of a run.
-/

namespace Sys2Proof.Machine

/-! ## Stages at a boundary -/

/-- The latest done stamp of some cores, when every one has reported on a path that works (R33). -/
def Dev.stageStamp (d : Dev) (cores : List Nat) : Option Nat :=
  cores.foldl (fun (acc : Option Nat) c =>
    let k := d.core c
    match acc, k.done with
    | some m, some t => if k.reported || d.donePath c then some (max m t) else none
    | _, _ => none) (some 0)

/-- Whether a run takes part in the window that ends: it has begun, has windows left and has not stopped. -/
def Run.live (r : Run) : Bool := r.started && !r.stopping && decide (r.done < r.count)

/-- The runs of a partition: slot, pipeline, run. -/
def Part.runs (x : Part) : List (Nat × Pipe × Run) :=
  x.pipes.filterMap (fun e => e.2.run.map (fun r => (e.1, e.2, r)))

/-- The stages that are late at a nominal boundary (R35). -/
def Dev.lateStages (d : Dev) (p nominal : Nat) : List Late :=
  (d.part p).runs.flatMap (fun e =>
    if e.2.2.live then
      (e.2.1.stages.zipIdx.filter (fun y => match d.stageStamp y.1.cores with
        | some t => decide (nominal ≤ t)
        | none => true)).map (fun y => ⟨e.1, y.2, none⟩)
    else [])

/-- The instant at which a late stage is done, or its pipeline has stopped, if that has come (R36). -/
def Dev.lateInstant (d : Dev) (p : Nat) (l : Late) : Option Nat :=
  match l.gone with
  | some g => some g.1
  | none => match (Tab.find (d.part p).pipes l.slot).bind (fun x => x.stages[l.stage]?) with
    | none => some 0
    | some y => d.stageStamp y.cores

/-- The latest of instants that have all come. -/
def allCome (ts : List (Option Nat)) : Option Nat :=
  ts.foldl (fun (acc : Option Nat) t => match acc, t with
    | some m, some t => some (max m t)
    | _, _ => none) (some 0)

/-- Changes a tick generator. -/
def Dev.modTick (d : Dev) (p : Nat) (f : Tick → Tick) : Dev := d.modPart p (fun x => { x with tick := f x.tick })

/-! ## The boundary instant (R28, R36) -/

/-- The nominal boundary of the current window. -/
def Tick.nominal (t : Tick) : Nat := t.start + t.par.period

/-- A boundary instant: window k+1 begins; its decision is to come (R34). -/
def Dev.beginBoundary (d : Dev) (p at_ : Nat) (late : List Late) : Dev :=
  let t := (d.part p).tick
  (d.reach (t.origin + at_)).modTick p (fun t => { t with
    index := t.index + 1
    start := at_
    inStretch := false
    boundary := some ⟨at_, at_ - t.nominal⟩
    late := late })

/-- The end of a stretch: the first multiple of 10 tc after the latest done stamp, at most the limit. -/
def Dev.endStretch (d : Dev) (p : Nat) : Dev :=
  let t := (d.part p).tick
  match allCome (t.late.map (d.lateInstant p)) with
  | none => d
  | some m => d.beginBoundary p (min ((m / 10 + 1) * 10) (t.nominal + t.par.stretch)) t.late

/-- The generator reaches its nominal boundary, or ends a stretch. -/
def Dev.tickBoundary (d : Dev) (p : Nat) : Dev :=
  let t := (d.part p).tick
  if (d.part p).layout.isNone || t.boundary.isSome || t.held.isSome then d
  else if t.inStretch then d.endStretch p
  else
    let d := d.reach (t.origin + t.nominal)
    let late := d.lateStages p t.nominal
    if t.par.policy = 0 ∧ !late.isEmpty then d.modTick p (fun t => { t with inStretch := true, late := late })
    else d.beginBoundary p t.nominal late

/-- The first boundary in the low-power state: the generator holds its counter (R409). -/
def Dev.holdTick (d : Dev) (p : Nat) : Dev :=
  let t := (d.part p).tick
  if (d.part p).layout.isNone || t.boundary.isSome || t.held.isSome then d
  else (d.reach (t.origin + t.nominal)).modTick p (fun t => { t with held := some t.nominal })

/-- TICK_BOUNDARY. -/
def execTickBoundary (p : Nat) (s : State) : Host.Outcome State Fault Refusal :=
  onUnit (decide (p < 4)) (whenUp s (fun d => if s.plat.lowPower then d.holdTick p else d.tickBoundary p))

/-- STRETCH_LIMIT: the boundary falls at t_k + P_k + max_stretch while some late stage is not done. -/
def execStretchLimit (p : Nat) (s : State) : Host.Outcome State Fault Refusal :=
  onUnit (decide (p < 4)) (whenUp s (fun d =>
    let t := (d.part p).tick
    let limit := t.nominal + t.par.stretch
    let waits := match allCome (t.late.map (d.lateInstant p)) with
      | some m => decide (limit ≤ m)
      | none => true
    if t.inStretch && t.boundary.isNone && waits then d.beginBoundary p limit t.late else d))

/-! ## Late stages (R35 to R40) -/

/-- The core that a stage's record speaks for: the first that is not done, else that of the latest done stamp,
the lowest on a tie. -/
def Dev.latestCore (d : Dev) (cores : List Nat) : Nat :=
  match cores.find? (fun c => (d.core c).done.isNone) with
  | some c => c
  | none => (leastBy (fun c => 2 ^ 64 - (d.core c).done.getD 0) cores).getD 0

/-- The cause columns of a core; a wait for a halo or for core DMA that has not ended counts up to now (R42, R100,
R199). -/
def Dev.causesOf (d : Dev) (c : Nat) : Causes :=
  let k := d.core c
  let wait := (k.window.filter (fun e => e.wait == .halo)).foldl (fun n e => n + (d.now - e.at_)) 0
  let stall := if k.window.any (fun e => e.isDma && k.heldBy e) then d.now - k.stalledFrom else 0
  { k.causes with halo := k.causes.halo + wait, stream := k.causes.stream + stall }

/-- The cause with the largest tc, in the order of the detail of OVERRUN; 0 for none. -/
def Causes.dominant (x : Causes) : Nat :=
  let cols := [x.escalation, x.stream, x.cold, x.link, x.halo, x.steal]
  (cols.zipIdx.foldl (fun (best : Nat × Nat) e => if best.1 < e.1 then (e.1, e.2 + 1) else best) (0, 0)).2

/-- Adds an OVERRUN record (R40, R133); with no free entry every running pipeline stops with NO_SPACE. -/
def Dev.overrun (d : Dev) (p slot st policy fallback cause lateness done stamp : Nat) : Dev :=
  let det := natLE 1 policy ++ natLE 1 fallback ++ natLE 1 cause ++ List.replicate 5 0 ++ natLE 8 lateness ++
    natLE 8 done ++ List.replicate 8 0
  let d := (d.ledgerCount p (kindCounter 4) 1).modTick p (fun t => { t with overrunSeen := true })
  if (d.part p).ledger.recs.length < ledgerSize then
    d.ledgerPut p ⟨stamp, none, 4, slot, st, 0xFFFF, 0, 0xFFFF, 0, det⟩
  else
    (d.part p).runs.foldl (fun (d : Dev) e =>
      (d.modPart p (fun x => x.modPipe e.1 (fun y => y.modRun (fun r => { r with stop := { r.stop with noSpace := true } })))).stopPipe
        p e.1) d

/-- Abandons a stage under SKIP (R37, R64, R85); a core that has stopped stays stopped. -/
def Dev.skipStage (d : Dev) (p slot st : Nat) (cores : List Nat) : Dev :=
  let d := d.modStage p slot st (fun r => { r with skipped := true })
  cores.foldl (fun (d : Dev) c =>
    if (d.core c).phase = .stopping then d
    else (d.modCore c (fun k => { k with phase := .skipping })).abandonWaits c stStale) d

/-- Stops a pipeline under FAULT (R38): counted once. -/
def Dev.faultStop (d : Dev) (p slot : Nat) : Dev :=
  match (Tab.find (d.part p).pipes slot).bind (·.run) with
  | none => d
  | some r =>
    if r.stop.overrun then d
    else
      let d := d.modPart p (fun x => x.modPipe slot (fun y => y.modRun (fun r => { r with stop := { r.stop with overrun := true } })))
      ((d.count p 19 1).modTick p (fun t => { t with faultStop := true })).stopPipe p slot

/-- The policy applied to a late stage at a boundary `at_`, with whether it is the fallback: STRETCH when the
stage was done before it. -/
def appliedPolicy (par : TickPar) (at_ : Nat) (stamp : Option Nat) : Nat × Nat :=
  let inTime := match stamp with
    | some t => decide (t < at_)
    | none => false
  if inTime then (0, 0)
  else if par.policy = 0 then (par.fallback, 1)
  else (par.policy, 0)

/-- What a decision finds of one late stage (R40): the policy applied and whether it is the fallback, the dominant
cause, and the done stamp or the instant that takes its place. -/
structure Verdict where
  late : Late
  policy : Nat
  fallback : Nat
  cause : Nat
  stamp : Option Nat
  deriving DecidableEq, Repr

/-- The verdict on a late stage; every late stage is judged before any policy takes effect. -/
def Dev.verdict (d : Dev) (p : Nat) (b : Boundary) (l : Late) : Verdict :=
  let par := (d.part p).tick.par
  match l.gone with
  | some g => let q := appliedPolicy par b.at_ (some g.1); ⟨l, q.1, q.2, g.2, some g.1⟩
  | none =>
    let cores := ((Tab.find (d.part p).pipes l.slot).bind (fun x => x.stages[l.stage]?)).elim [] (·.cores)
    let stamp := d.stageStamp cores
    let q := appliedPolicy par b.at_ stamp
    ⟨l, q.1, q.2, (d.causesOf (d.latestCore cores)).dominant, stamp⟩

/-- The record of a late stage and the effect of the policy on it (R37, R38, R40). -/
def Dev.lateOne (d : Dev) (p : Nat) (b : Boundary) (v : Verdict) : Dev :=
  let lateness := (v.stamp.map (fun t => t - (b.at_ - b.stretched))).getD (d.part p).tick.par.stretch
  let at_ := match v.stamp with
    | some t => if t < b.at_ then t else b.at_ - 1
    | none => b.at_ - 1
  let d := d.overrun p v.late.slot v.late.stage v.policy v.fallback v.cause lateness (v.stamp.getD ones64) at_
  match v.late.gone, (Tab.find (d.part p).pipes v.late.slot).bind (fun x => x.run.bind (fun _ => x.stages[v.late.stage]?)) with
  | none, some y => match v.policy with
    | 1 => d.skipStage p v.late.slot v.late.stage y.cores
    | 2 => d.faultStop p v.late.slot
    | _ => d
  | _, _ => d

/-! ## Stage timing records (R42, R399) -/

/-- The timing record of a stage for a window; `policy` is the one applied to it when it is late. -/
def Dev.timingOf (d : Dev) (window st : Nat) (r : Run) (y : Stage) (policy : Option Nat) : Timing :=
  let c := d.latestCore y.cores
  let stamp := d.stageStamp y.cores
  let x := r.stageOf st
  ⟨window, r.release, stamp.getD ones64, x.claimed, x.escalated, x.narrow, c,
    if policy.isNone then 0 else if stamp.isSome then 1 else 2, policy.getD 0xFF, d.causesOf c⟩

/-- Keeps a record, the last 64 of its stage. -/
def Pipe.keepTiming (x : Pipe) (st : Nat) (t : Timing) : Pipe :=
  let l := Tab.getD x.timings st [] ++ [t]
  { x with timings := Tab.put x.timings st (l.drop (l.length - 64)) }

/-- Keeps the records of a run's stages for a window, with the policy applied to each. -/
def Dev.keepRun (d : Dev) (p slot window : Nat) (x : Pipe) (r : Run) (policy : Nat → Option Nat) : Dev :=
  let ts := x.stages.zipIdx.map (fun y => (y.2, d.timingOf window y.2 r y.1 (policy y.2)))
  d.modPart p (fun z => z.modPipe slot (fun w => ts.foldl (fun w t => w.keepTiming t.1 t.2) w))

/-- Whether a run was released into the window that began at `start`. -/
def Run.ranFrom (r : Run) (start : Nat) : Bool := r.started && decide (r.done < r.count) && decide (start ≤ r.release)

/-- Where the window began that a boundary ends. -/
def Tick.ended (t : Tick) (b : Boundary) : Nat := b.at_ - b.stretched - t.par.period

/-- The policy that the verdicts of a boundary give a stage. -/
def policyIn (vs : List Verdict) (slot st : Nat) : Option Nat :=
  (vs.find? (fun v => v.late.slot == slot && v.late.stage == st)).map (·.policy)

/-- Keeps the records of every stage that ran in the window. -/
def Dev.keepTimings (d : Dev) (p : Nat) (b : Boundary) (vs : List Verdict) : Dev :=
  let t := (d.part p).tick
  (d.part p).runs.foldl (fun (d : Dev) e =>
    if e.2.2.ranFrom (t.ended b) then d.keepRun p e.1 (t.index - 1) e.2.1 e.2.2 (policyIn vs e.1) else d) d

/-- Keeps the records of a run that ends before the decision on its window. -/
def Dev.keepEnding (d : Dev) (p slot : Nat) (x : Pipe) (r : Run) : Dev :=
  let t := (d.part p).tick
  match t.boundary with
  | some b =>
    if r.ranFrom (t.ended b) then d.keepRun p slot (t.index - 1) x r (policyIn (t.late.map (d.verdict p b)) slot) else d
  | none =>
    let late := fun st => if t.inStretch && t.late.any (fun l => l.slot == slot && l.stage == st) then some 0 else none
    if r.ranFrom t.start then d.keepRun p slot t.index x r late else d

/-! ## Slot headers (R32, R39) -/

/-- The transfer space and place of the header of a buffer's slot in a window. -/
def Buf.headPlace (b : Buf) (window : Nat) : Nat × Nat := ((b.dataPlace window).1, (b.dataPlace window).2 - 128)

/-- Reads the flags byte of a slot header. -/
def Dev.headFlag (d : Dev) (p : Nat) (b : Buf) (window : Nat) : PBytes :=
  let q := b.headPlace window
  (d.readPlace p 0 q.1 (q.2 + 8) 1 0).1

/-- The flags of a slot header. -/
def Dev.headFlags (d : Dev) (p : Nat) (b : Buf) (window : Nat) : Nat := leNat (plain (d.headFlag p b window))

/-- Whether the header of a slot that a pipeline reads in a window is poisoned (R262). -/
def Dev.headLost (d : Dev) (p : Nat) (x : Pipe) (window : Nat) : Bool :=
  x.bufs.any (fun b => b.consumers.any (fun c => poisoned (d.headFlag p b (window + b.depth - c.2))))

/-- The flags of the slots a stage reads in a window: whether one is stale, whether one has quality (R39). -/
def Dev.inputFlags (d : Dev) (p : Nat) (x : Pipe) (st window : Nat) : Bool × Bool :=
  let fs := x.bufs.flatMap (fun b => (b.consumers.filter (fun c => c.1 == st)).map (fun c =>
    d.headFlags p b (window + b.depth - c.2)))
  (fs.any (fun f => bitOf f 1), fs.any (fun f => bitOf f 2))

/-- A slot header: its fields, and zeros to the end of its 128-byte line (R5, R32). -/
def slotHeader (window flags producer bytes : Nat) : Bytes :=
  natLE 8 window ++ natLE 1 flags ++ natLE 2 producer ++ List.replicate 5 0 ++ natLE 8 bytes ++ List.replicate 104 0

/-- Writes a slot header. -/
def Dev.putHeader (d : Dev) (p : Nat) (b : Buf) (window : Nat) (bs : Bytes) : Dev :=
  let q := b.headPlace window
  d.writePlace p 0 q.1 q.2 bs 0

/-- Writes the headers of a run's slots for the window that ends, and notes what they say of the run. -/
def Dev.headersOf (d : Dev) (p window slot : Nat) (x : Pipe) (r : Run) : Dev :=
  let marks := x.stages.zipIdx.map (fun y =>
    let i := d.inputFlags p x y.2 window
    let s := r.stageOf y.2
    (s.skipped || (!y.1.absorb && i.1), decide (0 < s.narrow) || i.2, s.skipped))
  let mark := fun i => marks.getD i (false, false, false)
  let d := x.bufs.zipIdx.foldl (fun (d : Dev) e =>
    let m := mark e.1.producer
    let bytes := if r.prologue then 0 else spanSum (Tab.getD r.written e.2 [])
    let d := d.putHeader p e.1 window (slotHeader window (1 + 2 * b2n m.1 + 4 * b2n m.2.1 + 8 * b2n m.2.2) e.1.producer bytes)
    d.count p 18 (b2n m.2.2)) d
  d.modPart p (fun y => y.modPipe slot (fun z => z.modRun (fun r => { r with
    stale := r.stale || marks.any (·.1)
    quality := r.quality || marks.any (·.2.1) })))

/-- Writes the headers of every run that takes part; one of whose input headers is poisoned stops with DEVICE_FAULT (R262). -/
def Dev.headers (d : Dev) (p window : Nat) : Dev :=
  (d.part p).runs.foldl (fun (d : Dev) e =>
    if !e.2.2.live then d
    else if d.headLost p e.2.1 window then (d.headersOf p window e.1 e.2.1 e.2.2).deviceStop p e.1
    else d.headersOf p window e.1 e.2.1 e.2.2) d

/-! ## The commit (R34, R129, R132, R141, R167, R221) -/

/-- Work counters, tile bits and budgets are zero again. -/
def Cluster.newWindow (x : Cluster) : Cluster := { x with work := [], bits := [], budget := [] }

/-- Closes a window in the ledger and in the event records: what is open and stamped before the boundary. -/
def Part.closeWindow (x : Part) (window at_ : Nat) : Part :=
  let rec_ := fun (r : LedgerRec) => if r.window.isNone && decide (r.stamp < at_) then { r with window := some window } else r
  { x with
    ledger := { x.ledger with recs := x.ledger.recs.map rec_, staged := x.ledger.staged.map rec_, held := x.ledger.held.map rec_ }
    events := { x.events with recs := x.events.recs.map (fun e =>
      if e.window.isNone && decide (e.stamp < at_) then { e with window := some window } else e) } }

/-- Makes the image a micro-program slot holds from now on current; one without steps empties the slot (R141). -/
def putMicro (t : Tab Bytes) (slot : Nat) (image : Bytes) : Tab Bytes :=
  if fieldOf image 1 1 = 0 then Tab.del t slot else Tab.put t slot image

/-- Makes the shadow copies current whose commands were DONE before the boundary (R93, R141). -/
def Part.swapMicro (x : Part) (at_ : Nat) : Part :=
  { x with
    micro := x.microNext.foldl (fun t e => (e.2.filter (fun i => decide (i.1 < at_))).foldl (fun t i => putMicro t e.1 i.2) t) x.micro
    microNext := (x.microNext.map (fun e => (e.1, e.2.filter (fun i => decide (at_ ≤ i.1))))).filter (fun e => !e.2.isEmpty) }

/-- The page tables at a commit: the steps of R221. -/
def Dev.commitPages (d : Dev) (p : Nat) : Dev :=
  let d := (((d.abortDue p).finishMoves p).applyStaged p).retryResumes p
  let old := d.oldestWalk p
  let back := (d.part p).released.filter (fun r => r.kind == 0 && r.due (d.part p).tick.index old && Tab.getD (d.part p).frames r.id 0 == 0)
  let d := back.foldl (fun (d : Dev) r => d.unkeepFrame p (r.id / 2 ^ 22) (r.id % 2 ^ 22)) d
  let d := d.modPart p (fun x => x.reclaim x.tick.index old)
  let d := ((d.assignHolds p).expireHolds p).retryAppends p
  d.modPart p (fun x => x.clearShared.showNodes)

/-- The TICK_SETs whose first window is this one (R26): their parameters hold, their commands complete. -/
def Dev.commitTickSets (d : Dev) (p at_ : Nat) : Dev :=
  let t := (d.part p).tick
  let due := fun (e : Nat × TickPar) => match d.cmd e.1 with
    | some c => decide (c.stamp + 800 ≤ at_)
    | none => true
  let d0 := d.modTick p (fun t => { t with next := t.next.filter (fun e => !due e) })
  (t.next.filter due).foldl (fun (d : Dev) e =>
    (d.modTick p (fun t => { t with par := e.2 })).complete e.1 stOK t.index 0) d0

/-- What is the same at every commit, whatever runs. -/
def Dev.commit (d : Dev) (p : Nat) (b : Boundary) : Dev :=
  let window := (d.part p).tick.index - 1
  let d := d.headers p window
  let d := (d.part p).clusterList.foldl (fun (d : Dev) cl => d.modCluster cl Cluster.newWindow) d
  let d := d.modPart p (fun x => (x.closeWindow window b.at_).swapMicro b.at_)
  (d.commitPages p).commitTickSets p b.at_

/-! ## The release (R34, R39, R46, R56, R57, R64) -/

/-- The hardware predicates of a window: p0, stale_in, prologue, first_window; the program's own kept. -/
def windowPreds (old : Nat) (stale prologue first : Bool) : Nat :=
  old / 256 * 256 + 1 + 2 * b2n stale + 4 * b2n prologue + 8 * b2n first

/-- A core enters a window: at its program counter, or at window_entry after a SKIP. One that has stopped with a fault
issues nothing more (R66). `now` is the module counter. -/
def Core.enter (k : Core) (skipped stale prologue first : Bool) (now : Nat) : Core :=
  { k with
    phase := if k.phase = .stopping then .stopping else if k.phase = .skipping ∧ !k.window.isEmpty then .skipping else .running
    pc := if skipped then k.windowEntry else k.pc
    preds := windowPreds k.preds stale prologue first
    done := none
    reported := false
    layerEnd := false
    stallFrom := now
    causes := Causes.reset }

/-- A core held at sync.tick in drain mode: it reports done without input (R46), once what a skipped window issued
has completed (R37, R62). It resumes at window_entry after a SKIP (R64). -/
def Core.holdAt (k : Core) (t : Nat) (skipped : Bool) : Core :=
  let k := { k with pc := if skipped then k.windowEntry else k.pc, layerEnd := false, causes := Causes.reset }
  if k.phase = .stopping then k
  else if k.window.isEmpty then { k with phase := .atTick, done := some t, reported := true }
  else { k with phase := .holding, done := none, reported := false }

/-- A core at the start of a run (R56, R194). -/
def Core.begin_ (k : Core) : Core :=
  { k with
    aregs := [], loops := [], preds := 1, pc := k.entry, groupCnt := [], usnea := [], climb := none, stealAt := [], fault := none
    streams := k.streams.map (fun e => (e.1, { e.2 with rate := 0, cursor := 0 })) }

/-- The windows after the one that follows the prologue in which a stage still finds no slot of the new layer: the
longest way of lags from a stage without input (R46). A buffer that leads back to an earlier stage does not count.
`fuel` bounds the stages on the way. -/
def Pipe.lagFrom (x : Pipe) : Nat → Nat → Nat
  | 0, _ => 0
  | fuel + 1, st =>
    x.bufs.foldl (fun n b => b.consumers.foldl (fun n c =>
      if c.1 = st ∧ b.producer < st then max n (x.lagFrom fuel b.producer + c.2) else n) n) 0

/-- How the stages of a run stand in drain mode at a release: which have reported layer end, whether the new window is
the prologue window, and for how many windows each is still held after one (R46). A stage has reported layer end as soon
as one of its cores has (DESIGN CHOICE, log 149). -/
structure Drain where
  ends : List Bool
  prologue : Bool
  holds : List Nat
  deriving DecidableEq, Repr

/-- The drain state of a run at its release. -/
def Dev.drainOf (d : Dev) (x : Pipe) (r : Run) : Drain :=
  let ends := x.stages.zipIdx.map (fun y => (r.stageOf y.2).layerEnd || y.1.cores.any (fun c => (d.core c).layerEnd))
  ⟨ends, x.drain && r.started && ends.all id && !ends.isEmpty,
   x.stages.zipIdx.map (fun y => if r.prologue then x.lagFrom x.stages.length y.2 else (r.stageOf y.2).holdFor)⟩

/-- Whether a stage is held in the window that is released. -/
def Drain.held (q : Drain) (st : Nat) : Bool := !q.prologue && (q.ends.getD st false || decide (0 < q.holds.getD st 0))

/-- Releases a run into the new window. -/
def Dev.releaseRun (d : Dev) (p slot : Nat) (x : Pipe) (r : Run) (t : Nat) : Dev :=
  let window := (d.part p).tick.index
  let first := !r.started
  let q := d.drainOf x r
  let d := x.stages.zipIdx.foldl (fun (d : Dev) y =>
    let stale := (d.inputFlags p x y.2 window).1
    let skipped := (r.stageOf y.2).skipped
    y.1.cores.foldl (fun (d : Dev) c => d.modCore c (fun k =>
      if x.drain && !first && q.held y.2 then k.holdAt t skipped
      else (if first then k.begin_ else k).enter skipped stale q.prologue first d.now)) d) d
  d.modPart p (fun y => y.modPipe slot (fun z => z.modRun (fun r => { r with
    started := true
    release := t
    prologue := q.prologue
    written := []
    stages := r.stages.zipIdx.map (fun e => { e.1 with
      issued := 0, issuedPrev := e.1.issued, claimed := 0, escalated := 0, narrow := 0, skipped := false
      holdFor := if q.prologue then 0 else q.holds.getD e.2 0 - 1
      layerEnd := !q.prologue && q.ends.getD e.2 false }) })))

/-- Where a core finds its information line (R159). -/
def infoPlace : Nat := 0x5FFF80

/-- The information line of a core (R159). -/
def infoLine (core rank count stage slot p : Nat) : Bytes :=
  natLE 4 core ++ natLE 4 rank ++ natLE 4 count ++ natLE 4 stage ++ natLE 4 slot ++ natLE 4 p ++ List.replicate 104 0

/-- Writes the information lines of a pipeline's cores. -/
def Dev.putInfo (d : Dev) (p slot : Nat) (x : Pipe) : Dev :=
  x.stages.zipIdx.foldl (fun (d : Dev) y => y.1.cores.zipIdx.foldl (fun (d : Dev) c =>
    d.modCore c.1 (fun k => { k with
      sp := Mem.write k.sp infoPlace (infoLine c.1 c.2 y.1.cores.length y.2 slot p) })) d) d

/-- Writes the tile maps of a pipeline's stages (R158). -/
def Dev.putMaps (d : Dev) (x : Pipe) : Dev :=
  x.stages.foldl (fun (d : Dev) y => match y.tiling with
    | some t => d.modCluster (clusterOfCore (y.cores.headD 0)) (fun z => { z with
        mem := Mem.write (Mem.write z.mem (tiClaim t.record) t.claimMap) (tiSub t.record) t.subMap })
    | none => d) d

/-- Prepares the memory of a run at its start: slot headers with valid = 0, credit counters 0, halo words
all-ones, information lines and tile maps (R38, R45, R158, R159, R163). -/
def Dev.prepareRun (d : Dev) (p slot : Nat) (x : Pipe) : Dev :=
  let d := (d.putInfo p slot x).putMaps x
  let d := x.bufs.foldl (fun (d : Dev) b =>
    let d := (List.range b.depth).foldl (fun d i => d.putHeader p b i (List.replicate 128 0)) d
    let cls := (b.consumers.flatMap (fun c => (x.stages[c.1]?).elim [] (fun y => y.cores.map clusterOfCore))).dedup
    cls.foldl (fun (d : Dev) cl => d.modCluster cl (fun y => { y with
      credit := Tab.put (Tab.put y.credit (2 * b.cidx) 0) (2 * b.cidx + 1) 0 })) d) d
  x.halos.foldl (fun (d : Dev) h =>
    ((x.stages[h.consumer]?).elim [] (·.cores)).foldl (fun (d : Dev) c =>
      d.modCluster (clusterOfCore c) (fun y => { y with
        mem := Mem.write y.mem (h.base + c % 8 * h.stride) (List.replicate 32 0xFF) })) d) d

/-- How what a launched collective still has to move stands; nothing else waits. -/
def Dev.pendingWay (d : Dev) (p slot : Nat) (x : Pipe) (r : Run) : Nat × Dev :=
  match x.launched && r.stop == ⟨none, false, false, false, false, false⟩ && !r.stale, x.colls with
  | true, o :: _ => d.coWay p slot o
  | _, _ => (0, d)

/-- One run at the end of a decision: its window counts, and it goes on, ends, or begins; a cluster whose control core
has failed takes no new work (R76). A run that stops before the decision, or at it under FAULT, does not count the
window that ends (DESIGN CHOICE, log 147), and a PIPELINE_STOP that comes before the decision ends the run at it
(DESIGN CHOICE, log 148). A launched collective whose transfers wait goes on for another window (R300). -/
def Dev.nextWindow (d : Dev) (p slot t : Nat) : Dev :=
  match (Tab.find (d.part p).pipes slot).bind (fun x => x.run.map (fun r => (x, r))) with
  | none => d
  | some (x, r) =>
    let window := (d.part p).tick.index - 1
    if r.stopping then d
    else if !r.started then
      if r.stopAtBoundary then
        (d.modPart p (fun y => y.modPipe slot (fun z => z.modRun (fun r => { r with stop := { r.stop with aborted := true } })))).stopPipe p slot
      else if x.cores.any (fun c => (d.cluster (clusterOfCore c)).failed) then d.deviceStop p slot
      else (d.prepareRun p slot x).releaseRun p slot x r t
    else if r.count ≤ r.done then d
    else
      let r := { r with done := r.done + 1, first := some (r.first.getD window), last := some window }
      let w := if r.count ≤ r.done then d.pendingWay p slot x r else (0, d)
      let r := if w.1 = 1 then { r with count := r.done + 1 } else r
      let d := w.2.modPart p (fun y => y.modPipe slot (fun z => { z with run := some r }))
      if r.count ≤ r.done then d
      else if r.stopAtBoundary then
        (d.modPart p (fun y => y.modPipe slot (fun z => z.modRun (fun r => { r with stop := { r.stop with aborted := true } })))).stopPipe p slot
      else d.releaseRun p slot x r t

/-- Stops the pipelines whose reports a failed hub can no longer deliver (R291). -/
def Dev.brokenPaths (d : Dev) (p : Nat) : Dev :=
  (d.part p).runs.foldl (fun (d : Dev) e =>
    if e.2.2.live && e.2.1.cores.any (fun c => !d.donePath c) then d.deviceStop p e.1 else d) d

/-- BOUNDARY_DECISION: at T+600 the policy for the late stages, the commit, and by T+800 the release. -/
def Dev.decideBoundary (d : Dev) (p : Nat) : Dev :=
  let t := (d.part p).tick
  match t.boundary with
  | none => d
  | some b =>
    let d := d.reach (t.origin + b.at_ + 600)
    let d := if b.stretched = 0 then d else (d.count p 16 1).count p 17 b.stretched
    let vs := t.late.map (d.verdict p b)
    let d := vs.foldl (fun (d : Dev) v => d.lateOne p b v) ((d.keepTimings p b vs).brokenPaths p)
    let d := d.commit p b
    let d := d.reach (t.origin + b.at_ + 800)
    let d := (Tab.keys (d.part p).pipes).foldl (fun (d : Dev) slot => d.nextWindow p slot (b.at_ + 800)) d
    d.modTick p (fun t => { t with boundary := none, late := [] })

/-- BOUNDARY_DECISION. -/
def execBoundaryDecision (p : Nat) (s : State) : Host.Outcome State Fault Refusal :=
  onUnit (decide (p < 4)) (whenUp s (fun d => d.decideBoundary p))

/-! ## The end of a run (R38, R41, R66, R300) -/

/-- The status of a run's DONE by the order of R41, or of R300 for a launched collective. -/
def Run.status (r : Run) (launched : Bool) : Nat :=
  match r.stop.fault with
  | some f => f.2.1
  | none =>
    if r.stop.device then stDeviceFault
    else if r.stop.noSpace then stNoSpace
    else if r.stop.timeout then stTimeout
    else if r.stop.overrun then stOverrun
    else if launched then
      (if r.stale then stStale else if r.stop.aborted then stAborted else stOK)
    else if r.stop.aborted then stAborted
    else if r.stale then stStale
    else if r.quality then stQuality
    else stOK

/-- Completes the command of a run: first and last window, and the fault's record (R41, R66, R355). -/
def Dev.completeRun (d : Dev) (h : Nat) (r : Run) (launched : Bool) : Dev :=
  let first := r.first.getD ones64
  let last := r.last.getD ones64
  match r.stop.fault with
  | some f => d.completeFault h f.2.1 f.2.2.word f.2.2.debugTag first (last % 2 ^ 56 + f.1 * 2 ^ 56)
  | none => d.complete h (r.status launched) first last

/-- Whether every core of a pipeline has let its issued operations complete. -/
def Dev.pipeIdle (d : Dev) (x : Pipe) : Bool := x.cores.all (fun c => (d.core c).window.isEmpty)

/-- What the end of a launched collective leaves in its dst areas: its result, or open contents when its status is not
OK; poison in a src area, or a link that is down, is a DEVICE_FAULT (R284, R295, R300). -/
def Dev.endCollective (d : Dev) (p slot : Nat) (x : Pipe) (r : Run) : Run × Dev :=
  match x.launched, x.colls with
  | true, o :: _ =>
    if r.status true = stOK then
      let e := if (d.coWay p slot o).1 = 2 then (false, (d.modPart p (fun x => x.unask (coAsker p slot))).coSpoil p o) else d.coFinish p slot o
      (if e.1 then r else { r with stop := { r.stop with device := true } }, e.2)
    else (r, (d.modPart p (fun x => x.unask (coAsker p slot))).coSpoil p o)
  | _, _ => (r, d)

/-- A late stage of a run that ends keeps what its OVERRUN record needs (R36, R40). -/
def Dev.lateGone (d : Dev) (p slot : Nat) (l : Late) : Late :=
  if l.slot ≠ slot ∨ l.gone.isSome then l
  else
    let cores := ((Tab.find (d.part p).pipes slot).bind (fun x => x.stages[l.stage]?)).elim [] (·.cores)
    { l with gone := some ((d.stageStamp cores).getD (d.tc p), (d.causesOf (d.latestCore cores)).dominant) }

/-- A core that its run leaves: free, what it holds stays (R79). -/
def Core.leaveRun (k : Core) : Core :=
  { k with
    phase := .idle, run := none, done := none, reported := false, layerEnd := false, climb := none, usnea := [], fault := none
    dmaQ := [] }

/-- A run ends: its cores are free, the pipeline is submitted again or leaves its slot, its commands complete. -/
def Dev.endRun (d : Dev) (p slot : Nat) (x : Pipe) (r : Run) : Dev :=
  let e := d.endCollective p slot x r
  let r := e.1
  let d := e.2.keepEnding p slot x r
  let d := d.modTick p (fun t => { t with late := t.late.map (d.lateGone p slot) })
  let d := x.cores.foldl (fun (d : Dev) c => d.modCore c Core.leaveRun) d
  let d := d.modPart p (fun y =>
    if r.removeAfter || x.launched then { y with pipes := Tab.del y.pipes slot }
    else y.modPipe slot (fun z => { z with run := none }))
  let d := match r.handle with
    | some h => d.completeRun h r x.launched
    | none => d
  r.stoppers.foldl (fun (d : Dev) h => d.complete h stOK 0 0) d

/-- Ends a run whose windows are empty, under a test. -/
def Dev.endRunWhen (d : Dev) (p slot : Nat) (test : Run → Bool) : Dev :=
  match (Tab.find (d.part p).pipes slot).bind (fun x => x.run.map (fun r => (x, r))) with
  | none => d
  | some (x, r) =>
    if !(test r && d.pipeIdle x) then d
    else
      let w := d.pendingWay p slot x r
      if w.1 = 1 then w.2 else if x.launched then d.ifAffords (d.endRun p slot x r) else d.endRun p slot x r

/-- RUN_WINDOW_COUNT_REACHED. -/
def execRunWindowCountReached (p slot : Nat) (s : State) : Host.Outcome State Fault Refusal :=
  onUnit (decide (p < 4)) (whenUp s (fun d => d.endRunWhen p slot (fun r => r.started && !r.stopping && decide (r.count ≤ r.done))))

/-- PIPELINE_STOP_DRAINED. -/
def execPipelineStopDrained (p slot : Nat) (s : State) : Host.Outcome State Fault Refusal :=
  onUnit (decide (p < 4)) (whenUp s (fun d => d.endRunWhen p slot (fun r => r.stopping)))

/-! ## Ledger staging (R73, R133) -/

/-- The operation that a record keeps waiting goes on once none of its records waits. -/
def Dev.ledgerGo (d : Dev) (p : Nat) (r : LedgerRec) : Dev :=
  let l := (d.part p).ledger
  if (l.staged ++ l.held).any (fun x => x.core == r.core && x.op == r.op) then d
  else match (d.core r.core).window.find? (fun e => e.wait == .ledger && e.id == r.op) with
    | some e => d.setWait r.core e.id .ready
    | none => d

/-- Staging without its oldest record: the oldest record held for the room it leaves comes in (R73). -/
def Ledger.unstage (l : Ledger) : Ledger :=
  let l := { l with staged := l.staged.drop 1 }
  match l.held.find? l.stagingRoom with
  | some r => { l with staged := l.staged ++ [r], held := l.held.erase r }
  | none => l

/-- LEDGER_STAGING_PLACE: the oldest staged record takes a free entry that is not reserved. -/
def execLedgerStagingPlace (p : Nat) (s : State) : Host.Outcome State Fault Refusal :=
  onUnit (decide (p < 4)) (whenUp s (fun d =>
    let l := (d.part p).ledger
    match l.staged with
    | [] => d
    | r :: _ =>
      if l.recs.length < ledgerSize - ledgerReserved then
        ((d.modPart p (fun x => { x with ledger := x.ledger.unstage })).ledgerPut p r).ledgerGo p r
      else d))

end Sys2Proof.Machine
end

