-- ==== Sys2Proof/Machine/Control.lean ====
section
/-!
DEFINITION. ctl. operations (R108): they execute at issue and take no window slot (R58).
-/

namespace Sys2Proof.Machine

/-- Reads a register id: 0x00 to 0x0F for a0 to a15, 0x10 to 0x17 for l0 to l7. -/
def Core.reg (k : Core) (r : Nat) : Nat := if r < 16 then Tab.getD k.aregs r 0 else Tab.getD k.loops (r - 16) 0

/-- Writes a register id, 32 bits. -/
def Core.setReg (k : Core) (r v : Nat) : Core :=
  if r < 16 then { k with aregs := Tab.put k.aregs r (v % 2 ^ 32) }
  else { k with loops := Tab.put k.loops (r - 16) (v % 2 ^ 32) }

/-- The second source: a register, or the immediate when its id is 0xFF. -/
def Core.src2 (k : Core) (w : Bytes) : Nat := if fieldOf w 18 1 = 0xFF then fieldOf w 20 4 else k.reg (fieldOf w 18 1)

/-- The functions of ctl.alu, modulo 2^32. -/
def aluFn (func a b : Nat) : Nat :=
  match func with
  | 0 => (a + b) % 2 ^ 32
  | 1 => (a + 2 ^ 32 - b % 2 ^ 32) % 2 ^ 32
  | 2 => Nat.land a b
  | 3 => Nat.lor a b
  | 4 => Nat.xor a b
  | 5 => a * 2 ^ (b % 32) % 2 ^ 32
  | 6 => a / 2 ^ (b % 32)
  | _ => a * b % 2 ^ 32

/-- The comparisons of ctl.cmp. -/
def cmpFn (cond a b : Nat) : Bool :=
  match cond with
  | 0 => a == b
  | 1 => a != b
  | 2 => decide (a < b)
  | 3 => decide (b ≤ a)
  | 4 => decide (signed 32 a < signed 32 b)
  | _ => decide (signed 32 b ≤ signed 32 a)

/-- The functions of ctl.pset. -/
def psetFn (func : Nat) (a b : Bool) : Bool :=
  match func with
  | 0 => true
  | 1 => false
  | 2 => a && b
  | 3 => a || b
  | 4 => a != b
  | _ => a && !b

/-- A ctl. word's effect on its core, the program counter moved past it first. -/
def ctlCore (op : Nat) (w : Bytes) (k0 : Core) : Core :=
  let k := k0.retire
  match op with
  | 1 => k.setReg (fieldOf w 16 1) (fieldOf w 20 4)
  | 2 => k.setReg (fieldOf w 16 1) (aluFn (fieldOf w 19 1) (k.reg (fieldOf w 17 1)) (k.src2 w))
  | 3 => k.storeCond w (cmpFn (fieldOf w 19 1) (k.reg (fieldOf w 17 1)) (k.src2 w))
  | 4 => k.storeCond w (psetFn (fieldOf w 19 1) (k.pred (bitsOf (fieldOf w 17 1) 4 0)) (k.pred (bitsOf (fieldOf w 18 1) 4 0)))
  | 5 => { k with pc := fieldOf w 16 2 }
  | 6 =>
    let r := 16 + bitsOf (fieldOf w 16 1) 2 0
    if k.reg r = 0 then k else { k.setReg r (k.reg r - 1) with pc := fieldOf w 18 2 }
  | 7 => (k.setReg (fieldOf w 16 1)
      (Mem.nat k.sp (spAt k.aregs (fieldOf w 20 4) + 4 * bitsOf (fieldOf w 24 1) 4 0) 4)).corrected (footOf k.aregs w).rd
  | 8 =>
    let m := Mem.putNat k.sp (spAt k.aregs (fieldOf w 20 4) + 4 * bitsOf (fieldOf w 24 1) 4 0) 4
      (k.reg (fieldOf w 17 1))
    { k with sp := m }
  | _ => k

/-- CTL_LI. -/
def execCtlLi (c : Nat) (s : State) : Host.Outcome State Fault Refusal :=
  issueOn c 12 1 s (fun w d => d.modCore c (ctlCore 1 w))

/-- CTL_ALU. -/
def execCtlAlu (c : Nat) (s : State) : Host.Outcome State Fault Refusal :=
  issueOn c 12 2 s (fun w d => d.modCore c (ctlCore 2 w))

/-- CTL_CMP. -/
def execCtlCmp (c : Nat) (s : State) : Host.Outcome State Fault Refusal :=
  issueOn c 12 3 s (fun w d => d.modCore c (ctlCore 3 w))

/-- CTL_PSET. -/
def execCtlPset (c : Nat) (s : State) : Host.Outcome State Fault Refusal :=
  issueOn c 12 4 s (fun w d => d.modCore c (ctlCore 4 w))

/-- CTL_BR. -/
def execCtlBr (c : Nat) (s : State) : Host.Outcome State Fault Refusal :=
  issueOn c 12 5 s (fun w d => d.modCore c (ctlCore 5 w))

/-- CTL_LOOP. -/
def execCtlLoop (c : Nat) (s : State) : Host.Outcome State Fault Refusal :=
  issueOn c 12 6 s (fun w d => d.modCore c (ctlCore 6 w))

/-- CTL_LDR. -/
def execCtlLdr (c : Nat) (s : State) : Host.Outcome State Fault Refusal :=
  issueOn c 12 7 s (fun w d => d.modCore c (ctlCore 7 w))

/-- CTL_STR. -/
def execCtlStr (c : Nat) (s : State) : Host.Outcome State Fault Refusal :=
  issueOn c 12 8 s (fun w d => d.modCore c (ctlCore 8 w))

/-- CTL_NOP. -/
def execCtlNop (c : Nat) (s : State) : Host.Outcome State Fault Refusal :=
  issueOn c 12 9 s (fun w d => d.modCore c (ctlCore 9 w))

/-- OPERATION_COMPLETE: the operation at a place of the core's window. -/
def execOperationComplete (c i : Nat) (s : State) : Host.Outcome State Fault Refusal :=
  onCore c s (fun d => d.opEnds c i)

end Sys2Proof.Machine
end

