-- ==== Sys2Proof/Machine/Counters.lean ====
section
/-!
DEFINITION. cnt. operations: work counters, tile bits and credit counters (R71, R101, R167 to R170).
-/

namespace Sys2Proof.Machine

/-- The cluster a cnt. word names (R101): its own, or die × 8 + cluster when remote. -/
def cntCluster (c : Nat) (w : Bytes) : Nat :=
  let p := fieldOf w 18 1
  if bitOf p 5 then bitsOf p 4 3 * 8 + bitsOf p 2 0 else clusterOfCore c

/-- The 8-byte word of the commit and duplicate bits that holds a tile's (R167). -/
def Cluster.bitWord (x : Cluster) (tile : Nat) : Nat :=
  (List.range 32).foldl (fun acc i => acc + Tab.getD x.bits (tile / 32 * 32 + i) 0 % 4 * 2 ^ (2 * i)) 0

/-- One cnt. operation at its cluster: the cluster after it, the old value, the condition (R101, R168). -/
def cntAtomic (op : Nat) (w : Bytes) (x : Cluster) : Cluster × Nat × Bool :=
  let i := fieldOf w 16 2
  let v := fieldOf w 24 8
  match op with
  | 1 =>
    let old := Tab.getD x.work i 0
    ({ x with work := Tab.put x.work i ((old + 1) % 2 ^ 64) }, old, decide (old < v))
  | 2 =>
    let old := Tab.getD x.work i 0
    ({ x with work := Tab.put x.work i ((old + v) % 2 ^ 64) }, old, false)
  | 3 =>
    let old := Tab.getD x.work i 0
    (if old = v then { x with work := Tab.put x.work i (fieldOf w 32 8) } else x, old, old == v)
  | 4 => (x, Tab.getD x.work i 0, false)
  | 5 =>
    let b := Tab.getD x.bits i 0 % 4
    (if b = 0 then { x with bits := Tab.put x.bits i 2 } else x, x.bitWord i, b == 0)
  | 6 =>
    let b := Tab.getD x.bits i 0 % 4
    (if b % 2 = 0 then { x with bits := Tab.put x.bits i (b + 1) } else x, x.bitWord i, b % 2 == 0)
  | _ =>
    let old := Tab.getD x.credit i 0
    ({ x with credit := Tab.put x.credit i ((old + v) % 2 ^ 64) }, old, false)

/-- A cnt. operation issued on a core: the atomic, the returned value, the operation in the window. Over a
link that is down it completes with DEVICE_FAULT (R284). -/
def Dev.cntOp (d : Dev) (c op : Nat) (w : Bytes) : Dev :=
  let cl := cntCluster c w
  if d.wayState (dieOfCore c) (cl / 8) = 2 then d.pushOp c w stDeviceFault false .ready
  else
    let r := cntAtomic op w (d.cluster cl)
    let d := d.setCluster cl r.1
    let d := if hasRef w 20 then
        d.modCore c (fun k => { k with sp := Mem.putNat k.sp (k.ref w 20) 8 r.2.1 }) else d
    d.pushOp c w stOK r.2.2 .ready

/-- Issues a cnt. word, unless the link to its cluster retrains, which holds it back (R283). -/
def issueCnt (c op : Nat) (s : State) (act : Bytes → Dev → Dev) : Host.Outcome State Fault Refusal :=
  issueOn c 7 op s (fun w d => if d.wayState (dieOfCore c) (cntCluster c w / 8) = 1 then d else act w d)

/-- Whether a cnt. operation reaches its cluster and its condition is true there. -/
def Dev.cntWon (d : Dev) (c op : Nat) (w : Bytes) : Bool :=
  d.wayState (dieOfCore c) (cntCluster c w / 8) != 2 && (cntAtomic op w (d.cluster (cntCluster c w))).2.2

/-- CNT_CLAIM (R167): a claim below the limit counts in the stage timing record. -/
def execCntClaim (c : Nat) (s : State) : Host.Outcome State Fault Refusal :=
  issueCnt c 1 s (fun w d =>
    let d := match (d.core c).run with
      | some (p, slot, st) => if d.cntWon c 1 w then d.modStage p slot st (fun r => { r with claimed := r.claimed + 1 }) else d
      | none => d
    d.cntOp c 1 w)

/-- CNT_ADD. -/
def execCntAdd (c : Nat) (s : State) : Host.Outcome State Fault Refusal :=
  issueCnt c 2 s (fun w d => d.cntOp c 2 w)

/-- CNT_CAS. -/
def execCntCas (c : Nat) (s : State) : Host.Outcome State Fault Refusal :=
  issueCnt c 3 s (fun w d => d.cntOp c 3 w)

/-- CNT_READ. -/
def execCntRead (c : Nat) (s : State) : Host.Outcome State Fault Refusal :=
  issueCnt c 4 s (fun w d => d.cntOp c 4 w)

/-- A tile among all clusters, as steals are noted (R169). -/
def stealKey (cl tile : Nat) : Nat := cl * 65536 + tile

/-- CNT_STEAL (R168); a successful steal starts steal_tc (R169). -/
def execCntSteal (c : Nat) (s : State) : Host.Outcome State Fault Refusal :=
  issueCnt c 5 s (fun w d =>
    let d := if d.cntWon c 5 w then
        d.modCore c (fun k => { k with stealAt := Tab.put k.stealAt (stealKey (cntCluster c w) (fieldOf w 16 2)) d.now })
      else d
    d.cntOp c 5 w)

/-- The cnt.commit of a stolen tile ends its steal_tc (R169). -/
def Core.stolen (k : Core) (key now : Nat) : Core :=
  match Tab.find k.stealAt key with
  | some t => { k with
      stealAt := Tab.del k.stealAt key
      causes := { k.causes with steal := k.causes.steal + (now - t) } }
  | none => k

/-- cnt.commit: a lost commit on a duplicated tile adds a DUP_LOST record (R101, R168, R170). -/
def Dev.cntCommit (d : Dev) (c : Nat) (w : Bytes) : Dev :=
  let k := d.core c
  let cl := cntCluster c w
  let tile := fieldOf w 16 2
  let lost := Tab.getD (d.cluster cl).bits tile 0 % 4 == 3 && d.wayState (dieOfCore c) (cl / 8) != 2
  let id := d.nextOp c
  let d := d.modCore c (fun k => k.stolen (stealKey cl tile) d.now)
  let d := d.cntOp c 6 w
  match lost, k.run with
  | true, some (p, _, _) =>
    let det := natLE 2 tile ++ natLE 1 (cl % 8 + 8 * (cl / 8)) ++ List.replicate 29 0
    let r := d.ledgerAdd p (d.opRecord c 5 k.pc id (opDebugTag w) det)
    if r.1 then r.2 else r.2.setWait c id .ledger
  | _, _ => d

/-- CNT_COMMIT. -/
def execCntCommit (c : Nat) (s : State) : Host.Outcome State Fault Refusal :=
  issueCnt c 6 s (fun w d => d.cntCommit c w)

/-- CNT_CREDIT (R45). -/
def execCntCredit (c : Nat) (s : State) : Host.Outcome State Fault Refusal :=
  issueCnt c 7 s (fun w d => d.cntOp c 7 w)

end Sys2Proof.Machine
end

