-- ==== Sys2Proof/Machine/Depart.lean ====
section
/-!
DEFINITION. Arrival and departure of functions (R332, R342 to R344, R408), and the scrub of a partition (R79,
R252, R345, R375).
-/

namespace Sys2Proof.Machine

/-! ## Functions and ports -/

/-- The port of a function (R366: port × 65 + VF number). -/
def portOf (f : Nat) : Nat := f / 65
/-- Functions a module can have (R332). -/
def fnCount : Nat := 260
/-- The admin function (R333). -/
def adminFn : Nat := Config.adminPort * 65
/-- Ports of a port configuration (R328). -/
def portsOf : Nat → Nat
  | 0 => 1
  | 1 => 2
  | 2 => 3
  | _ => 4
/-- The functions of a port. -/
def portFns (n : Nat) : List Nat := (List.range 65).map (· + 65 * n)

/-- The queue pairs of a function (R346). -/
def Dev.qpCount (d : Dev) (f : Nat) : Nat :=
  let own := match d.ownerOfFn f with
    | some p => (((d.part p).layout.map (·.functions)).getD []).foldl (fun n e => if e.1 = f then e.2 else n) 1
    | none => 1
  if f = adminFn then max own 64 else own

/-! ## Departure (R342) -/

/-- Step 1: every queue that is not DISABLED is QUIESCED; what was fetched from it is delivered no more. -/
def Dev.quiesceFn (d : Dev) (f : Nat) : Dev :=
  let d := d.modFn f (fun x => { x with qps := x.qps.map (fun e =>
    (e.1, if e.2.state = 0 then e.2 else { e.2 with state := 2, held := 0, stalled := false })) })
  { d with host := { d.host with live := d.host.live.map (fun e => (e.1, if e.2.fn = f then { e.2 with lost := true } else e.2)) } }

/-- Steps 2 and 3 for one command: it runs on to the next boundary and is aborted there. -/
def Dev.endInFlight (d : Dev) (h : Nat) (c : Cmd) : Dev :=
  if !c.owned then d.complete h stAborted 0 0
  else ((d.stopRunOf c.part h).dropFrame h stAborted false).abortLater h c

/-- Steps 1 to 4 for a function. -/
def Dev.endFunction (d : Dev) (f : Nat) : Dev :=
  let mine := d.host.live.filter (fun e => e.2.fn == f)
  mine.foldl (fun (d : Dev) e => match d.cmd e.1 with
    | some c => d.endInFlight e.1 c
    | none => d) (d.quiesceFn f)

/-- The partition of a function that has departed: departed itself once no function of it is attached (R343). -/
def Dev.partDeparts (d : Dev) (f : Nat) : Dev :=
  match d.ownerOfFn f with
  | none => d
  | some p =>
    let x := d.part p
    if x.state = .attached ∧ x.everAttached ∧ x.fnList.all (fun g => !(d.fn g).attached) then
      d.modPart p (fun x => { x with state := .departed (d.tc p) })
    else d

/-- The stamp of an event of a function: its partition's tick counter, else the module counter. -/
def Dev.fnStamp (d : Dev) (f : Nat) : Nat :=
  match d.ownerOfFn f with
  | some p => d.tc p
  | none => d.now

/-- A function departs: the record of R401, the end of its sessions (R383), its commands, its partition. -/
def Dev.departFn (d : Dev) (f cause : Nat) : Dev :=
  if !(d.fn f).attached && !(d.fn f).awaiting then d
  else
    let t := d.fnStamp f
    let d := d.modFn f (fun x => { x with
      attached := false, awaiting := false, cause := cause, dropped := 0, departAt := t, lastHandle := 0, ide := [], bar2Wait := [] })
    let d := match d.ownerOfFn f with
      | some p => d.modPart p (fun x => { x.unask (bar2Asker f) with sessions := x.sessions.filter (fun v => v.fn != f) })
      | none => d
    (d.endFunction f).partDeparts f

/-- The functions that exist on a port. -/
def Dev.presentOn (d : Dev) (n : Nat) : List Nat := (portFns n).filter (fun f => (d.fn f).present)

/-- Every function of a port departs. -/
def Dev.departPort (d : Dev) (n cause : Nat) : Dev := (d.presentOn n).foldl (fun d f => d.departFn f cause) d

/-- What a reset of a function returns to its reset value: its window, its latched halves, write_refused and its
MSI-X table. Its queue pairs stay as a departure leaves them. -/
def Dev.resetFn (d : Dev) (f : Nat) : Dev :=
  d.modFn f (fun x => { x with
    bar2Base := Fn.reset.bar2Base, bar2Log2 := Fn.reset.bar2Log2, latches := [], writeRefused := false, msix := [] })

/-! ## Arrival (R344) -/

/-- A host attaches to a function. In grace time the function waits for its session to be resumed, in a scrub
for the scrub's end. -/
def Dev.attachFn (d : Dev) (f : Nat) : Dev :=
  if !(d.fn f).present || (d.fn f).attached then d
  else match d.ownerOfFn f with
    | none => d.modFn f (fun x => { x with attached := true })
    | some p => match (d.part p).state with
      | .attached => (d.modFn f (fun x => { x with attached := true })).modPart p (fun x => { x with everAttached := true })
      | _ => d.modFn f (fun x => { x with awaiting := true })

/-- Every function of a port attaches. -/
def Dev.attachPort (d : Dev) (n : Nat) : Dev := (d.presentOn n).foldl (fun d f => d.attachFn f) d

/-- A resumed session reattaches its function: the partition leaves the departed state (R344). -/
def Dev.reattach (d : Dev) (f : Nat) : Dev :=
  match d.ownerOfFn f with
  | none => d
  | some p => (d.modFn f (fun x => { x with attached := true, awaiting := false })).modPart p (fun x => { x with state := .attached })

/-! ## The scrub (R345) -/

/-- The prefix key of an instance, from a drawn nonce (R374). -/
def Dev.prefixKey (d : Dev) (ep p inst : Nat) : Bytes × Dev :=
  let r := d.draw
  (Config.kmac256 Config.fuseSrk (natLE 1 p ++ natLE 4 inst ++ natLE 4 ep ++ natLE 32 r.1) 256 5, r.2)

/-- Everything of a partition that a scrub discards, its layout, tick and departure state kept; the generation
and the instance advance. -/
def Part.scrubbed (x : Part) (key : Bytes) : Part :=
  { Part.reset with
    layout := x.layout
    inst := x.inst + 1
    gen := (x.gen + 1) % 256
    pfxKey := key
    state := x.state
    everAttached := x.everAttached
    tick := { x.tick with next := [], late := [] }
    importCount := x.importCount
    keys := x.keys.map (fun e => (e.1, { e.2 with live := false, sealKey := false, key := [] })) }

/-- A core after zeroing; one that faulted stays so (R78, R79). -/
def Core.zeroed (k : Core) : Core := { Core.reset with faulted := k.faulted }
/-- A cluster after zeroing. -/
def Cluster.zeroed (x : Cluster) : Cluster :=
  { Cluster.reset with failed := x.failed, suspect := x.suspect, coreMap := x.coreMap, spare := x.spare }
/-- A stack after a scrub: DRAM zero, no line, every tag at the write generation. -/
def Stack.zeroed (st : Stack) : Stack := { st with dram := [], poison := [], lines := [], tags := [], conv := [], waiting := [], port := [], reply := none }

/-- Zeroes the cores, clusters and stacks of some dies (R79, R252). -/
def Dev.zeroDies (d : Dev) (dies : List Nat) : Dev :=
  dies.foldl (fun (d : Dev) i =>
    let d := (List.range 64).foldl (fun (d : Dev) c => d.modCore (64 * i + c) Core.zeroed) d
    let d := (List.range 8).foldl (fun (d : Dev) c => d.modCluster (8 * i + c) Cluster.zeroed) d
    (List.range 4).foldl (fun (d : Dev) t => d.modStack (4 * i + t) Stack.zeroed) d) d

/-- Closes every video session of a partition; a frame being coded goes with it. -/
def Engine.without (e : Engine) (p : Nat) : Engine :=
  let mine := fun id => (Tab.find e.sessions id).elim false (fun v => v.part == p)
  { e with
    coding := match e.coding with
      | some k => if mine k.session then none else some k
      | none => none
    seeds := match e.coding with
      | some k => if mine k.session then [] else e.seeds
      | none => []
    ends := e.ends.filter (fun y => y.part != p)
    sessions := e.sessions.filter (fun v => v.2.part != p)
    seen := Tab.del e.seen p }

/-- Starts the scrub of a partition for a PARTITION_SET, or at the end of its grace time; its live commands end
with ABORTED. -/
def Dev.scrub (d : Dev) (ep p : Nat) (h : Option Nat) (del : Bool) : Dev :=
  let mine := d.host.live.filter (fun e => e.2.part == p && e.2.owned && some e.1 != h)
  let d := mine.foldl (fun (d : Dev) e => d.complete e.1 stAborted 0 0) d
  let d := { d with engines := d.engines.map (fun (e : Nat × Engine) => (e.1, e.2.without p)) }
  let d := d.zeroDies (d.part p).dieList
  let d := (d.part p).fnList.foldl (fun (d : Dev) f => d.modFn f (fun x => { x with bar2Wait := [] })) d
  let d := { d with tlb := d.tlb.map (fun (e : Nat × List (Nat × Nat)) => (e.1, e.2.filter (fun y => y.1 != p))) }
  let r := d.prefixKey ep p ((d.part p).inst + 1)
  r.2.modPart p (fun x => { x.scrubbed r.1 with state := .scrubbing h del })

end Sys2Proof.Machine
end

