-- ==== Sys2Proof/Machine/Elementary.lean ====
section
/-!
DEFINITION. The built-in functions of the special-function unit (R135 to R140): an enclosure of the exact
value by integers over 2^400, the faithful result, the saturation points.
-/

namespace Sys2Proof.Machine

/-- The fixed point of the enclosures. -/
def ivP : Nat := 400

/-- An enclosure: integers over 2^400. -/
structure Iv where
  lo : Int
  hi : Int
  deriving DecidableEq, Repr

/-- The product of two enclosures of non-negative values. -/
def Iv.mul (a b : Iv) : Iv := ⟨a.lo * b.lo / 2 ^ ivP, a.hi * b.hi / 2 ^ ivP + 1⟩

/-- The quotient of two enclosures of positive values. -/
def Iv.div (a b : Iv) : Iv := ⟨a.lo * 2 ^ ivP / b.hi, a.hi * 2 ^ ivP / b.lo + 1⟩

/-- The number one. -/
def ivOne : Iv := ⟨2 ^ ivP, 2 ^ ivP⟩

/-- Σ y^i ÷ i! from term `i` on, y in [0, 1/4]: the rest after the last term is below that term. -/
def expTerms : Nat → Nat → Iv → Iv → Iv → Iv
  | 0, _, _, term, acc => ⟨acc.lo, acc.hi + term.hi + 1⟩
  | fuel + 1, i, y, term, acc =>
    let t := term.mul y
    let t : Iv := ⟨t.lo / (i : Int), t.hi / (i : Int) + 1⟩
    expTerms fuel (i + 1) y t ⟨acc.lo + t.lo, acc.hi + t.hi⟩

/-- Squares an enclosure a number of times. -/
def ivSquare : Nat → Iv → Iv
  | 0, a => a
  | n + 1, a => ivSquare n (a.mul a)

/-- e^x for an enclosure of a non-negative x below 512. -/
def ivExp (x : Iv) : Iv :=
  let y : Iv := ⟨x.lo / 2 ^ 12, x.hi / 2 ^ 12 + 1⟩
  ivSquare 12 (expTerms 80 1 y ivOne ivOne)

/-- Σ 2 ÷ ((2i + 1) 3^(2i + 1)): the natural logarithm of 2. -/
def ivLn2 : Iv :=
  let s := (List.range 140).foldl
    (fun (s : Int × Int) i =>
      let den : Int := ((2 * i + 1) * 3 ^ (2 * i + 1) : Nat)
      (s.1 + 2 * 2 ^ ivP / den, s.2 + 2 * 2 ^ ivP / den + 1)) (0, 0)
  ⟨s.1, s.2 + 1⟩

/-- A non-negative dyadic number as an integer over 2^400, for exponents not below −400. -/
def fixed (m : Nat) (e : Int) : Int := (m : Int) * 2 ^ (e + ivP).toNat

/-- e^|u| for u = m 2^e. -/
def ivExpOf (m : Nat) (e : Int) : Iv := let x := fixed m e; ivExp ⟨x, x⟩

/-- An enclosure of f(u) for a finite u that is no exact case and lies in the range where f is neither at
a limit nor in R135's small-argument rule. Functions: 0 tanh (u > 0), 1 logistic, 2 exp, 3 exp2. -/
def ivBuiltin (func : Nat) (neg : Bool) (m : Nat) (e : Int) : Iv :=
  match func with
  | 0 =>
    let y := ivExpOf m (e + 1)
    Iv.div ⟨y.lo - 2 ^ ivP, y.hi - 2 ^ ivP⟩ ⟨y.lo + 2 ^ ivP, y.hi + 2 ^ ivP⟩
  | 1 =>
    let y := ivExpOf m e
    let den : Iv := ⟨y.lo + 2 ^ ivP, y.hi + 2 ^ ivP⟩
    if neg then ivOne.div den else y.div den
  | 2 =>
    let y := ivExpOf m e
    if neg then ivOne.div y else y
  | _ =>
    let n := floorVal neg m e
    let x := (if neg then -(fixed m e) else fixed m e) - n * 2 ^ ivP
    let y := ivExp (Iv.mul ⟨x, x⟩ ivLn2)
    if 0 ≤ n then ⟨y.lo * 2 ^ n.toNat, y.hi * 2 ^ n.toNat⟩
    else ⟨y.lo / 2 ^ (-n).toNat, y.hi / 2 ^ (-n).toNat + 1⟩

/-- Whether a finite u lies where f is past every format's saturation point (R139): the limit reached. -/
def farOut (func : Nat) (neg : Bool) (m : Nat) (e : Int) : Bool :=
  let a := Val.fin false m e
  let cut : Nat := match func with
    | 0 => 16
    | 1 => if neg then 105 else 18
    | 2 => if neg then 105 else 90
    | _ => if neg then 151 else 129
  (vNat cut).le a

/-- The limit above, as a code of the format: 1, or +∞ (448 in E4M3) (R138). -/
def upperLimit (func : Nat) (ff : FFmt) : Nat :=
  if func ≤ 1 then ff.round .near true 0 (vNat 1) else ff.round .near false 0 (.inf false)

/-- The lower end of an enclosure as a number. -/
def Iv.val (x : Iv) : Val := .fin false x.lo.toNat (-(ivP : Int))

/-- Rounds an enclosed positive value faithfully, the saturation rule of R139 applied: between the two neighbours a break that
the unit fixes decides, by the argument `at_`. -/
def faithful (func : Nat) (ff : FFmt) (at_ : Val) (x : Iv) : Nat :=
  let near := ff.round .near false 0 x.val
  let up := upperLimit func ff
  let isLimit := fun c => c == up || (func != 0 && c == 0)
  if isLimit near then near
  else
    let c0 := ff.round .down false 0 x.val
    let c1 := ff.round .up false 0 x.val
    let pick := if (d32 (Config.faithfulBreak func (ff.width * 16 + ff.eb) c0)).le at_ then c1 else c0
    if isLimit pick then (if isLimit c0 then c1 else c0) else pick

/-- The v of exp for |u| = m 2^e in units of 2^-40: u·log2 e, exact, rounded to 40 fraction bits (R135). -/
def expV (m : Nat) (e : Int) : Nat := (fixed m e * 2 ^ 41 / ivLn2.lo + 1).toNat / 2

/-- e^u, u the magnitude of a code with a sign. -/
def expAt (neg : Bool) (code : Nat) : Iv :=
  match d32 code with
  | .fin _ m e => if m = 0 then ivOne else ivBuiltin 2 neg m e
  | _ => ivOne

/-- The least and the greatest FP32 magnitudes whose v is `v`. -/
def expShared (v : Nat) : Nat × Nat :=
  let edge := fun (k : Nat) => Val.fin false (k * ivLn2.lo.toNat) (-441)
  (r32 .up (edge (2 * v - 1)), r32 .down (edge (2 * v + 1)))

/-- exp, which is a function of v: arguments u with one v have one result (R135, R136), and v = 0 has 1. Where some of them lie
on either side of a number of the format, that number is the only faithful result of all; from 2^-14 on no two FP32 u
have one v. -/
def expOf (ff : FFmt) (neg : Bool) (m : Nat) (e : Int) : Nat :=
  let v := expV m e
  let one := faithful 2 ff (.fin neg v (-40)) (ivBuiltin 2 neg m e)
  if v = 0 then ff.round .near false 0 (vNat 1)
  else if (Val.fin false 1 (-14)).le (.fin false m e) then one
  else
    let s := expShared v
    let least := ff.round .down false 0 (expAt neg s.1).val
    let most := ff.round .down false 0 (expAt neg s.2).val
    if least = most then one else max least most

/-- What the functions with a small-argument rule give next to its seam at 2^-12, and beyond it never fall behind (R135, R137):
tanh below the seam, logistic on its two sides. -/
def seamOf (func : Nat) (ff : FFmt) (neg : Bool) : Nat :=
  let m := 2 ^ 24 - 1
  if func = 0 then ff.round .near false 0 (.fin false m (-36))
  else ff.round .near false 0 (Val.add .near (.fin neg m (-38)) (.fin false 1 (-1)))

/-- A built-in function on an FP32 argument, in a format (R135 to R140). -/
def builtin (func : Nat) (ff : FFmt) (u : Nat) : Nat :=
  match d32 u with
  | .nan => ff.canonNan
  | .inf neg =>
    if func = 0 then ff.round .near true 0 (.fin neg 1 0)
    else if neg then 0 else upperLimit func ff
  | .fin neg m e =>
    let small := (Val.fin false m e).lt (.fin false 1 (-12))
    if func = 0 ∧ small then ff.round .near false 0 (.fin neg m e)
    else if func = 1 ∧ small then ff.round .near false 0 (Val.add .near (.fin neg m (e - 2)) (.fin false 1 (-1)))
    else if m = 0 then ff.round .near false 0 (vNat 1)
    else if farOut func neg m e then
      (if func = 0 then ff.signBit neg + upperLimit 0 ff else if neg then 0 else upperLimit func ff)
    else if func = 3 ∧ (Val.fin neg m e).le (vInt (floorVal neg m e)) then
      ff.round .near false 0 (.fin false 1 (floorVal neg m e))
    else match func with
    | 0 => ff.signBit neg + max (seamOf 0 ff false) (faithful 0 ff (.fin false m e) (ivBuiltin 0 neg m e))
    | 1 =>
      let c := faithful 1 ff (.fin neg m e) (ivBuiltin 1 neg m e)
      if neg then min (seamOf 1 ff true) c else max (seamOf 1 ff false) c
    | 2 => expOf ff neg m e
    | _ => faithful func ff (.fin neg m e) (ivBuiltin func neg m e)

end Sys2Proof.Machine
end

