-- ==== Sys2Proof/Machine/Shipped.lean ====
section
/-!
DEFINITION. The shipped micro-programs (R145, R146): their images as far as R144 and the table fix them, and the results that
the table's special values, bounds, monotonicity and saturation points allow. Enclosures are integers over 2^400.
-/

namespace Sys2Proof.Machine

/-! ## The images -/

/-- Step counts of the shipped micro-programs (R146). -/
def shippedSteps (i : Nat) : Nat := [6, 5, 5, 6, 7, 9, 9, 6, 6, 8, 8].getD i 0

/-- A part of a shipped image that R146 leaves open, of a length. -/
def shippedPart (i from_ n : Nat) : Bytes :=
  (((Config.shippedImage i).drop from_).take n) ++ List.replicate (n - ((Config.shippedImage i).drop from_).length) 0

/-- The image of a shipped micro-program: format 1, its step count, its identity, its steps and its table, the rest zero
(R144, R146). -/
def shippedImage (i : Nat) : Bytes :=
  let n := shippedSteps i
  natLE 1 1 ++ natLE 1 n ++ List.replicate 6 0 ++ shippedPart i 0 4 ++ List.replicate 52 0 ++ shippedPart i 4 (16 * n) ++
    List.replicate (16 * (32 - n) + 448) 0 ++ shippedPart i 516 7168

/-! ## Enclosures of the functions -/

/-- A real number: its sign, and an enclosure of its magnitude. -/
structure Encl where
  neg : Bool
  mag : Iv
  deriving DecidableEq, Repr

/-- The number between two integers over 2^400 of one sign. -/
def Encl.of (lo hi : Int) : Encl := if lo < 0 then ⟨true, ⟨-hi, -lo⟩⟩ else ⟨false, ⟨lo, hi⟩⟩

/-- Σ z^i ÷ i over odd i from `i` on, `power` being z^i and z² at most 1/9. -/
def atanhTerms : Nat → Nat → Iv → Iv → Iv → Iv
  | 0, _, _, power, acc => ⟨acc.lo, acc.hi + power.hi + 1⟩
  | fuel + 1, i, zz, power, acc =>
    atanhTerms fuel (i + 2) zz (power.mul zz) ⟨acc.lo + power.lo / (i : Int), acc.hi + power.hi / (i : Int) + 1⟩

/-- ln((1 + z) ÷ (1 − z)) for z in [0, 1/3]. -/
def ivAtanh2 (z : Iv) : Iv :=
  let s := atanhTerms 130 1 (z.mul z) z ⟨0, 0⟩
  ⟨2 * s.lo, 2 * s.hi⟩

/-- The exponent of a positive number and the logarithm of its significand in [1, 2). -/
def ivLn (m : Nat) (e : Int) : Int × Iv :=
  let x := floorLog2 m e
  let n := fixed m (e - x)
  (x, ivAtanh2 (Iv.div ⟨n - 2 ^ ivP, n - 2 ^ ivP⟩ ⟨n + 2 ^ ivP, n + 2 ^ ivP⟩))

/-- The natural logarithm of a positive number. -/
def enclLog (m : Nat) (e : Int) : Encl :=
  let r := ivLn m e
  let lo := if 0 ≤ r.1 then ivLn2.lo else ivLn2.hi
  let hi := if 0 ≤ r.1 then ivLn2.hi else ivLn2.lo
  Encl.of (r.1 * lo + r.2.lo) (r.1 * hi + r.2.hi)

/-- The logarithm to base 2 of a positive number, exact at the powers of two. -/
def enclLog2 (m : Nat) (e : Int) : Encl :=
  let x := floorLog2 m e
  if m = 2 ^ m.log2 then Encl.of (x * 2 ^ ivP) (x * 2 ^ ivP)
  else
    let r := Iv.div (ivLn m e).2 ivLn2
    Encl.of (x * 2 ^ ivP + r.lo) (x * 2 ^ ivP + r.hi)

/-- An enclosure of the number n ÷ d. -/
def ivRatio (n d : Nat) : Iv := ⟨((n / d : Nat) : Int), ((n / d + b2n (n % d != 0) : Nat) : Int)⟩

/-- An enclosure of √(n ÷ d), n over 2^800. -/
def ivSqrt (n d : Nat) : Iv :=
  let r := (n / d).sqrt
  ⟨(r : Int), ((r + b2n (r * r * d != n) : Nat) : Int)⟩

/-- 1 ÷ (m 2^e). -/
def ivRecip (m : Nat) (e : Int) : Iv := ivRatio (2 ^ (ivP - e).toNat) m

/-- 1 ÷ √(m 2^e). -/
def ivRsqrt (m : Nat) (e : Int) : Iv := ivSqrt (2 ^ (2 * ivP - e).toNat) m

/-- Σ (−1)^i ÷ ((2i + 1) n^(2i + 1)): the arc tangent of 1 ÷ n, within 400 units. -/
def atanInv (n : Nat) : Int :=
  ((List.range 200).map (fun i =>
    let t : Int := 2 ^ ivP / ((2 * i + 1) * n ^ (2 * i + 1) : Nat)
    if i % 2 = 0 then t else -t)).foldl (· + ·) 0

/-- π. -/
def ivPi : Iv := let s := 16 * atanInv 5 - 4 * atanInv 239; ⟨s - 8000, s + 8000⟩

/-- √(n ÷ π). -/
def ivRootOver (n : Nat) : Iv := ⟨(ivSqrt (n * 2 ^ 1200) ivPi.hi.toNat).lo, (ivSqrt (n * 2 ^ 1200) ivPi.lo.toNat).hi⟩

/-- Σ 2^i x^(2i + 1) ÷ (1·3·…·(2i + 1)): `d` is the next odd divisor, `xx` is 2x². The rest is below the last term. -/
def erfTerms : Nat → Nat → Iv → Iv → Iv → Iv
  | 0, _, _, term, acc => ⟨acc.lo, acc.hi + term.hi + 1⟩
  | fuel + 1, d, xx, term, acc =>
    let t := term.mul xx
    let t : Iv := ⟨t.lo / (d : Int), t.hi / (d : Int) + 1⟩
    erfTerms fuel (d + 2) xx t ⟨acc.lo + t.lo, acc.hi + t.hi⟩

/-- erf(x) for x in [0, 12). -/
def ivErf (x : Iv) : Iv :=
  let xx := x.mul x
  let s := erfTerms 700 3 ⟨2 * xx.lo, 2 * xx.hi⟩ x x
  ((ivRootOver 4).mul s).mul (ivOne.div (ivExp xx))

/-- A number just below a magnitude that no format tells from it. -/
def ivBelow (x : Int) : Iv := ⟨x - 1, x⟩
/-- A magnitude just above 0. -/
def ivTiny : Iv := ⟨0, 2 ^ 230⟩

/-- a·y ÷ (1 + y), or for a negative argument the magnitude a ÷ (1 + y). -/
def ivGate (neg : Bool) (a y : Iv) : Iv :=
  let den : Iv := ⟨y.lo + 2 ^ ivP, y.hi + 2 ^ ivP⟩
  (if neg then a else a.mul y).div den

/-- ln(1 + e^−a). -/
def ivSoft (a : Iv) : Iv :=
  let y := ivOne.div (ivExp a)
  ivAtanh2 (y.div ⟨y.lo + 2 ^ (ivP + 1), y.hi + 2 ^ (ivP + 1)⟩)

/-- Σ (−1)^i r^(2i + k) ÷ (2i + k)! for r in [0, 2], within 2^20 units: the cosine for k = 0, the sine for k = 1. -/
def circTerms : Nat → Nat → Int → Int → Int → Int
  | 0, _, _, _, acc => acc
  | fuel + 1, i, rr, term, acc =>
    let t := -(term * rr / 2 ^ ivP) / ((i + 1) * (i + 2) : Nat)
    circTerms fuel (i + 2) rr t (acc + t)

/-- The sine (`k` = 1) or the cosine (`k` = 0) of a magnitude m 2^e of at most 2^21. -/
def enclCirc (k m : Nat) (e : Int) : Encl :=
  let x := fixed m e
  let half := (ivPi.lo + ivPi.hi) / 4
  let n := (x / half).toNat
  let r := x - n * half
  let rr := r * r / 2 ^ ivP
  let quad := if k = 1 then n % 4 else (n + 1) % 4
  let v := if quad % 2 = 1 then circTerms 100 0 rr (2 ^ ivP) (2 ^ ivP) else circTerms 100 1 rr r r
  let v := if quad < 2 then v else -v
  if m = 0 ∧ k = 1 then ⟨false, ⟨0, 0⟩⟩ else if v < 0 then ⟨true, ⟨-v, -v + 2 ^ 40⟩⟩ else ⟨false, ⟨v, v + 2 ^ 40⟩⟩

/-- The exact value of a shipped function at a finite argument that is no special value of R146. -/
def enclShipped (i : Nat) (neg : Bool) (m : Nat) (e : Int) : Encl :=
  let a := fixed m e
  let av : Iv := ⟨a, a⟩
  let far := (vNat (if i ≤ 6 then 16 else 256)).le (.fin false m e)
  let gated := fun (y : Iv) => (⟨neg, if far then (if neg then ivTiny else ivBelow a) else ivGate neg av y⟩ : Encl)
  match i with
  | 0 => enclLog m e
  | 1 => enclLog2 m e
  | 2 => ⟨neg, ivRecip m e⟩
  | 3 => ⟨neg, ivRsqrt m e⟩
  | 4 => ⟨neg, if (vNat 6).le (.fin false m e) then ivBelow (2 ^ ivP) else ivErf av⟩
  | 5 => gated (if far then ivOne else
      let cube := (av.mul av).mul av
      let z := (ivRootOver 2).mul ⟨a + 44715 * cube.lo / 10 ^ 6, a + 44715 * cube.hi / 10 ^ 6 + 1⟩
      ivExp ⟨2 * z.lo, 2 * z.hi⟩)
  | 6 =>
    if far then gated ivOne
    else
      let r := ivErf (av.mul (ivSqrt (2 ^ 800) 2))
      let f : Iv := if neg then ⟨2 ^ ivP - r.hi, 2 ^ ivP - r.lo⟩ else ⟨2 ^ ivP + r.lo, 2 ^ ivP + r.hi⟩
      let x := av.mul f
      ⟨neg, ⟨x.lo / 2, x.hi / 2 + 1⟩⟩
  | 7 => gated (if far then ivOne else ivExp av)
  | 8 =>
    if far then ⟨false, if neg then ivTiny else ⟨a + 1, a + 2 ^ 230⟩⟩
    else
      let s := ivSoft av
      ⟨false, if neg then s else ⟨s.lo + a, s.hi + a⟩⟩
  | 9 => let x := enclCirc 1 m e; ⟨x.neg != neg, x.mag⟩
  | _ => enclCirc 0 m e

/-! ## Special values, bounds, monotonicity -/

/-- The special values of R146. -/
def shippedSpecial (i : Nat) (x : Val) : Option Val :=
  let below := x.lt (vZero false)
  match i, x with
  | _, .nan => some .nan
  | 0, .inf neg | 1, .inf neg => some (if neg then .nan else .inf false)
  | 0, .fin _ m _ | 1, .fin _ m _ => if m = 0 then some (.inf true) else if below then some .nan else none
  | 2, .inf neg => some (vZero neg)
  | 2, .fin neg m _ => if m = 0 then some (.inf neg) else none
  | 3, .inf neg => some (if neg then .nan else vZero false)
  | 3, .fin neg m _ => if m = 0 then some (.inf neg) else if below then some .nan else none
  | 4, .inf neg => some (.fin neg 1 0)
  | 8, .inf neg => some (if neg then vZero false else .inf false)
  | 9, .inf _ | 10, .inf _ => some .nan
  | _, .inf neg => some (if neg then vZero true else .inf false)
  | _, _ => none

/-- How many ulp a shipped program may be off, 1 being faithful (R146). -/
def shippedUlps (i : Nat) (ff : FFmt) : Nat :=
  let wide := ff.width == 32
  match i with
  | 2 | 3 => 1
  | 5 | 6 | 7 => if wide then 3 else 2
  | _ => if wide then 2 else 1

/-- Whether a shipped function is non-decreasing or non-increasing around an argument, as R146 states: none where it
states neither. -/
def shippedRises (i : Nat) (x : Val) : Option Bool :=
  match i with
  | 2 | 3 => some false
  | 5 | 6 => if x.le (.fin true 1 0) then some false else if (Val.fin true 1 (-1)).le x then some true else none
  | 7 => if x.le (.fin true 3 (-1)) then some false else if (Val.fin true 1 0).le x then some true else none
  | 9 | 10 => none
  | _ => some true

/-- The least magnitude that is a limit of a shipped function, and whether 0 is one at this argument (R139). -/
def shippedLimits (i : Nat) (ff : FFmt) (neg : Bool) (x : Val) : Nat × Bool :=
  (if i = 4 then ff.round .near false 0 (vNat 1) else ff.round .near false 0 (.inf false),
   i == 2 || i == 3 || (i == 8 && neg) || ((i == 5 || i == 6 || i == 7) && x.le (.fin true 1 (-1))))

/-- The magnitudes that a bound in ulp and R139 allow, as the first and the last code. -/
def allowedCodes (ff : FFmt) (k : Nat) (x : Iv) (limit : Nat) (zero : Bool) : Nat × Nat :=
  let near := ff.round .near false 0 x.val
  if limit ≤ near then (limit, limit)
  else if zero ∧ near = 0 then (0, 0)
  else
    let c0 := ff.round .down false 0 x.val
    let c1 := ff.round .up false 0 x.val
    (max (c0 - (k - 1)) (b2n zero), min (c1 + (k - 1)) (limit - 1))

/-- Goes up from a code as long as the break of the next one says so. -/
def climbCodes (over_ : Nat → Bool) : Nat → Nat → Nat
  | 0, c => c
  | fuel + 1, c => if over_ (c + 1) then climbCodes over_ fuel (c + 1) else c

/-- The key of a format in the free values. -/
def FFmt.key (ff : FFmt) : Nat := ff.width * 16 + ff.eb

/-- A code between the two that are allowed: by the breaks of the stretch, or free where no monotonicity is stated. -/
def pickCode (i : Nat) (ff : FFmt) (u : Nat) (neg : Bool) (r : Nat × Nat) : Nat :=
  let x := d32 u
  match shippedRises i x with
  | some up =>
    let brk := fun (c : Nat) => d32 (Config.shippedBreak (4 * i + 2 * b2n up + b2n neg) ff.key c)
    climbCodes (fun c => if up != neg then (brk c).le x else x.le (brk c)) (r.2 - r.1) r.1
  | none => r.1 + Config.shippedPick i ff.key u % (r.2 + 1 - r.1)

/-- The result of sin and cos: within an absolute bound of the exact value, faithful where that is wider, and in [−1, 1]; beyond
2^21 anything in [−1, 1] (R146). A signed code order holds both signs. -/
def circCode (i : Nat) (ff : FFmt) (u : Nat) (neg : Bool) (m : Nat) (e : Int) : Nat :=
  let one : Int := ff.round .near false 0 (vNat 1)
  let code := fun (mode : RMode) (v : Int) =>
    ((ff.round mode false 0 (.fin false v.toNat (-(ivP : Int))) : Nat) : Int)
  let down := fun (v : Int) => if v < 0 then -(code .up (-v)) else code .down v
  let up := fun (v : Int) => if v < 0 then -(code .down (-v)) else code .up v
  let range : Int × Int :=
    if (Val.fin false 1 21).lt (.fin false m e) then (-one, one)
    else
      let x := enclShipped i neg m e
      let v := if x.neg then -x.mag.lo else x.mag.lo
      let b : Int := if ff.width = 32 then 2 ^ (ivP - 23) else 2 ^ (ivP - 22)
      if ff.width = 32 then (up (v - b), down (v + b)) else (min (down v) (up (v - b)), max (up v) (down (v + b)))
  let lo := max range.1 (-one)
  let hi := min range.2 one
  let c := lo + ((Config.shippedPick i ff.key u % (hi - lo + 1).toNat : Nat) : Int)
  if c < 0 then ff.signBit true + (-c).toNat else c.toNat

/-- A shipped micro-program on an FP32 argument, in a format (R142, R146). -/
def shippedFn (i : Nat) (ff : FFmt) (u : Nat) : Nat :=
  match shippedSpecial i (d32 u), d32 u with
  | some v, _ => ff.round .near false ff.canonNan v
  | none, .fin neg m e =>
    if i = 9 ∨ i = 10 then circCode i ff u neg m e
    else
      let x := if m = 0 ∧ i ≠ 8 then ⟨neg, ⟨0, 0⟩⟩ else enclShipped i neg m e
      let l := shippedLimits i ff neg (d32 u)
      ff.signBit x.neg + pickCode i ff u x.neg (allowedCodes ff (shippedUlps i ff) x.mag l.1 l.2)
  | none, _ => ff.canonNan

end Sys2Proof.Machine
end

