-- ==== Sys2Proof/Machine/Power.lean ====
section
/-!
DEFINITION. Power, protection, boot and the whole-module resets (R368, R404 to R416).
-/

namespace Sys2Proof.Machine

/-! ## What a loss of power leaves (R237, R273, R368, R375) -/

/-- A flash sector after a loss of power: one of its contents. After a clean save it is the latest; otherwise
which one is open. -/
def Sector.afterPower (r : Sector) (clean : Bool) (pick : Nat) : Sector :=
  let all := [r.durable.getD ⟨[], false⟩] ++ r.later
  let got := if clean then r.content else all.getD (pick % all.length) r.content
  { r with durable := some got, later := [] }

/-- Sectors after a loss of power. -/
def sectorsAfter (t : Tab Sector) (clean : Bool) (seed : Nat) : Tab Sector :=
  t.map (fun e => (e.1, e.2.afterPower clean (Config.freeNat (seed + e.1))))

/-- A sequence that comes back: parked and durable (R237). Its directory block is found again at the boot. -/
def Seq.survives (q : Seq) : Bool := q.state == .parked && q.durable

/-- A partition that has lost its power: what flash and its metadata hold. -/
def Part.afterPower (x : Part) (clean : Bool) (seed : Nat) : Part :=
  let kept := x.seqs.filter (fun e => e.2.survives)
  let pages := kept.flatMap (fun e => (e.2.entries.filterMap (fun y => if y.2.tier = 1 then some y.2.store else none)) ++ Tab.vals e.2.leafStore)
  { Part.reset with
    inst := x.inst
    gen := x.gen
    oldGen := x.oldGen
    sectors := sectorsAfter x.sectors clean seed
    storeSectors := (sectorsAfter x.storeSectors clean seed).filter (fun e => pages.contains (e.1 / 16))
    storeUsed := pages.foldl (fun t (g : Nat) => Tab.add t g 1) []
    seqs := kept
    seqGens := x.seqGens }

/-- The device without power (R405): only flash keeps anything. A tier that no boot has mounted keeps its
unclean-shutdown state (R418). -/
def Dev.afterPower (d : Dev) (clean : Bool) : Dev :=
  { Dev.reset with
    free := d.free + 1
    tier := { Tier.reset with
      uncleanMount := if d.tier.mounted then !clean else d.tier.uncleanMount
      readOnly := d.tier.readOnly
      spares := d.tier.spares
      freeBlocks := d.tier.freeBlocks
      written := d.tier.written
      cycles := d.tier.cycles
      blocks := d.tier.blocks }
    parts := d.parts.map (fun (e : Nat × Part) => (e.1, e.2.afterPower clean (Config.freeNat d.free))) }

/-! ## Shutdown (R404, R405, R414) -/

/-- The module goes down: a firmware commit is interrupted and leaves no image that verifies (R418), the staged
image is lost with the DRAM reserve. -/
def State.goDown (s : State) (clean : Bool) (boot : Boot) : State :=
  { s with
    dev := s.dev.afterPower clean
    plat := { s.plat with
      boot := boot
      pwrgd := false
      alert := false
      led := false
      thermTrip := false
      fault := false
      clean := clean
      lowPower := false
      dies := []
      fwStored := if s.plat.committing.isSome then none else s.plat.fwStored
      fwStaged := none
      committing := none
      rom := RomRec.reset
      debugOpen := 0 } }

/-- A power-fail shutdown that latches (R404); a thermal one holds THERM_TRIP_N low. -/
def State.latchDown (s : State) (why : Latch) : State :=
  let t := s.goDown false .off
  { t with plat := { t.plat with latch := some why, cause := some why, thermTrip := why == .thermal } }

/-- Whether the module is powered. -/
def Plat.powered (x : Plat) : Bool := x.input && x.latch.isNone

/-- The PFs of the ports that a configuration has answer configuration requests (R331, R411). -/
def Dev.enumerate (d : Dev) (code : Nat) : Dev :=
  (List.range (portsOf code)).foldl (fun (d : Dev) n => d.modFn (65 * n) (fun x => { x with present := true })) d

/-- A debug opening scrubs every partition before the layout is applied (R388): flash included. -/
def Part.opened (x : Part) : Part := { Part.reset with inst := x.inst + 1, gen := (x.gen + 1) % 256 }

/-- The start of a boot (R411): the port configuration is taken over, the cause of a shutdown is written (R405), a
recorded unlock token opens its ports (R387), the challenge of this boot is drawn. -/
def State.startBoot (s : State) : State :=
  let x := s.plat
  let d := s.dev
  { s with
    dev := { d with
      free := d.free + 1
      parts := if x.debugToken.isSome then d.parts.map (fun (e : Nat × Part) => (e.1, e.2.opened)) else d.parts }
    plat := { x with
      boot := .stage 0
      pwrgd := true
      portNow := x.portNext
      savedCause := x.cause.or x.savedCause
      cause := none
      challenge := Config.freeNat d.free
      fuseEpoch := if x.debugToken.isSome then x.fuseEpoch + 1 else x.fuseEpoch
      debugOpen := x.debugToken.getD 0
      debugToken := none } }

/-- A whole-module reset that boots at once (R418). -/
def State.reboot (s : State) : State := (s.goDown true .off).startBoot

/-- INPUT_POWER_ON: the input reaches 39 V. -/
def execInputPowerOn (millivolts : Nat) (s : State) : Host.Outcome State Fault Refusal :=
  .next (if 39000 ≤ millivolts ∧ !s.plat.input ∧ s.plat.latch.isNone then
    ({ s with plat := { s.plat with input := true } } : State).startBoot
  else s)

/-- UNDERVOLTAGE: below 37 V (R405). -/
def execUndervoltage (millivolts : Nat) (s : State) : Host.Outcome State Fault Refusal :=
  .next (if millivolts < 37000 ∧ s.plat.input then
    if s.plat.latch.isSome then { s with plat := { s.plat with input := false } }
    else
      let t := s.goDown false .off
      { t with plat := { t.plat with input := false, cause := some .undervoltage } }
  else s)

/-- OVERVOLTAGE: above 62 V for 100 µs. -/
def execOvervoltage (millivolts micros : Nat) (s : State) : Host.Outcome State Fault Refusal :=
  .next (if 62000 < millivolts ∧ 100 ≤ micros ∧ s.plat.powered then s.latchDown .overvoltage else s)

/-- INPUT_OVERCURRENT: above 66 A for 1 ms. -/
def execInputOvercurrent (milliamps micros : Nat) (s : State) : Host.Outcome State Fault Refusal :=
  .next (if 66000 < milliamps ∧ 1000 ≤ micros ∧ s.plat.powered then s.latchDown .overcurrent else s)

/-- LATCH_CLEAR: the input has been below 20 V for at least 1 s. -/
def execLatchClear (millivolts millis : Nat) (s : State) : Host.Outcome State Fault Refusal :=
  .next (if millivolts < 20000 ∧ 1000 ≤ millis ∧ s.plat.latch.isSome then
    { s with plat := { s.plat with latch := none, input := false, thermTrip := false } }
  else s)

/-- MOD_RESET_ASSERT: low for at least 1 ms (R414); the save counts as a clean shutdown. -/
def execModResetAssert (micros : Nat) (s : State) : Host.Outcome State Fault Refusal :=
  .next (if 1000 ≤ micros ∧ s.plat.powered then s.goDown true .held else s)

/-- MOD_RESET_RELEASE: the boot starts (R411). -/
def execModResetRelease (s : State) : Host.Outcome State Fault Refusal :=
  .next (if s.plat.powered ∧ s.plat.boot = .held then s.startBoot else s)

/-! ## Boot (R411 to R413) -/

/-- The first eight passing cores of a cluster and the passing core left unused, 15 for none (R77, R78). -/
def coreMapOf (mask : Nat) : Option (Nat × Nat) :=
  let pass := (List.range 9).filter (fun i => bitOf mask i)
  if pass.length < 8 then none
  else some (((pass.take 8).map (fun i => 2 ^ i)).foldl (· + ·) 0, (pass.drop 8).headD 15)

/-- The physical channels of logical channels 0 to 127: the first 128 that pass (R10, R240). -/
def chanMapOf (mask : Nat) : Option (List Nat) :=
  let pass := ((List.range 136).filter (fun i => bitOf mask i)).take 128
  if pass.length < 128 then none else some pass

/-- The spare channels that a map takes (R240). -/
def sparesOf (map : List Nat) : Nat := (map.filter (fun i => decide (128 ≤ i))).length

/-- The lanes a link runs at: all, or half when a contiguous half passes (R283, R285). -/
def lanesUp (full mask : Nat) : Option Nat :=
  if (List.range full).all (fun i => bitOf mask i) then some full
  else if (List.range (full / 2 + 1)).any (fun i => (List.range (full / 2)).all (fun k => bitOf mask (i + k))) then some (full / 2)
  else none

/-- The mask of a table, unlisted units passing whole. -/
def passing (t : Tab Nat) (i n : Nat) : Nat := Tab.getD t i (2 ^ n - 1)

/-- Whether the tests of stage 4 leave enough of everything (R413). -/
def bootEnough (r : BootResult) : Bool :=
  r.ok && (List.range 32).all (fun c => (coreMapOf (passing r.cores c 9)).isSome) &&
    (List.range 16).all (fun i => (chanMapOf (passing r.channels i 136)).isSome) &&
    (List.range 10).all (fun l => (lanesUp (Link.reset l).lanes (passing r.lanes l (Link.reset l).lanes)).isSome) &&
    r.badWays.all (fun e => decide (e.2 ≤ 2))

/-- Maps what the tests found into service. -/
def Dev.mapSpares (d : Dev) (r : BootResult) : Dev :=
  let d := (List.range 32).foldl (fun (d : Dev) c =>
    let m := (coreMapOf (passing r.cores c 9)).getD (0, 15)
    d.modCluster c (fun x => { x with coreMap := m.1, spare := m.2 })) d
  let d := (List.range 16).foldl (fun (d : Dev) i =>
    let map := (chanMapOf (passing r.channels i 136)).getD []
    let bad := (r.badWays.filter (fun e => e.1 / 32768 == i)).map (fun e => (e.1 % 32768, e.2))
    d.modStack i (fun x => { x with chanMap := map, spares := sparesOf map, badWays := bad })) d
  (List.range 10).foldl (fun (d : Dev) l =>
    let full := (Link.reset l).lanes
    let n := (lanesUp full (passing r.lanes l full)).getD 0
    d.modLink l (fun x => { x with lanes := n, narrowed := decide (n < full) })) d

/-- The micro-programs that PARTITION_SET loads (R146). -/
def shippedMicro : Tab Bytes := (List.range 11).map (fun i => (i, shippedImage i))

/-- How far the replicas of a partition's counter stand from it on each die, plus 2: anything within 2 tc (R21). -/
def skewsOf (v : Nat) : Tab Nat := (List.range 4).map (fun i => (i, (v / 5 ^ i) % 5))

/-- A partition is configured with a layout (R24, R146, R368, R374): its tick generator starts, its prefix key and the
skews of its replicas are drawn, the shipped micro-programs are loaded. -/
def Dev.configure (d : Dev) (ep p : Nat) (y : Layout) : Dev :=
  let r := d.prefixKey ep p (d.part p).inst
  let q := r.2.draw
  q.2.modPart p (fun x => { x with
    layout := some y
    pfxKey := r.1
    state := .attached
    everAttached := false
    tick := { Tick.reset with origin := d.now, skew := skewsOf q.1 }
    micro := shippedMicro })

/-- Gives the sequences that came back their directory blocks. Pages that they shared were in DRAM and are lost (R237). -/
def Part.restoreSeqs (x : Part) : Part :=
  x.seqs.foldl (fun (x : Part) e => match x.pickBlock e.2.homeDie with
    | some b => (x.takeBlock b).setSeq e.1 { e.2 with
        dirBlock := b, leaves := [], entries := e.2.entries.filter (fun y => y.2.tier == 1) }
    | none => x) x

/-- Applies the stored layout (R368). -/
def Dev.applyLayouts (d : Dev) (ep : Nat) (ls : Tab Layout) : Dev :=
  ls.foldl (fun (d : Dev) e => (d.configure ep e.1 e.2).modPart e.1 Part.restoreSeqs) d

/-- READY: the event of every function, vector 0 of every function, and the hosts whose links are up attach. -/
def Dev.ready (d : Dev) : Dev :=
  let fns := (List.range fnCount).filter (fun f => (d.fn f).present)
  let d := d.modEvent { EventRec.blank 0x0001 4 8 with d0 := Config.fwReleaseCode }
  fns.foldl (fun (d : Dev) f =>
    let d := (d.queueEvent f 0x0001 Config.fwReleaseCode 0).modFn f (fun x => { x with sent := Tab.add x.sent 0 1 })
    if (d.port (portOf f)).up then d.attachFn f else d) d

/-- The boot fails: reported to the management controller as kind 4 (R412). -/
def State.bootFailed (s : State) (unit : Nat) : State :=
  { s with plat := { s.plat with
    boot := .failed, fault := true, alert := true, led := true, mgmt := s.plat.mgmt ++ [⟨4, unit⟩] } }

/-- ROM recovery mode (R418): only the admin function's PF enumerates. -/
def State.toRecovery (s : State) : State :=
  { s with
    plat := { s.plat with boot := .recovery, led := true, rom := RomRec.reset }
    dev := { s.dev with host := { s.dev.host with fns := (s.dev.host.fns.map (fun (e : Nat × Fn) =>
      (e.1, { e.2 with present := e.1 == adminFn }))) } } }

/-- The stage that ends after `n` others. -/
def State.bootStage (s : State) (n : Nat) (r : BootResult) : State :=
  let go := fun (d : Dev) => ({ s with dev := d, plat := { s.plat with boot := .stage (n + 1) } } : State)
  match n with
  | 0 => if r.ok then go (s.dev.enumerate s.plat.portNow) else s.bootFailed n
  | 1 => if !r.signed || s.plat.fwStored.isNone then s.toRecovery else if r.ok then go s.dev else s.bootFailed n
  | 2 =>
    if !r.signed then s.toRecovery
    else if r.ok then
      { s with plat := { s.plat with boot := .stage 3, fwRunning := s.plat.fwStored.getD s.plat.fwRunning } }
    else s.bootFailed n
  | 3 => if bootEnough r then go (s.dev.mapSpares r) else s.bootFailed n
  | 4 => if r.ok then go { s.dev with tier := { s.dev.tier with mounted := true } } else s.bootFailed n
  | 5 => if r.ok then go (s.dev.applyLayouts s.plat.fuseEpoch s.plat.layouts) else s.bootFailed n
  | _ =>
    if r.ok then { s with dev := s.dev.ready, plat := { s.plat with boot := .ready } } else s.bootFailed n

/-- BOOT_STAGE_COMPLETE (R411, R412). -/
def execBootStageComplete (r : BootResult) (s : State) : Host.Outcome State Fault Refusal :=
  .next (match s.plat.boot with
    | .stage n => if s.plat.powered then s.bootStage n r else s
    | _ => s)

/-! ## Compute-die temperature (R407) -/

/-- A die's sample: the event at 100 °C is entered once; the second sample at 105 °C in a row trips. -/
def State.dieSample (s : State) (die temp : Nat) : State :=
  let t := Tab.getD s.plat.dies die ⟨0, 0, false⟩
  let hot := if 105 ≤ temp then t.hot + 1 else 0
  let d := if 100 ≤ temp ∧ !t.above then s.dev.modEvent { EventRec.blank 0x010A 4 8 with d0 := die, d1 := temp } else s.dev
  let d := if 2 ≤ hot then d.modEvent { EventRec.blank 0x0109 3 8 with d0 := 16 + die, d1 := temp } else d
  let s := { s with
    dev := d
    plat := { s.plat with
      dies := Tab.put s.plat.dies die ⟨temp, hot, decide (100 ≤ temp)⟩
      alert := s.plat.alert || decide (100 ≤ temp)
      mgmt := if 100 ≤ temp then s.plat.mgmt ++ [⟨5, die⟩] else s.plat.mgmt } }
  if 2 ≤ hot then s.latchDown .thermal else s

/-- DIE_TEMPERATURE_SAMPLE. -/
def execDieTemperatureSample (die temp : Nat) (s : State) : Host.Outcome State Fault Refusal :=
  onUnit (decide (die < 4)) (if s.plat.up then s.dieSample die temp else s)

/-- PLDM_ALERT_CLEAR. -/
def execPldmAlertClear (s : State) : Host.Outcome State Fault Refusal :=
  .next (if s.plat.powered then { s with plat := { s.plat with alert := false } } else s)

end Sys2Proof.Machine
end

