-- ==== Sys2Proof/Machine/Stack.lean ====
section
/-!
DEFINITION. The rows of the Beryl stacks and base dies: requests, throttling, conversion, temperature, refresh and
the background scrub (R239 to R263).
-/

namespace Sys2Proof.Machine

/-! ## Requests at the stack port (R245, R246) -/

/-- Bytes of a stack: 128 channels of 512 MiB (R239). -/
def stackBytes : Nat := 128 * 512 * 2 ^ 20

/-- Whether a request is made of whole atoms of the stack (R246). -/
def wholeReq (r : StackReq) : Bool :=
  r.addr % 32 == 0 && r.len % 32 == 0 && decide (0 < r.len) && decide (r.addr + r.len ≤ stackBytes)

/-- Whether two requests share an atom. -/
def reqsMeet (r t : StackReq) : Bool := decide (r.addr < t.addr + t.len) && decide (t.addr < r.addr + r.len)

/-- Whether one of some requests shares an atom with a request: the same atom is served in arrival order (R245). -/
def behind (held : List StackReq) (r : StackReq) : Bool := held.any (fun t => reqsMeet t r)

/-- The first tag unit of a write that is older than the write generation (R254). -/
def staleUnit (x : Part) (st : Stack) (r : StackReq) : Option Nat :=
  if r.write.isNone then none
  else (linesOf r.addr r.len).findSome? (fun l => if tagOf x st (l / 128) = x.gen then none else some (l / 128))

/-- Serves one request whole, line by line; the bytes of a read. -/
def Svc.serve (v : Svc) (r : StackReq) (quota gen : Nat) : PBytes × Svc :=
  (linesOf r.addr r.len).foldl (fun (acc : PBytes × Svc) l =>
    let lo := max r.addr (l * 128) - l * 128
    let hi := min (r.addr + r.len) (l * 128 + 128) - l * 128
    let atoms := atomsOf lo hi
    match r.write with
    | none =>
      let q := acc.2.readLine l atoms r.hint quota (if l = r.addr / 128 then r.ecc else .clean)
      (acc.1 ++ q.1.flatten, q.2)
    | some bs =>
      let part := (bs ++ List.replicate (r.len - bs.length) 0).drop (l * 128 + lo - r.addr)
      let put := atoms.zipIdx.map (fun e => (e.1, good ((part.drop (32 * e.2)).take 32)))
      (acc.1, acc.2.writeLine l put r.hint quota gen)) ([], v)

/-- The partition whose requests reach a stack: the owner of its die (R252). -/
def Dev.stackOwner (d : Dev) (s : Nat) : Option Nat := d.ownerOfDie (s / 4)

/-- Tries to serve a request: a write to a stale tag unit asks for its conversion, a throttled stack needs tokens (R254,
R258). False where the request has to wait. -/
def Dev.tryReq (d : Dev) (s p : Nat) (r : StackReq) : Bool × Dev :=
  let x := d.part p
  match staleUnit x (d.stack s) r with
  | some u => (false, if (d.stack s).conv.contains u then d else d.modStack s (fun st => { st with conv := st.conv ++ [u] }))
  | none =>
    let q := (d.svc s).serve r x.quota x.gen
    let reply := if r.write.isNone then some (plain q.1, poisoned q.1) else q.2.st.reply
    let e := d.endSvc s p { q.2 with st := { q.2.st with reply := reply } }
    if d.affords e then (true, e) else (false, d)

/-- Requests that a base die holds at most (R246). -/
def holdMax : Nat := 8192

/-- The base die takes a request: it is served, or held. -/
def Dev.accept (d : Dev) (s p : Nat) (r : StackReq) : Dev :=
  let q := if behind (d.stack s).waiting r then (false, d) else d.tryReq s p r
  if q.1 then q.2 else q.2.modStack s (fun st => { st with waiting := st.waiting ++ [r] })

/-- A request arrives at the stack port, which stops accepting while the base die holds as many as it can (R246). -/
def Dev.arrive (d : Dev) (s : Nat) (r : StackReq) : Dev :=
  match d.stackOwner s with
  | none => d
  | some p =>
    let st := d.stack s
    if st.port.isEmpty && decide (st.waiting.length < holdMax) then d.accept s p r
    else d.modStack s (fun st => { st with port := st.port ++ [r] })

/-- BASE_DIE_REQUEST. -/
def execBaseDieRequest (st : Nat) (req : StackReq) (s : State) : Host.Outcome State Fault Refusal :=
  onUnit (decide (st < 16)) (whenUp s (fun d => if wholeReq req then d.arrive st req else d))

/-- Tries requests that a base die holds again, in order, behind those it keeps: what it keeps. -/
def Dev.retryReqs (d : Dev) (s p : Nat) (kept : List StackReq) : List StackReq → List StackReq × Dev
  | [] => (kept, d)
  | r :: rs =>
    let q := if behind kept r then (false, d) else d.tryReq s p r
    q.2.retryReqs s p (if q.1 then kept else kept ++ [r]) rs

/-- The requests held back at a stack port come in as far as there is room: what stays outside. -/
def Dev.admitPort (d : Dev) (s p : Nat) : List StackReq → List StackReq × Dev
  | [] => ([], d)
  | r :: rs => if (d.stack s).waiting.length < holdMax then (d.accept s p r).admitPort s p rs else (r :: rs, d)

/-- Everything that waits at a stack is tried again. -/
def Dev.retryWaiting (d : Dev) (s p : Nat) : Dev :=
  let q := d.retryReqs s p [] (d.stack s).waiting
  let d := q.2.modStack s (fun st => { st with waiting := q.1 })
  let r := d.admitPort s p (d.stack s).port
  r.2.modStack s (fun st => { st with port := r.1 })

/-- Some stacks can serve again: their requests first, then everything else of the partition that waited for them. -/
def Dev.resumeStacks (d : Dev) (p : Nat) (ss : List Nat) : Dev :=
  (ss.foldl (fun (d : Dev) s => d.retryWaiting s p) d).released p

/-- THROTTLE_RELEASE: the bucket refills, at most to 4,096 (R258). -/
def execThrottleRelease (st tokens : Nat) (s : State) : Host.Outcome State Fault Refusal :=
  onUnit (decide (st < 16)) (whenUp s (fun d =>
    let d := d.modStack st (fun x => { x with tokens := min 4096 (x.tokens + tokens) })
    match d.stackOwner st with
    | none => d
    | some p => d.resumeStacks p [st]))

/-- The page frame that a tag unit of a stack belongs to, if it lies in the pool (R242). -/
def Layout.unitFrame (y : Layout) (s unit : Nat) : Option Nat :=
  let first := y.frameUnit s 0
  if first ≤ unit ∧ unit < first + y.framesPerDie then some (unit - first) else none

/-- The conversion of a tag unit ends: its tag advances, with the three others of a frame (R253, R254). -/
def Dev.converted (d : Dev) (s p unit : Nat) (y : Layout) : Dev :=
  match y.unitFrame s unit with
  | some f =>
    (List.range 4).foldl (fun (d : Dev) i =>
      d.modStack (s / 4 * 4 + i) (fun st => { st with conv := st.conv.filter (· != y.frameUnit (s / 4 * 4 + i) f) }))
      (d.tagFrame p (s / 4) f)
  | none => d.modStack s (fun st => { st with tags := Tab.put st.tags unit (d.part p).gen, conv := st.conv.filter (· != unit) })

/-- TAG_CONVERSION_DONE (R254): the unit's tag advances and its waiting writes proceed. Without a conversion in progress
nothing changes. -/
def execTagConversionDone (st unit : Nat) (s : State) : Host.Outcome State Fault Refusal :=
  onUnit (decide (st < 16)) (whenUp s (fun d =>
    match d.stackOwner st with
    | none => d
    | some p => match (d.part p).layout with
      | none => d
      | some y =>
        if (d.part p).oldGen.isNone && !(d.stack st).conv.contains unit then d
        else (d.converted st p unit y).resumeStacks p ((List.range 4).map (fun i => st / 4 * 4 + i))))

/-! ## Temperature (R257 to R259) -/

/-- The entry point of a throttle step. -/
def stepEntry (t k : Nat) : Nat := t + 3 * (k - 1)

/-- The step after a sample: up to the highest step reached, down by at most one. -/
def nextStep (t hyst old temp : Nat) : Nat :=
  let reached := ((List.range 4).filter (fun k => decide (0 < k) && decide (stepEntry t k ≤ temp))).foldl max 0
  if old < reached then reached
  else if 0 < old ∧ temp + hyst < stepEntry t old then old - 1
  else old

/-- Counts throttled time up to now on the owner's counter (R258, R402). -/
def Dev.countThrottle (d : Dev) (s : Nat) : Dev :=
  let st := d.stack s
  let n := if st.step = 0 then 0 else d.now - st.stepSince
  let d := d.modStack s (fun st => { st with stepSince := d.now })
  match d.stackOwner s with
  | some p => d.count p 13 n
  | none => d

/-- A sample of a stack: its step from now on, and what has been seen. -/
def Dev.stackSample (d : Dev) (t hyst s temp : Nat) : Dev :=
  (d.countThrottle s).modStack s (fun st =>
    let k := nextStep t hyst st.step temp
    let hot := if 105 ≤ temp then st.hot + 1 else 0
    { st with
      temp := temp
      step := k
      hot := hot
      throttleSeen := st.throttleSeen || decide (0 < k)
      tripSeen := st.tripSeen || decide (105 ≤ temp)
      tripped := st.tripped || decide (2 ≤ hot) })

/-- THERMAL_SAMPLE: a second sample at 105 °C or more in a row trips the module. -/
def execThermalSample (st temp : Nat) (s : State) : Host.Outcome State Fault Refusal :=
  onUnit (decide (st < 16)) (if s.plat.up then
    let d := s.dev.stackSample s.plat.throttleC s.plat.hysteresisC st temp
    let go := fun (d : Dev) => match d.stackOwner st with
      | some p => d.resumeStacks p [st]
      | none => d
    let t := { s with dev := if (d.stack st).step = 0 then go d else d }
    if (d.stack st).tripped then
      ({ t with dev := t.dev.modEvent { EventRec.blank 0x0109 3 4 with unit := st * 128, d0 := st, d1 := temp } } : State).latchDown
        .thermal
    else t
  else s)

/-! ## Refresh and scrub -/

/-- DRAM_REFRESH: every bank once per 32 ms, or 16 ms at or above 85 °C (R239); it changes no bit. -/
def execDramRefresh (st bank : Nat) (s : State) : Host.Outcome State Fault Refusal :=
  onUnit (decide (st < 16) && decide (bank < 32)) (whenUp s (fun d =>
    d.modStack st (fun x => { x with refreshed := Tab.put x.refreshed bank d.now })))

/-- BACKGROUND_ATOM_SCRUB: the base die reads an atom and corrects or poisons what it finds (R263). -/
def execBackgroundAtomScrub (st atom : Nat) (ecc : EccOutcome) (s : State) : Host.Outcome State Fault Refusal :=
  onUnit (decide (st < 16)) (whenUp s (fun d =>
    if stackBytes / 32 ≤ atom then d
    else
      let v := ((d.svc st).readAtom atom ecc).2
      let v := { v with st := { v.st with scrubbed := v.st.scrubbed + 1 } }
      d.ifAffords (match d.stackOwner st with
        | some p => d.endSvc st p v
        | none => d.setStack st { v.st with drawn := v.st.drawn + v.atoms, tokens := if v.st.step = 0 then v.st.tokens else v.st.tokens - v.atoms })))

end Sys2Proof.Machine
end

