-- ==== Sys2Proof/Machine/Links.lean ====
section
/-!
DEFINITION. The die links (R281 to R286): replay, retrain, narrowing, link down; and the failures of a cluster
control core, Carnelian and Peridot (R76, R390).
-/

namespace Sys2Proof.Machine

/-! ## Links -/

/-- The value of DLNK_STATUS. -/
def Link.status (x : Link) : Nat :=
  min x.retrains 255 * 2 ^ 16 + x.lanes * 2 ^ 10 + x.state * 2 ^ 8 + 4 * b2n x.narrowed + 2 * b2n x.retrainSeen + b2n x.replaySeen

/-- The dies a peer link joins; for an I/O-die link its compute die twice. -/
def linkDies : Nat → Nat × Nat
  | 0 => (0, 1)
  | 1 => (0, 2)
  | 2 => (0, 3)
  | 3 => (1, 2)
  | 4 => (1, 3)
  | 5 => (2, 3)
  | l => (l - 6, l - 6)

/-- The partition that sees a link (R286): both dies belong to it. -/
def Dev.linkOwner (d : Dev) (l : Nat) : Option Nat :=
  match d.ownerOfDie (linkDies l).1, d.ownerOfDie (linkDies l).2 with
  | some p, some q => if p = q then some p else none
  | _, _ => none

/-- The event of a link: in the ring of the partition that sees it, which its functions are told of, else in the
module ring (R356, R434). -/
def Dev.linkEvent (d : Dev) (l code cls : Nat) : Dev :=
  let e := { EventRec.blank code cls 2 with unit := l, d0 := l, d1 := (d.link l).status, status := if cls = 2 then stDeviceFault else stOK }
  match d.linkOwner l with
  | some p => d.partEvent p e
  | none => d.modEvent e

/-- EVENT 0x0009 to the functions that see a link. -/
def Dev.linkNotice (d : Dev) (l : Nat) : Dev :=
  match d.linkOwner l with
  | some p => d.queueEvents p 0x0009 l (d.link l).status
  | none => d

/-- The state of the ways that the word at a core's program counter takes to another die: a cnt. word's to its cluster, a
col.send's from its source and to its destination. -/
def Dev.wordWay (d : Dev) (c : Nat) : Nat :=
  let w := (d.core c).wordAt (d.core c).pc
  let own := dieOfCore c
  if opClass w = 7 then d.wayState own (cntCluster c w / 8)
  else if opClass w = 10 ∧ opCode w = 1 then
    let src := endpoint (bitsOf (fieldOf w 38 1) 1 0) (fieldOf w 16 8) 0
    max (d.wayState own ((endpoint 1 (fieldOf w 24 8) 0).cluster / 8)) (if src.space = 0 then 0 else d.wayState (src.cluster / 8) own)
  else 0

/-- Since when a core has waited for links that retrain: its descriptors, and its word at issue (R105, R283, R286). -/
def Dev.heldSince (d : Dev) (c : Nat) : Option Nat :=
  let k := d.core c
  let ds := (k.descrs.filter (fun y => !y.started && d.xferWay (d.corePart c) c y.x == 1)).map (·.at_)
  (ds ++ (if k.phase = .running ∧ k.pc < k.words ∧ d.wordWay c = 1 then [k.stalledFrom] else [])).min?

/-- After a link has left its retrain, from `d` to `e`: what the cores waited for it counts as link_tc (R42, R286). -/
def Dev.countHeld (d e : Dev) (l : Nat) : Dev :=
  (List.range 256).foldl (fun (y : Dev) c => match d.heldSince c, e.heldSince c with
    | some t, none => y.modCore c (fun k => { k with causes := { k.causes with
        link := k.causes.link + (d.now - max t (d.link l).outage) } })
    | _, _ => y) e

/-- After a link has changed its state descriptors and BAR2 requests that waited for it are tried again (R283, R284). -/
def Dev.resumeLinks (d : Dev) : Dev :=
  ((List.range 256).foldl (fun (d : Dev) c => if (d.core c).descrs.isEmpty then d else d.pump c) d).bar2Retry

/-- A link goes down (R284): operations that wait on it fault, and the condition is reported. -/
def Dev.linkDown (d : Dev) (l : Nat) : Dev :=
  let before := d
  let d := before.countHeld (before.modLink l (fun x => { x with state := 2 })) l
  let d := d.modLink l (fun x => { x with state := 2, runStart := none, runCount := 0 })
  let d := ((d.linkEvent l 0x0103 2).linkEvent l 0x0009 1).linkNotice l
  let d := (List.range 256).foldl (fun (d : Dev) c =>
    (d.core c).descrs.foldl (fun (d : Dev) y =>
      if y.started && d.xferWay (d.corePart c) c y.x == 2 then d.markOp c y.op stDeviceFault else d) d) d
  d.resumeLinks

/-- Whether a link has left a retrain less than 100,000 tc ago: a replay run that is exhausted so soon takes it down (R284). -/
def Dev.retrainedLately (d : Dev) (l : Nat) : Bool := (d.link l).lastRetrain.elim false (fun t => decide (d.now < t + 100000))

/-- What a link does once a replay run is exhausted: it retrains, or is down. -/
def Dev.exhaust (d : Dev) (l : Nat) : Dev :=
  if d.retrainedLately l then d.linkDown l
  else d.modLink l (fun x => { x with state := 1, runCount := 0, outage := d.now })

/-- A link that is down is reported to the management controller, kind 6. -/
def Plat.linkReport (x : Plat) (l : Nat) (down : Bool) : Plat := if down then { x with mgmt := x.mgmt ++ [⟨6, l⟩] } else x

/-- A replay run of a link is exhausted. -/
def State.exhaustLink (s : State) (l : Nat) : State :=
  { s with dev := s.dev.exhaust l, plat := s.plat.linkReport l (s.dev.retrainedLately l) }

/-- Replays that a run makes at most, and the tc from its first failed flit that it lasts at most (R282). -/
def runReplays : Nat := 16
/-- See `runReplays`. -/
def runTc : Nat := 3000

/-- Whether a run can make no further replay. -/
def Link.runSpent (x : Link) (now : Nat) : Bool := decide (runReplays ≤ x.runCount) || x.runStart.elim false (fun t => decide (t + runTc ≤ now))

/-- A flit's CRC fails: the receiver asks for a replay, the first of a run or one more of it (R282). -/
def Link.replay (x : Link) (dir now : Nat) (fresh : Bool) : Link :=
  { x with
    crc := Tab.bump x.crc dir 1
    replays := Tab.bump x.replays dir 1
    runs := if fresh then Tab.bump x.runs dir 1 else x.runs
    replaySeen := true
    runCount := if fresh then 1 else x.runCount + 1
    runStart := if fresh then some now else x.runStart }

/-- FLIT_CRC_FAILURE (R282). Whether the run before it has ended in a replay that succeeded is a free value (DESIGN CHOICE,
log 161); a run that goes on and is spent makes no replay more, and the link retrains. -/
def execFlitCrcFailure (l dir : Nat) (s : State) : Host.Outcome State Fault Refusal :=
  onUnit (decide (l < 10) && decide (dir < 2)) (if s.plat.up && (s.dev.link l).state == 0 then
    let x := s.dev.link l
    if x.runStart.isNone then s.onDev (fun d => d.modLink l (fun x => x.replay dir d.now true))
    else
      let q := s.dev.draw
      let fresh := q.1 % 2 == 0
      if !fresh && x.runSpent s.dev.now then
        ({ s with dev := q.2.modLink l (fun x => { x with crc := Tab.bump x.crc dir 1 }) } : State).exhaustLink l
      else { s with dev := q.2.modLink l (fun x => x.replay dir s.dev.now fresh) }
  else s)

/-- REPLAY_RUN_EXHAUSTED: 16 replays or 3,000 tc. -/
def execReplayRunExhausted (l : Nat) (s : State) : Host.Outcome State Fault Refusal :=
  onUnit (decide (l < 10)) (if s.plat.up && (s.dev.link l).state == 0 && (s.dev.link l).runStart.isSome then
    let x := s.dev.link l
    (if runReplays ≤ x.runCount then s else { s with dev := s.dev.reach (x.runStart.getD 0 + runTc) }).exhaustLink l
  else s)

/-- The retrain ends: full width, half width, or down. A link that was narrowed stays so until the boot. -/
def Dev.retrained (d : Dev) (l lanes : Nat) : Dev :=
  let full := (Link.reset l).lanes
  match lanesUp full lanes with
  | none => d.linkDown l
  | some n =>
    let m := min n (d.link l).lanes
    let newly := decide (m < (d.link l).lanes)
    let before := d
    let d := before.countHeld (before.modLink l (fun x => { x with state := 0 })) l
    let d := d.modLink l (fun x => { x with
      state := 0
      lanes := m
      retrains := x.retrains + 1
      retrainSeen := true
      narrowed := x.narrowed || decide (m < full)
      runStart := none
      lastRetrain := some d.now })
    (if newly then (d.linkEvent l 0x0009 1).linkNotice l else d).resumeLinks

/-- RETRAIN_COMPLETE: transfers held back go on in their order. -/
def execRetrainComplete (l lanes : Nat) (s : State) : Host.Outcome State Fault Refusal :=
  onUnit (decide (l < 10)) (if s.plat.up && (s.dev.link l).state == 1 then
    { s with
      dev := s.dev.retrained l lanes
      plat := s.plat.linkReport l (lanesUp (Link.reset l).lanes lanes).isNone }
  else s)

/-! ## Cluster control core (R76) -/

/-- A cluster control core fails: operations that wait on its services (requests, walks, ledger staging) fault, pipelines with cores in the cluster
stop, and it takes no new work. -/
def Dev.failCluster (d : Dev) (cl : Nat) : Dev :=
  let p := d.ownerOfDie (cl / 8)
  let e := { EventRec.blank 0x0101 2 1 with status := stDeviceFault, unit := cl }
  let d := match p with
    | some p => d.partEvent p e
    | none => d.modEvent e
  let waits := (List.range 8).flatMap (fun i => ((d.core (8 * cl + i)).window.filter (fun e => e.wait == .ledger || e.wait == .pgq)).map
    (fun e => (8 * cl + i, e.id)))
  let reqs := (d.cluster cl).pgQ.map (fun r => (r.core, r.op)) ++ (d.cluster cl).walks.map (fun v => (v.core, v.op)) ++ waits
  let d := d.modCluster cl (fun x => { x with failed := true, pgQ := [], walks := [], descQ := [] })
  let d := reqs.foldl (fun (d : Dev) r => d.settle r.1 r.2 stDeviceFault false) d
  match p with
  | none => d
  | some p => (d.part p).runs.foldl (fun (d : Dev) e =>
      if e.2.1.cores.any (fun c => clusterOfCore c == cl) then d.deviceStop p e.1 else d) d

/-- CLUSTER_CONTROL_CORE_FAILURE. -/
def execClusterControlCoreFailure (cl : Nat) (s : State) : Host.Outcome State Fault Refusal :=
  onUnit (decide (cl < 32)) (whenUp s (fun d => if (d.cluster cl).failed then d else d.failCluster cl))

/-! ## Carnelian and Peridot (R390) -/

/-- Commands that need Carnelian (R372): WEIGHTS_BIND, ATTEST, SESSION_OPEN, KEY_IMPORT, KEY_ROTATE. -/
def Cmd.needsCarnelian (c : Cmd) : Bool := [0x30, 0x80, 0x81, 0x82, 0x83].contains c.op

/-- Carnelian fails: what it is doing, and what needs it from now on, completes with DEVICE_FAULT. -/
def Dev.failCarnelian (d : Dev) (kind : Nat) : Dev :=
  let d := { d.modEvent { EventRec.blank 0x0106 2 7 with status := stDeviceFault, d0 := kind } with carnelian := false }
  let mine := d.host.live.filter (fun e => e.2.phase == .running && e.2.needsCarnelian)
  mine.foldl (fun (d : Dev) e => ((d.forget e.2.part e.1).unbind e.2).complete e.1 stDeviceFault 0 0) d

/-- CARNELIAN_FAULT. -/
def execCarnelianFault (kind : Nat) (s : State) : Host.Outcome State Fault Refusal :=
  .next (whenUp s (fun d => if d.carnelian then d.failCarnelian kind else d))

/-- Peridot stops the module (R390): fault = 1, ready = 0, MOD_ALERT_N asserted, kind 7 to the management
controller. -/
def State.peridotDown (s : State) (core : Nat) : State :=
  { s with
    dev := s.dev.modEvent { EventRec.blank 0x0107 3 8 with status := stDeviceFault, d0 := core }
    plat := { s.plat with fault := true, alert := true, mgmt := s.plat.mgmt ++ [⟨7, core⟩] } }

/-- Cores of Peridot (R8). -/
def peridotCores : Nat := 8

/-- PERIDOT_WATCHDOG: no progress for 100 ms. -/
def execPeridotWatchdog (core : Nat) (s : State) : Host.Outcome State Fault Refusal :=
  onUnit (decide (core < peridotCores)) (if s.plat.up then s.peridotDown core else s)

/-- PERIDOT_SRAM_ERROR. -/
def execPeridotSramError (core : Nat) (s : State) : Host.Outcome State Fault Refusal :=
  onUnit (decide (core < peridotCores)) (if s.plat.up then s.peridotDown core else s)

end Sys2Proof.Machine
end

