-- ==== Sys2Proof/Machine/Queue.lean ====
section
/-!
DEFINITION. Queue pairs, doorbells, fetch, timeouts, ABORT, late completions and messages (R339, R346 to R361,
R391 to R396).
-/

namespace Sys2Proof.Machine

/-! ## Fetch (R351 to R354, R359, R392) -/

/-- The opcodes of the command tables (R363). -/
def opcodes : List Nat :=
  [0x00, 0x01, 0x10, 0x11, 0x12, 0x20, 0x21, 0x22, 0x23, 0x24, 0x25, 0x30, 0x40, 0x41, 0x42, 0x43, 0x44, 0x45, 0x46, 0x50, 0x51,
   0x60, 0x61, 0x70, 0x80, 0x81, 0x82, 0x83, 0x90, 0x91, 0x92]

/-- The commands that only the admin function may issue. -/
def adminOnly (op : Nat) : Bool := op == 0x10 || op == 0x92

/-- The allowance of a tick (R43): the period, with the stretch under STRETCH. -/
def TickPar.allowance (t : TickPar) : Nat := t.period + (if t.policy = 0 then t.stretch else 0)

/-- Whether a command's DONE waits for a boundary or its effect for a commit (R392). -/
def waitsForCommit (b : Bytes) : Bool :=
  match fieldOf b 0 2 with
  | 0x21 => true
  | 0x23 => true
  | 0x24 => true
  | 0x25 => true
  | 0x40 => fieldOf b 36 4 != 0
  | 0x42 => !bitOf (fieldOf b 20 1) 2
  | 0x43 => true
  | 0x44 => true
  | 0x45 => fieldOf b 28 1 == 1
  | 0x46 => true
  | 0x70 => true
  | 0x83 => true
  | _ => false

/-- The layer-5 bound of a command under the tick in force (R392). -/
def tickBound (x : Part) (b : Bytes) : Nat :=
  let a := x.tick.par.allowance
  if fieldOf b 0 2 = 0x41 then (x.holdLimit + 1) * a + 800 else if waitsForCommit b then a + 800 else 0

/-- The timeout of a command in ms, none for 0xFFFF_FFFF (R353). -/
def timeoutMs (b : Bytes) : Option Nat :=
  match fieldOf b 4 4 with
  | 0 => some 10000
  | 0xFFFFFFFF => none
  | n => some n

/-- The header checks of a fetched command (R333, R354, R392): status and offset. -/
def headerFail (x : Part) (own : Option Nat) (f : Nat) (b : Bytes) : Option (Nat × Nat) :=
  let op := fieldOf b 0 2
  firstFail [(0, stUnsupported, !opcodes.contains op), (0, stPartition, op != 0 && own.isNone),
    (0, stAuth, adminOnly op && f != adminFn), (2, stInvalid, decide (16 ≤ fieldOf b 2 1)), (3, stInvalid, fieldOf b 3 1 != 0),
    (4, stBounds, fieldOf b 4 4 == 1),
    (4, stBounds, (timeoutMs b).elim false (fun ms => own.isSome && decide (ms * 1000000 < 4 * (444000 + tickBound x b)))),
    (4, stBounds, (timeoutMs b).elim false (fun ms => decide (ms * 1000000 < 4 * 444000)))]

/-- The live handles of a partition. -/
def Dev.liveOf (d : Dev) (p : Nat) : Nat := (d.host.live.filter (fun e => e.2.owned && e.2.part == p)).length

/-- Handles of the device (R359). -/
def maxHandles : Nat := 2 ^ 20

/-- Whether the partition and the device can each allocate a handle. -/
def Dev.handleRoom (d : Dev) (own : Option Nat) : Bool :=
  decide (d.host.live.length < maxHandles) && (match own with
    | some p => decide (d.liveOf p < ((d.part p).layout.map (·.handleQuota)).getD 0)
    | none => true)

/-- Whether a queue may be fetched from: ENABLED, not stopped, with a command, and two free CQ entries. -/
def Qp.fetchable (x : Qp) : Bool := x.state == 1 && !x.stalled && x.sqHead != x.sqTail && decide (2 ≤ x.cqFree)

/-- An ACK entry without its phase bit. -/
def ackEntry (sqHead handle tag : Nat) : Bytes :=
  natLE 1 1 ++ natLE 1 stOK ++ natLE 2 0 ++ natLE 4 sqHead ++ natLE 8 handle ++ natLE 8 tag ++ natLE 8 0

/-- Keeps the largest number of live handles of a partition (R402). -/
def Dev.notePeak (d : Dev) (p : Nat) : Dev :=
  let n := d.liveOf p
  d.modPart p (fun x => if Tab.getD x.counters 22 0 < n then { x with counters := Tab.put x.counters 22 n } else x)

/-- A queue of a function as one number. -/
def queueKey (f q : Nat) : Nat := f * 2 ^ 16 + q

/-- The queues of a partition that hold unfetched commands and may be fetched from. -/
def Dev.fetchableOf (d : Dev) (p : Nat) : List Nat :=
  ((d.part p).fnList.filter (fun f => (d.fn f).attached)).flatMap (fun f =>
    ((d.fn f).qps.filter (fun e => e.2.fetchable)).map (fun e => queueKey f e.1))

/-- The queue that a partition's round robin serves next, and the commands left of its turn: up to 8 in a turn (R352). -/
def Dev.nextFetch (d : Dev) (p : Nat) : Option (Nat × Nat) :=
  let x := d.part p
  let ready := d.fetchableOf p
  let away := fun k => (k + 2 ^ 26 - 1 - x.fetchTurn) % 2 ^ 26
  if 0 < x.fetchLeft ∧ ready.contains x.fetchTurn then some (x.fetchTurn, x.fetchLeft - 1)
  else (ready.foldl (fun (b : Option Nat) k => match b with
    | some m => if away k < away m then some k else some m
    | none => some k) none).map (fun k => (k, 7))

/-- Whether it is a queue's turn; queues of functions that own no partition take no turns. -/
def Dev.fetchTurnOf (d : Dev) (own : Option Nat) (f q : Nat) : Bool :=
  match own with
  | some p => (d.nextFetch p).elim false (fun e => e.1 == queueKey f q)
  | none => true

/-- A queue has used one command of its turn. -/
def Dev.tookTurn (d : Dev) (own : Option Nat) : Dev :=
  match own with
  | some p => match d.nextFetch p with
    | some e => d.modPart p (fun x => { x with fetchTurn := e.1, fetchLeft := e.2 })
    | none => d
  | none => d

/-- Fetches a command: a handle, two CQ entries, the ACK; header checks end it at once. -/
def Dev.fetch (d : Dev) (f q : Nat) (bytes : Bytes) : Dev :=
  let own := d.ownerOfFn f
  let p := own.getD 0
  match firstGap (Tab.keys d.host.live) 0 maxHandles with
  | none => d
  | some slot =>
    let gen := d.host.gen slot
    let x := (d.fn f).qp q
    let head := (x.sqHead + 1) % x.sqSize
    let c : Cmd :=
      ⟨gen, p, own.isSome, f, q, d.host.order, bytes, d.fnStamp f, (d.part p).tick.index, d.now,
        (timeoutMs bytes).map (fun ms => d.now + ms * 1000000), none, .fetched, [], [], 0, false⟩
    let d := (d.tookTurn own).modQp f q (fun x => { x with sqHead := head, held := x.held + 2 })
    let d := { d with host := { d.host with live := Tab.put d.host.live slot c, order := d.host.order + 1 } }
    let d := if own.isSome then d.notePeak p else d
    let d := d.modQp f q (fun x => { x with held := x.held - 1 })
    let d := d.cqPut f q (ackEntry head (handleOf slot gen p) (fieldOf bytes 8 8)) (!bitOf (fieldOf bytes 2 1) 3)
    match headerFail (d.part p) own f bytes with
    | some e => d.failAt slot e.1 e.2
    | none => d

/-- The 64 bytes at the head of a submission ring in device memory; a poisoned command has none. -/
def Dev.ringCommand (d : Dev) (f : Nat) (x : Qp) : Option Bytes × Dev :=
  let r := d.devRead (d.fnPart f) (x.sqBase + 64 * x.sqHead) 64 0
  (if poisoned r.1 then none else some (plain r.1), r.2)

/-- A command whose bytes cannot be read: it takes a handle and completes with a status, DEVICE_FAULT for poison or a link
that is down (R262, R284), PARTITION for a ring entry that does not lie in the volatile allocation (R15, R346). -/
def Dev.fetchLost (d : Dev) (f q st : Nat) : Dev :=
  match firstGap (Tab.keys d.host.live) 0 maxHandles with
  | some slot => (d.fetch f q (List.replicate 64 0)).complete slot st 0 0
  | none => d

/-- Fetches from a ring in device memory, whose entry crosses the I/O-die link of its die; over one that retrains, and
behind an atom that a base die holds, fetching pauses (R13, R245, R283). -/
def Dev.fetchRing (d : Dev) (f q : Nat) (x : Qp) : Dev :=
  let p := d.fnPart f
  let a := x.sqBase + 64 * x.sqHead
  if (d.part p).extent a 64 != .volatile then d.fetchLost f q stPartition
  else match d.ioWay p a 64 with
  | 0 =>
    if d.extentHeld p a 64 then d
    else
      let r := d.ringCommand f x
      let e := r.2.ioCarried p a 64 true
      d.ifAffords (match r.1 with
        | some b => e.fetch f q b
        | none => e.fetchLost f q stDeviceFault)
  | 1 => d
  | _ => d.fetchLost f q stDeviceFault

/-- COMMAND_FETCH: of a ring in host memory the command's bytes are the operand; a ring in device memory is read. At a
handle bound fetching pauses, and a queue whose turn it is not waits (R352). -/
def execCommandFetch (f q : Nat) (cmd : Bytes) (s : State) : Host.Outcome State Fault Refusal :=
  onUnit (decide (f < fnCount)) (whenUp s (fun d =>
    let x := (d.fn f).qp q
    if !(d.fn f).attached || !x.fetchable || s.plat.lowPower then d
    else if !d.handleRoom (d.ownerOfFn f) || !d.fetchTurnOf (d.ownerOfFn f) f q then d
    else if x.sqInDev then d.fetchRing f q x
    else d.fetch f q (cmd.take 64 ++ List.replicate (64 - cmd.length) 0)))

/-! ## NOP and ABORT (R360, R361) -/

/-- NOP. -/
def execNop (h : Nat) (s : State) : Host.Outcome State Fault Refusal :=
  runCmd h 0x00 anyForm s (fun c d => d.checked h (rsvBytes c [(16, 48)]) (fun d => d.complete h stOK 0 0))

/-- What ABORT does to a live command. -/
def Dev.abortCmd (d : Dev) (t : Nat) (c : Cmd) : Dev :=
  if c.phase = .fetched then d.cutShort t c stAborted 0 0
  else if c.byUnit then d.stopRunOf c.part t
  else if c.op = 0x41 ∧ c.phase = .running then d.dropAppend t c stAborted
  else if (d.frameOf t).isSome then (d.dropFrame t stAborted false).abortLater t c
  else (d.unstage c.part t).abortLater t c

/-- ABORT: completes after its target's DONE. -/
def execAbort (h : Nat) (s : State) : Host.Outcome State Fault Refusal :=
  runCmd h 0x01 anyForm s (fun c d =>
    let target := c.field 16 8
    let t := target % 2 ^ 20
    match firstFail (rsvBytes c [(24, 40)]) with
    | some f => d.failAt h f.1 f.2
    | none =>
      if bitsOf target 45 44 ≠ c.part then d.failAt h stPartition 16
      else match d.cmd t with
        | none => d.failAt h stStale 16
        | some y =>
          if handleOf t y.gen y.part ≠ target ∨ !y.owned then d.failAt h stStale 16
          else (d.modCmd h (fun c => { c with phase := .abortOf t y.gen })).abortCmd t y)

/-! ## Timeouts (R391, R394, R395) -/

/-- The ends of replay runs and retrains on the links that carry a pipeline's transfers. -/
def Dev.linkEnds (d : Dev) (cores : List Nat) : List Nat :=
  let busy := cores.filter (fun c => !(d.core c).descrs.isEmpty)
  (List.range 10).filterMap (fun l =>
    let x := d.link l
    if busy.any (fun c => dieOfCore c == (linkDies l).1 || dieOfCore c == (linkDies l).2) then
      x.runStart.map (fun t => t + (if x.state = 1 then 43000 else 3000))
    else none)

/-- The pages a command's work waits for. -/
def Dev.awaited (d : Dev) (c : Cmd) (cores : List Nat) : List Nat :=
  c.work ++ cores.flatMap (fun k => (d.core k).descrs.flatMap (fun y => if y.cold && !y.started then (d.part c.part).descrLacks y else []))

/-- The published ends of the recoveries that still run for a command's work. Whether a page read is in its retries
is a free value: nothing in the module shows it. -/
def Dev.recoveryEnds (d : Dev) (h : Nat) (c : Cmd) : List Nat × Dev :=
  let cores := match (d.part c.part).runOf h with
    | some (slot, _) => ((Tab.find (d.part c.part).pipes slot).map Pipe.cores).getD []
    | none => []
  let t := (d.part c.part).tick
  let stretch := if t.inStretch && c.owned then [t.origin + t.nominal + t.par.stretch + 800] else []
  let pages := (d.awaited c cores).foldl (fun (acc : List Nat × Dev) g => match Tab.find (d.part c.part).migr g with
    | some m =>
      let q := acc.2.draw
      if q.1 % 2 = 1 then (acc.1 ++ [t.origin + m.stamp + retryBound], q.2) else (acc.1, q.2)
    | none => acc) ([], d)
  ((d.linkEnds cores ++ stretch ++ pages.1).filter (fun e => decide (d.now < e)), pages.2)

/-- Completes a command with TIMEOUT: its counter, its event record, what R395 leaves. -/
def Dev.timeOut (d : Dev) (h : Nat) (c : Cmd) (deferral : Nat) : Dev :=
  let d := if c.owned then d.count c.part 1 1 else d
  let d := d.fnEvent c.fn { EventRec.blank 0x0108 2 8 with
    status := stTimeout, handle := handleOf h c.gen c.part, d0 := c.op, d1 := deferral }
  if c.byUnit then
    match (d.part c.part).runOf h with
    | none => d.complete h stTimeout ones64 ones64
    | some (slot, r) =>
      let d := d.modPart c.part (fun x => x.modPipe slot (fun y => y.modRun (fun r => { r with
        handle := none, stop := { r.stop with timeout := true } })))
      ((d.stopPipe c.part slot).markLate h c.part).complete h stTimeout (r.first.getD ones64) (r.last.getD ones64)
  else if c.op = 0x41 ∧ c.phase = .running then d.dropAppend h c stTimeout
  else if (d.frameOf h).isSome then d.dropFrame h stTimeout true
  else d.cutShort h c stTimeout 0 0

/-- Whether a command's timeout is ignored: a firmware commit that has begun (R395, R417). -/
def Cmd.untimed (c : Cmd) : Bool := c.op == 0x92 && c.phase == .running

/-- What a FW_UPDATE that ended with TIMEOUT leaves: its staged image is discarded (R395). -/
def State.dropStaged (s t : State) (h : Nat) : State :=
  match s.dev.cmd h, t.dev.cmd h with
  | some c, none => if c.op = 0x92 then { t with plat := { t.plat with fwStaged := none } } else t
  | _, _ => t

/-- COMMAND_TIMEOUT: deferred once to the latest end of the recoveries that run, else TIMEOUT. -/
def execCommandTimeout (h : Nat) (s : State) : Host.Outcome State Fault Refusal :=
  .next (s.dropStaged (h := h) (whenUp s (fun d => match d.cmd h with
    | none => d
    | some c => match c.deadline with
      | none => d
      | some t =>
        if c.untimed then d.modCmd h (fun c => { c with deadline := none })
        else
          let d := d.reach t
          let r := d.recoveryEnds h c
          if r.1.isEmpty then r.2.timeOut h c 0
          else
            let d := r.2.modCmd h (fun c => { c with deadline := none, deferred := some (r.1.foldl max 0) })
            if c.owned then d.count c.part 2 1 else d)))

/-- TIMEOUT_DEFERRAL_END. -/
def execTimeoutDeferralEnd (h : Nat) (s : State) : Host.Outcome State Fault Refusal :=
  .next (s.dropStaged (h := h) (whenUp s (fun d => match d.cmd h with
    | none => d
    | some c => match c.deferred with
      | none => d
      | some t =>
        let fired := c.fetched + ((timeoutMs c.bytes).getD 0) * 1000000
        (d.reach t).timeOut h c (t - fired))))

/-- LATE_COMPLETION: work that ends under a handle whose generation has advanced is dropped and counted once
(R361, R396). -/
def execLateCompletion (h : Nat) (s : State) : Host.Outcome State Fault Refusal :=
  .next (whenUp s (fun d => match Tab.find d.host.late h with
    | none => d
    | some p => ({ d with host := { d.host with late := Tab.del d.host.late h } }).count p 0 1))

/-! ## Queue pairs (R347 to R350) -/

/-- A write to a queue pair of a function that has it, while the module is READY and the function answers. -/
def onQp (f q : Nat) (s : State) (act : Dev → Dev) : Host.Outcome State Fault Refusal :=
  onUnit (decide (f < fnCount)) (whenUp s (fun d => if (d.fn f).present && decide (q < d.qpCount f) then act d else d))

/-- Whether ide_required keeps a function's doorbells shut (R340). -/
def Dev.ideShut (d : Dev) (f : Nat) : Bool :=
  match d.ownerOfFn f with
  | some p => ((d.part p).layout.map (·.ideRequired)).getD false && (d.fn f).ide.isEmpty
  | none => false

/-- A doorbell value out of range: EVENT 0x0007 (R349, R356). -/
def Dev.badDoorbell (d : Dev) (f q value : Nat) : Dev :=
  (d.fnEvent f { EventRec.blank 0x0007 4 9 with unit := portOf f, d0 := q, d1 := value }).queueEvent f 0x0007 q value

/-- QP_SQ_DOORBELL. -/
def execQpSqDoorbell (f q value : Nat) (s : State) : Host.Outcome State Fault Refusal :=
  onQp f q s (fun d =>
    let x := (d.fn f).qp q
    let i := value % 2 ^ 16
    if x.state ≠ 1 ∨ d.ideShut f then d
    else if x.sqSize ≤ i then d.badDoorbell f q value
    else d.modQp f q (fun x => { x with sqTail := i, stalled := false }))

/-- QP_CQ_DOORBELL: a head beyond the write index would claim entries not written; it is ignored. -/
def execQpCqDoorbell (f q value : Nat) (s : State) : Host.Outcome State Fault Refusal :=
  onQp f q s (fun d =>
    let x := (d.fn f).qp q
    let i := value % 2 ^ 16
    if !x.open_ || d.ideShut f then d
    else if x.cqSize ≤ i then d.badDoorbell f q value
    else if x.cqUsed < (i + x.cqSize - x.cqHead) % x.cqSize then d
    else d.modQp f q (fun x => { x with cqHead := i }))

/-- The fields of a QP_CFG write. -/
def Qp.withCfg (x : Qp) (v : Nat) : Qp :=
  { x with
    irqEn := bitOf v 23, eventEn := bitOf v 22, vector := bitsOf v 21 11, cqLog2 := bitsOf v 10 6, sqLog2 := bitsOf v 5 1 }

/-- A ring size is legal: 16 to 65,536 entries (R346). -/
def legalLog2 (n : Nat) : Bool := decide (4 ≤ n) && decide (n ≤ 16)

/-- Whether a configuration may be enabled (R347). -/
def Qp.valid (x : Qp) : Bool :=
  x.sqBase % 4096 == 0 && x.cqBase % 4096 == 0 && legalLog2 x.sqLog2 && legalLog2 x.cqLog2 && decide (x.vector < 2048)

/-- A queue with empty rings: indices 0, phase 1 (R348, R350). -/
def Qp.fresh (x : Qp) : Qp :=
  { x with
    state := 1, enable := true, cfgError := false, sqHead := 0, sqTail := 0, cqHead := 0, cqWrite := 0, phase := true, held := 0
    stalled := false, uncovered := 0 }

/-- QP_ENABLE: a write of QP_CFG with enable = 1. -/
def execQpEnable (f q value : Nat) (s : State) : Host.Outcome State Fault Refusal :=
  onQp f q s (fun d => d.modQp f q (fun x =>
    if x.state ≠ 0 ∨ !bitOf value 31 then x
    else
      let y := x.withCfg value
      if y.valid then y.fresh else { y with enable := false, cfgError := true }))

/-- Whether a handle from a queue is live. -/
def Dev.queueLive (d : Dev) (f q : Nat) : Bool := d.host.live.any (fun e => e.2.fn == f && e.2.q == q)

/-- QP_DISABLE: a write of QP_CFG with enable = 0; a DISABLED queue takes the other fields. -/
def execQpDisable (f q value : Nat) (s : State) : Host.Outcome State Fault Refusal :=
  onQp f q s (fun d => d.modQp f q (fun x =>
    if bitOf value 31 then x
    else if x.state = 0 then { x.withCfg value with enable := false }
    else { x with enable := false, state := if d.queueLive f q then 3 else 0 }))

/-- QP_DRAIN_COMPLETE. -/
def execQpDrainComplete (f q : Nat) (s : State) : Host.Outcome State Fault Refusal :=
  onUnit (decide (f < fnCount)) (whenUp s (fun d =>
    if ((d.fn f).qp q).state = 3 ∧ !d.queueLive f q then d.modQp f q (fun x => { x with state := 0 }) else d))

/-- QP_REARM: only of a QUIESCED queue of a function that is attached and in D0 (R344, R348, R408). -/
def execQpRearm (f q value : Nat) (s : State) : Host.Outcome State Fault Refusal :=
  onQp f q s (fun d =>
    if ((d.fn f).qp q).state = 2 ∧ bitOf value 0 ∧ (d.fn f).attached ∧ !(d.port (portOf f)).d3 then d.modQp f q Qp.fresh else d)

/-- REQUESTER_COMPLETION_TIMEOUT: a read of a ring in host memory timed out twice (R339). -/
def execRequesterCompletionTimeout (f q : Nat) (s : State) : Host.Outcome State Fault Refusal :=
  onUnit (decide (f < fnCount)) (whenUp s (fun d =>
    let x := (d.fn f).qp q
    if x.state ≠ 1 ∨ x.sqInDev ∨ x.stalled ∨ x.sqHead = x.sqTail then d
    else ((d.modQp f q (fun x => { x with stalled := true })).fnEvent f { EventRec.blank 0x0006 2 9 with
      unit := portOf f, d0 := q }).queueEvent f 0x0006 q 0))

/-- A dword of a function's MSI-X table; a vector control that nothing has written reads 1, masked. -/
def Fn.msixDword (x : Fn) (i : Nat) : Nat := Tab.getD x.msix i (if i % 4 = 3 then 1 else 0)

/-- MSIX_MESSAGE_SEND: one message covers the entries of a queue that ask for one; a masked vector stays pending. -/
def execMsixMessageSend (f q : Nat) (s : State) : Host.Outcome State Fault Refusal :=
  onUnit (decide (f < fnCount)) (whenUp s (fun d =>
    let x := (d.fn f).qp q
    if x.uncovered = 0 ∨ bitOf ((d.fn f).msixDword (4 * x.vector + 3)) 0 then d
    else (d.modQp f q (fun x => { x with uncovered := 0 })).modFn f (fun y => { y with sent := Tab.add y.sent x.vector 1 })))

end Sys2Proof.Machine
end

