-- ==== Sys2Proof/Machine/Registers.lean ====
section
/-!
DEFINITION. BAR0 (R27, R259, R286, R329, R336, R366): what each register reads, and the register rows.
-/

namespace Sys2Proof.Machine

/-! ## What the registers read -/

/-- AQ_DEV_STATUS. -/
def Plat.devStatus (x : Plat) : Nat :=
  Config.fwMinor % 256 * 2 ^ 8 + 4 * b2n (x.boot == .recovery) + 2 * b2n x.fault + b2n (x.boot == .ready && !x.fault)

/-- Whether BAR0 is served whole: at READY, and after a fault so that a driver can read it (R366, R390, R412). -/
def Plat.serves (x : Plat) : Bool := x.powered && (x.boot == .ready || x.boot == .failed)

/-- AQ_FUNC_INFO. -/
def Dev.funcInfo (d : Dev) (f : Nat) : Nat :=
  b2n (f == adminFn) * 2 ^ 31 + b2n (d.ownerOfFn f).isSome * 2 ^ 30 + (d.ownerOfFn f).getD 0 * 2 ^ 28 + d.qpCount f * 2 ^ 9 + f

/-- AQ_HANDLE_STATUS: fetching stops at a handle bound and goes on as soon as a handle is freed (R359). -/
def Dev.handleStatus (d : Dev) (f : Nat) : Nat :=
  b2n (!d.handleRoom (d.ownerOfFn f)) * 2 ^ 31 + b2n (maxHandles ≤ d.host.live.length) * 2 ^ 30 + ((d.ownerOfFn f).map d.liveOf).getD 0

/-- Whole seconds of grace time that remain (R343). -/
def Dev.graceLeft (d : Dev) (p : Nat) : Nat :=
  match (d.part p).state with
  | .departed t => (t + (((d.part p).layout.map (·.graceS)).getD 0) * 1000000000 - d.tc p) / 1000000000
  | _ => 0

/-- HOST_PORT_STATUS. -/
def Dev.portStatus (d : Dev) (f : Nat) : Nat :=
  let n := d.port (portOf f)
  let st := match d.ownerOfFn f with
    | none => 3
    | some p => match (d.part p).state with
      | .attached => 0
      | .departed _ => 1
      | .scrubbing _ _ => 2
  n.width * 2 ^ 19 + n.speed * 2 ^ 16 + b2n n.flit * 2 ^ 15 + b2n (!(d.fn f).ide.isEmpty) * 2 ^ 14 + st * 2 ^ 12 +
    (((d.ownerOfFn f).map d.graceLeft).getD 0)

/-- TIER_STATUS (R280). -/
def Tier.status (t : Tier) : Nat :=
  if t.mounted then
    let life := min 255 (t.cycles * 100 / (ratedCycles * rawBlocks))
    let spare := t.spares * 100 / spareBlocks
    life * 2 ^ 16 + spare * 2 ^ 8 + 16 * b2n t.readOnly + 8 * b2n (decide (90 ≤ life) || decide (spare < 10)) + 4 * b2n t.poisonSeen +
      2 * b2n t.uncleanMount + 1
  else 0

/-- BERYL_THERM_CFG (R259): the trip point is fixed at 105. -/
def Plat.thermCfg (x : Plat) : Nat := x.hysteresisC * 2 ^ 16 + x.throttleC * 2 ^ 8 + 0x69

/-- BERYL_STACK_STATUS. -/
def Stack.status (x : Stack) : Nat :=
  x.temp * 2 ^ 16 + x.step * 2 ^ 10 + 2 ^ 9 * b2n x.tripSeen + 2 ^ 8 * b2n x.throttleSeen + 2 ^ 7 * b2n x.poisonSeen +
    2 ^ 6 * b2n x.rereadSeen + 2 ^ 5 * b2n x.suspect + x.spares

/-- HOST_PORT_CFG (R329). -/
def State.portCfg (s : State) (f : Nat) : Nat := 2 ^ 8 * b2n (s.dev.fn f).writeRefused + 2 ^ 4 * s.plat.portNow + s.plat.portNext

/-- TICK_POLICY. -/
def Tick.policyReg (t : Tick) : Nat := t.par.stretch * 2 ^ 4 + t.par.fallback * 2 ^ 2 + t.par.policy

/-- TICK_STATUS. -/
def Part.tickStatus (x : Part) : Nat :=
  (x.pipes.filter (fun e => e.2.run.isSome)).length * 2 ^ 8 + 8 * b2n x.tick.faultStop + 4 * b2n x.tick.overrunSeen + 2 * b2n x.tick.inStretch

/-- AGATE_STATUS of an engine for a partition. -/
def Dev.agateStatus (d : Dev) (j p : Nat) : Nat :=
  let e := d.engine j
  let x := Tab.getD e.seen p EngSeen.reset
  let busy := match e.coding with
    | some k => (Tab.find e.sessions k.session).elim false (fun v => v.part == p)
    | none => false
  let units := (((d.part p).layout.map (·.agateUnits)).getD 0) / 2 ^ (4 * j) % 16
  (e.sessions.filter (fun v => v.2.part == p)).length * 2 ^ 21 + units * 2 ^ 17 + 2 ^ 6 * b2n busy + 2 ^ 5 * b2n x.fault +
    2 ^ 4 * b2n x.stale + 2 ^ 3 * b2n x.keyDeferred + 2 ^ 2 * b2n x.minimal + 2 * b2n x.reencode

/-- QP_CFG. -/
def Qp.cfgReg (x : Qp) : Nat :=
  b2n x.enable * 2 ^ 31 + b2n x.cfgError * 2 ^ 30 + b2n x.irqEn * 2 ^ 23 + b2n x.eventEn * 2 ^ 22 + x.vector * 2 ^ 11 +
    x.cqLog2 * 2 ^ 6 + x.sqLog2 * 2

/-- QP_STATUS. -/
def Qp.statusReg (x : Qp) : Nat := x.state * 2 ^ 17 + x.sqHead

/-- ROM_REC_STATUS (R419). -/
def RomRec.statusReg (x : RomRec) : Nat := x.result * 2 ^ 16 + 2 ^ 11 * b2n x.verified + 2 ^ 10 * b2n (x.busy != 0) + x.chunks % 2 ^ 10

/-- A dword of a function's pending-bit array: the vectors that are masked while entries of a queue wait for their message. -/
def Fn.pendingDword (x : Fn) (i : Nat) : Nat :=
  (List.range 32).foldl (fun n k =>
    n + (if x.qps.any (fun e => e.2.vector == 32 * i + k && e.2.uncovered != 0) && bitOf (x.msixDword (4 * (32 * i + k) + 3)) 0
      then 2 ^ k else 0)) 0

/-- The 64-bit register at an offset of a function. -/
def Dev.reg64 (d : Dev) (f off : Nat) : Option Nat :=
  let tick := (d.ownerOfFn f).map (fun p => (d.part p).tick)
  if off = 0x10 then some (d.fn f).bar2Base
  else if off = 0x100 then some (((d.ownerOfFn f).map d.tc).getD 0)
  else if off = 0x108 then some ((tick.map (·.index)).getD 0)
  else if off = 0x110 then some ((tick.map (·.start)).getD 0)
  else if 0x100000 ≤ off ∧ off < 0x100000 + 32 * d.qpCount f then
    let x := (d.fn f).qp ((off - 0x100000) / 32)
    match (off - 0x100000) % 32 with
    | 0 => some (x.sqBase + b2n x.sqInDev)
    | 8 => some (x.cqBase + b2n x.cqInDev)
    | _ => none
  else none

/-- The 32-bit register at an offset of a function; instances of another partition and unlisted offsets read 0. -/
def State.reg32 (s : State) (f off : Nat) : Nat :=
  let d := s.dev
  let own := d.ownerOfFn f
  let mine := fun (t : Part → Nat) => (own.map (fun p => t (d.part p))).getD 0
  if off = 0x0 then s.plat.devStatus
  else if s.plat.boot = .recovery ∧ off = 0x800000 then s.plat.rom.chunk
  else if s.plat.boot = .recovery ∧ off = 0x800004 then s.plat.rom.statusReg
  else if !s.plat.serves then 0
  else if off = 0x4 then d.funcInfo f
  else if off = 0x8 then d.handleStatus f
  else if off = 0x18 then d.portStatus f
  else if off = 0x20 then d.tier.status
  else if off = 0x24 then s.plat.thermCfg
  else if off = 0x28 then s.portCfg f
  else if off = 0x118 then mine (·.tick.par.period)
  else if off = 0x11C then mine (·.tick.policyReg)
  else if off = 0x120 then mine Part.tickStatus
  else if 0x200 ≤ off ∧ off < 0x240 then
    let i := (off - 0x200) / 4
    if own.isSome ∧ d.ownerOfDie (i / 4) = own then (d.stack i).status else 0
  else if 0x280 ≤ off ∧ off < 0x2A8 then
    let l := (off - 0x280) / 4
    if own.isSome ∧ d.linkOwner l = own then (d.link l).status else 0
  else if 0x2C0 ≤ off ∧ off < 0x2D0 then
    let j := (off - 0x2C0) / 4
    match own with
    | some p => if 0 < (d.part p).units j then d.agateStatus j p else 0
    | none => 0
  else if 0x100000 ≤ off ∧ off < 0x100000 + 32 * d.qpCount f then
    let x := (d.fn f).qp ((off - 0x100000) / 32)
    match (off - 0x100000) % 32 with
    | 16 => x.cfgReg
    | 20 => x.statusReg
    | _ => 0
  else if 0x400000 ≤ off ∧ off < 0x408000 then (d.fn f).msixDword ((off - 0x400000) / 4)
  else if 0x408000 ≤ off ∧ off < 0x408100 then (d.fn f).pendingDword ((off - 0x408000) / 4)
  else 0

/-- What a read of a dword of BAR0 returns: 64-bit registers low half, then the high half that a low read latched. -/
def State.barRead (s : State) (f off : Nat) : Nat :=
  match s.dev.reg64 f off with
  | some v => if s.plat.serves then v % 2 ^ 32 else 0
  | none => match s.dev.reg64 f (off - 4) with
    | some _ => if s.plat.serves && decide (4 ≤ off) then Tab.getD (s.dev.fn f).latches (off - 4) 0 else 0
    | none => s.reg32 f off

/-! ## Writes -/

/-- A BAR0 write of a function that exists, while the module is READY. -/
def onFn (f : Nat) (s : State) (act : State → State) : Host.Outcome State Fault Refusal :=
  onUnit (decide (f < fnCount)) (if s.plat.up && (s.dev.fn f).present then act s else s)

/-- HOST_BAR2_WINDOW_WRITE (R336): ignored whole unless the base is a multiple of the BAR2 size. -/
def execHostBar2WindowWrite (f value : Nat) (s : State) : Host.Outcome State Fault Refusal :=
  onFn f s (fun s => s.onDev (fun d => d.modFn f (fun x =>
    if value % 2 ^ 48 % 2 ^ x.bar2Log2 = 0 then { x with bar2Base := value % 2 ^ 48 } else x)))

/-- HOST_PORT_CFG_WRITE (R329): the admin function's; refused while a commit runs. -/
def execHostPortCfgWrite (f value : Nat) (s : State) : Host.Outcome State Fault Refusal :=
  onFn f s (fun s =>
    if f ≠ adminFn then s
    else
      let next := value % 4
      let s := if bitOf value 8 then s.onDev (fun d => d.modFn f (fun x => { x with writeRefused := false })) else s
      if next = s.plat.portNext then s
      else if s.plat.committing.isSome then s.onDev (fun d => d.modFn f (fun x => { x with writeRefused := true }))
      else { s with plat := { s.plat with portNext := next } })

/-- PLDM_PORT_CONFIG_WRITE: refused while a commit runs. -/
def execPldmPortConfigWrite (code : Nat) (s : State) : Host.Outcome State Fault Refusal :=
  .next (if s.plat.powered ∧ s.plat.committing.isNone ∧ code < 4 then { s with plat := { s.plat with portNext := code } } else s)

/-- A write of BERYL_THERM_CFG, ignored whole when either field is out of range (R259). -/
def Plat.setTherm (x : Plat) (value : Nat) : Plat :=
  let t := bitsOf value 15 8
  let h := bitsOf value 23 16
  if 85 ≤ t ∧ t ≤ 100 ∧ 2 ≤ h ∧ h ≤ 10 then { x with throttleC := t, hysteresisC := h } else x

/-- BERYL_THERM_CFG_WRITE: the admin function's. -/
def execBerylThermCfgWrite (f value : Nat) (s : State) : Host.Outcome State Fault Refusal :=
  onFn f s (fun s => if f = adminFn then { s with plat := s.plat.setTherm value } else s)

/-- PLDM_THERM_CFG_WRITE. -/
def execPldmThermCfgWrite (value : Nat) (s : State) : Host.Outcome State Fault Refusal :=
  .next (if s.plat.powered then { s with plat := s.plat.setTherm value } else s)

/-- TICK_REGISTER_LOW_READ (R27, R366): the high half of a 64-bit register is latched. -/
def execTickRegisterLowRead (f offset : Nat) (s : State) : Host.Outcome State Fault Refusal :=
  onUnit (decide (f < fnCount)) (match s.plat.serves && (s.dev.fn f).present, s.dev.reg64 f offset with
    | true, some v => s.onDev (fun d => d.modFn f (fun x => { x with latches := Tab.put x.latches offset (v / 2 ^ 32) }))
    | _, _ => s)

/-- A W1C bit: a 1 written clears it. -/
def w1c (old : Bool) (value i : Nat) : Bool := old && !bitOf value i

/-- A write of one half of a ring base; only a DISABLED queue takes it (R347). -/
def Qp.writeBase (x : Qp) (off value : Nat) : Qp :=
  if x.state ≠ 0 then x
  else match off with
    | 0 => { x with sqBase := x.sqBase / 2 ^ 32 * 2 ^ 32 + value / 4096 * 4096, sqInDev := bitOf value 0 }
    | 4 => { x with sqBase := x.sqBase % 2 ^ 32 + value * 2 ^ 32 }
    | 8 => { x with cqBase := x.cqBase / 2 ^ 32 * 2 ^ 32 + value / 4096 * 4096, cqInDev := bitOf value 0 }
    | 12 => { x with cqBase := x.cqBase % 2 ^ 32 + value * 2 ^ 32 }
    | _ => x

/-- A dword write to a register of BAR0 that has no row of its own. -/
def Dev.writeReg (d : Dev) (f off value : Nat) : Dev :=
  let own := d.ownerOfFn f
  if off = 0x120 then
    match own with
    | some p => d.modTick p (fun t => { t with faultStop := w1c t.faultStop value 3, overrunSeen := w1c t.overrunSeen value 2 })
    | none => d
  else if off = 0x20 then { d with tier := { d.tier with poisonSeen := w1c d.tier.poisonSeen value 2 } }
  else if 0x200 ≤ off ∧ off < 0x240 then
    let i := (off - 0x200) / 4
    if own.isSome ∧ d.ownerOfDie (i / 4) = own then
      d.modStack i (fun x => { x with
        tripSeen := w1c x.tripSeen value 9, throttleSeen := w1c x.throttleSeen value 8
        poisonSeen := w1c x.poisonSeen value 7, rereadSeen := w1c x.rereadSeen value 6 })
    else d
  else if 0x280 ≤ off ∧ off < 0x2A8 then
    let l := (off - 0x280) / 4
    if own.isSome ∧ d.linkOwner l = own then
      d.modLink l (fun x => { x with
        narrowed := w1c x.narrowed value 2, retrainSeen := w1c x.retrainSeen value 1, replaySeen := w1c x.replaySeen value 0 })
    else d
  else if 0x2C0 ≤ off ∧ off < 0x2D0 then
    let j := (off - 0x2C0) / 4
    match own with
    | some p =>
      if 0 < (d.part p).units j then
        d.see j p (fun x => { x with
          fault := w1c x.fault value 5, stale := w1c x.stale value 4, keyDeferred := w1c x.keyDeferred value 3
          minimal := w1c x.minimal value 2, reencode := w1c x.reencode value 1 })
      else d
    | none => d
  else if 0x100000 ≤ off ∧ off < 0x100000 + 32 * d.qpCount f then
    d.modQp f ((off - 0x100000) / 32) (fun x => x.writeBase ((off - 0x100000) % 32) value)
  else if 0x400000 ≤ off ∧ off < 0x408000 then
    d.modFn f (fun x => { x with msix := Tab.put x.msix ((off - 0x400000) / 4) value })
  else d

/-- REGISTER_WRITE (R366): in ROM recovery mode the image buffer takes the admin function's writes (R419). -/
def execRegisterWrite (f offset value : Nat) (s : State) : Host.Outcome State Fault Refusal :=
  onUnit (decide (f < fnCount))
    (if s.plat.boot = .recovery ∧ s.plat.powered then
      if f = adminFn ∧ 0x810000 ≤ offset ∧ offset < 0x820000 then
        { s with plat := { s.plat with rom := { s.plat.rom with
            buffer := Mem.putNat s.plat.rom.buffer ((offset - 0x810000) / 4 * 4) 4 (value % 2 ^ 32) } } }
      else if f = adminFn ∧ offset = 0x800000 ∧ s.plat.rom.busy = 0 then
        { s with plat := { s.plat with rom := { s.plat.rom with chunk := value % 2 ^ 9 } } }
      else s
    else if s.plat.up && (s.dev.fn f).present && offset % 4 == 0 then s.onDev (fun d => d.writeReg f offset (value % 2 ^ 32))
    else s)

end Sys2Proof.Machine
end

