-- ==== Sys2Proof/Machine/HostLink.lean ====
section
/-!
DEFINITION. The host link: BAR2, links, PERST#, resets, virtual functions and power states (R328 to R345, R408,
R409, R414).
-/

namespace Sys2Proof.Machine

/-! ## BAR2 (R336 to R338, R340, R343) -/

/-- The partition a BAR2 request of a function reaches, if it is served at all; otherwise Unsupported Request. -/
def Dev.bar2Part (d : Dev) (f : Nat) : Option Nat :=
  match d.ownerOfFn f with
  | none => none
  | some p => if (d.part p).state = .attached ∧ (d.fn f).attached ∧ !d.ideShut f then some p else none

/-- A request that is not served: a read is answered without data, a write is discarded. -/
def Dev.bar2Refuse (d : Dev) (f : Nat) (req : Bar2Req) (why : Bar2Reply) : Dev :=
  if req.write.isNone then d.modFn f (fun x => { x with reply := some why, rejects := x.rejects + 1 }) else d

/-- A rejected request (R337): counted, a read answered with Completer Abort. -/
def Dev.bar2Reject (d : Dev) (f p : Nat) (req : Bar2Req) : Dev :=
  ((d.modFn f (fun x => { x with bar2Abort := x.bar2Abort + 1 })).count p 3 1).bar2Refuse f req .completerAbort

/-- BAR2_REQUEST: an access at offset x reaches device address W + x; it is checked whole. -/
def execBar2Request (f offset : Nat) (req : Bar2Req) (s : State) : Host.Outcome State Fault Refusal :=
  onFn f s (fun s => s.onDev (fun d =>
    let x := d.fn f
    let a := x.bar2Base + offset
    if 2 ^ x.bar2Log2 ≤ offset ∨ req.len = 0 then d
    else match d.bar2Part f with
      | none => d.bar2Refuse f req .unsupportedRequest
      | some p =>
        if req.atomic || (d.part p).extent a req.len == .outside || (d.part p).hitsWeights a req.len then d.bar2Reject f p req
        else d.bar2Serve f p a req))

/-- BAR2_RESIZE: 256 MiB to 64 GiB; the window base returns to its reset value. -/
def execBar2Resize (f log2 : Nat) (s : State) : Host.Outcome State Fault Refusal :=
  onFn f s (fun s => if 28 ≤ log2 ∧ log2 ≤ 36 then
    s.onDev (fun d => d.modFn f (fun x => { x with bar2Log2 := log2, bar2Base := Fn.reset.bar2Base })) else s)

/-! ## Links and resets of a port -/

/-- Whether the module's configuration responders answer (R411, R412). -/
def Plat.answers (x : Plat) : Bool :=
  x.powered && (match x.boot with
    | .off => false
    | .held => false
    | .stage n => decide (0 < n)
    | _ => true)

/-- A row about a port that the configuration in force has; others are ignored (R328). -/
def onPort (n : Nat) (s : State) (act : State → State) : Host.Outcome State Fault Refusal :=
  onUnit (decide (n < 4)) (if s.plat.answers && decide (n < portsOf s.plat.portNow) then act s else s)

/-- The VFs of a port disappear. -/
def Dev.dropVfs (d : Dev) (n : Nat) : Dev :=
  ((portFns n).drop 1).foldl (fun (d : Dev) f => if (d.fn f).present then d.modFn f (fun x => { x with present := false }) else d)
    (d.modPort n (fun x => { x with vfs := 0 }))

/-- HOST_LINK_UP: hosts attach to the port's functions once the module is READY. -/
def execHostLinkUp (n width speed : Nat) (flit : Bool) (s : State) : Host.Outcome State Fault Refusal :=
  onPort n s (fun s =>
    if (s.dev.port n).perst then s
    else
      let t := s.onDev (fun d => d.modPort n (fun x => { x with up := true, width := width, speed := speed, flit := flit }))
      if t.plat.up then t.onDev (fun d => d.attachPort n) else t)

/-- HOST_LINK_DOWN: every function of the port departs. -/
def execHostLinkDown (n : Nat) (s : State) : Host.Outcome State Fault Refusal :=
  onPort n s (fun s => s.onDev (fun d => (d.departPort n 0).modPort n (fun x => { x with up := false, linkIde := false })))

/-- Every function of a port is reset: they depart and return to their reset values, the VFs disappear. -/
def Dev.resetPort (d : Dev) (n cause : Nat) : Dev :=
  (((d.presentOn n).foldl (fun d f => d.resetFn f) (d.departPort n cause)).dropVfs n)

/-- PERST_ASSERT: the port and its functions are in reset (R331); on the admin function's port, while fault or
rom_recovery is set, the whole module is reset (R414). -/
def execPerstAssert (n : Nat) (s : State) : Host.Outcome State Fault Refusal :=
  onPort n s (fun s =>
    if n = Config.adminPort ∧ (s.plat.fault ∨ s.plat.boot = .recovery) then
      (s.goDown true .held).onDev (fun d => d.modPort n (fun x => { x with perst := true }))
    else s.onDev (fun d => (d.resetPort n 2).modPort n (fun x => { x with up := false, linkIde := false, perst := true })))

/-- PERST_RELEASE: a module held by the admin port's PERST# boots. -/
def execPerstRelease (n : Nat) (s : State) : Host.Outcome State Fault Refusal :=
  onUnit (decide (n < 4)) (if s.plat.powered && (s.dev.port n).perst then
    let t := s.onDev (fun d => d.modPort n (fun x => { x with perst := false }))
    if t.plat.boot = .held ∧ n = Config.adminPort then t.startBoot else t
  else s)

/-- HOT_RESET. -/
def execHotReset (n : Nat) (s : State) : Host.Outcome State Fault Refusal :=
  onPort n s (fun s => s.onDev (fun d => d.resetPort n 1))

/-- FUNCTION_LEVEL_RESET: of a PF it takes the port's VFs with it. -/
def execFunctionLevelReset (f : Nat) (s : State) : Host.Outcome State Fault Refusal :=
  onUnit (decide (f < fnCount)) (if s.plat.answers && (s.dev.fn f).present then
    s.onDev (fun d => if f % 65 = 0 then d.resetPort (f / 65) 3 else (d.departFn f 3).resetFn f)
  else s)

/-- VF_ENABLE: VFs 1 to `count` come into being; hosts attach to them (R332, R342). -/
def execVfEnable (n count : Nat) (s : State) : Host.Outcome State Fault Refusal :=
  onPort n s (fun s =>
    if 64 < count ∨ (s.dev.port n).vfs ≠ 0 then s
    else
      let t := s.onDev (fun d =>
        (((portFns n).drop 1).take count).foldl (fun (d : Dev) f => d.modFn f (fun x => { x with present := true }))
          (d.modPort n (fun x => { x with vfs := count })))
      if t.plat.up && (t.dev.port n).up then t.onDev (fun d => d.attachPort n) else t)

/-- VF_DISABLE. -/
def execVfDisable (n : Nat) (s : State) : Host.Outcome State Fault Refusal :=
  onPort n s (fun s => s.onDev (fun d =>
    (((portFns n).drop 1).foldl (fun (d : Dev) f => if (d.fn f).present then (d.departFn f 4).resetFn f else d) d).dropVfs n))

/-! ## Power states (R408, R409) -/

/-- D3HOT_ENTRY: the PF is fetched from no longer; its commands end as at a departure, which it is not. -/
def execD3hotEntry (n : Nat) (s : State) : Host.Outcome State Fault Refusal :=
  onPort n s (fun s => if s.plat.up && !(s.dev.port n).d3 then
    s.onDev (fun d => (d.endFunction (65 * n)).modPort n (fun x => { x with d3 := true })) else s)

/-- Every generator goes on from the value it held. -/
def Dev.resumeTicks (d : Dev) : Dev :=
  (List.range 4).foldl (fun (d : Dev) p => match (d.part p).tick.held with
    | some v => d.modTick p (fun t => { t with origin := d.now - v, held := none })
    | none => d) d

/-- D0_RETURN: the module leaves the low-power state. -/
def execD0Return (n : Nat) (s : State) : Host.Outcome State Fault Refusal :=
  onPort n s (fun s => if s.plat.up && (s.dev.port n).d3 then
    let t := s.onDev (fun d => d.modPort n (fun x => { x with d3 := false }))
    if t.plat.lowPower then { (t.onDev Dev.resumeTicks) with plat := { t.plat with lowPower := false } } else t
  else s)

/-- LOW_POWER_ENTRY: every PF is in D3hot and every command has completed. -/
def execLowPowerEntry (s : State) : Host.Outcome State Fault Refusal :=
  .next (if s.plat.up && (List.range (portsOf s.plat.portNow)).all (fun n => (s.dev.port n).d3) && s.dev.host.live.isEmpty then
    { s with plat := { s.plat with lowPower := true } } else s)

end Sys2Proof.Machine
end

