-- ==== Sys2Proof/Machine/Partition.lean ====
section
/-!
DEFINITION. PARTITION_SET and the end of grace times and scrubs (R343 to R345, R363 to R370).
-/

namespace Sys2Proof.Machine

/-! ## The layout object (R243, R365) -/

/-- A field of the object with the default its default code stands for. -/
def orDefault (v code dflt : Nat) : Nat := if v = code then dflt else v

/-- The interleave regions of an object; with regions 0, one PARTITION region. -/
def regionsOf (o : Bytes) : List Region :=
  if fieldOf o 32 1 = 0 then [⟨0, 0, fieldOf o 24 4⟩]
  else (List.range (fieldOf o 32 1)).map (fun i =>
    let mode := fieldOf o (64 + 8 * i) 1
    ⟨mode, if mode = 0 then 0 else fieldOf o (65 + 8 * i) 1 % 4, fieldOf o (68 + 8 * i) 4⟩)

/-- The valid function entries of an object: place, function and qp_count. -/
def functionEntries (o : Bytes) : List (Nat × Nat × Nat) :=
  ((List.range 32).map (fun i => (128 + 4 * i, fieldOf o (128 + 4 * i) 4))).filterMap (fun e =>
    if bitOf e.2 9 then some (e.1, bitsOf e.2 8 0, bitsOf e.2 26 10) else none)

/-- The layout that an object asks for, defaults taken. -/
def layoutOf (o : Bytes) : Layout where
  dies := fieldOf o 1 1
  holdLimit := orDefault (fieldOf o 2 1) 0 2
  dirtyPct := orDefault (fieldOf o 3 1) 0 25
  graceS := orDefault (fieldOf o 4 2) 0xFFFF 30
  keepQuota := orDefault (fieldOf o 6 1) 0xFF 16
  ideRequired := bitOf (fieldOf o 7 1) 0
  handleQuota := orDefault (fieldOf o 8 4) 0 (2 ^ 18)
  agateUnits := fieldOf o 12 2
  unifiedGib := fieldOf o 16 4
  storeGib := fieldOf o 20 4
  volatileGib := fieldOf o 24 4
  poolGib := fieldOf o 28 4
  regions := regionsOf o
  functions := (functionEntries o).map (·.2)

/-- The checks of one function entry, whose 4 bytes are one field of the table, under the port configuration in force. -/
def functionChecks (code : Nat) (o : Bytes) (i : Nat) : List (Nat × Nat × Bool) :=
  let a := 128 + 4 * i
  let e := fieldOf o a 4
  let f := bitsOf e 8 0
  let n := bitsOf e 26 10
  let v := bitOf e 9
  [(a, stInvalid, !v && e != 0),
   (a, stInvalid, v && (decide (259 < f) || decide (portsOf code ≤ portOf f))),
   (a, stBounds, v && (functionEntries o).any (fun x => decide (x.1 < a) && x.2.1 == f)),
   (a, stInvalid, v && n == 0),
   (a, stBounds, v && (decide (65536 < n) || (f == adminFn && decide (n < 64)))),
   (a, stInvalid, v && bitsOf e 31 27 != 0)]

/-- The checks of one interleave entry. -/
def interleaveChecks (o : Bytes) (i : Nat) : List (Nat × Nat × Bool) :=
  let a := 64 + 8 * i
  [(a, stInvalid, decide (1 < fieldOf o a 1)), (a + 1, stInvalid, decide (4 ≤ fieldOf o (a + 1) 1)),
   (a + 2, stInvalid, fieldOf o (a + 2) 1 != 0), (a + 3, stInvalid, fieldOf o (a + 3) 1 != 0)]

/-- Whether a field lies strictly between its default code or legal range and the rest. -/
def between (v lo hi : Nat) : Bool := decide (lo ≤ v) && decide (v ≤ hi)

/-- The field checks of R365, under the port configuration in force. -/
def layoutChecks (code : Nat) (o : Bytes) : List (Nat × Nat × Bool) :=
  [(0, stUnsupported, fieldOf o 0 1 != 1), (1, stInvalid, fieldOf o 1 1 == 0 || decide (16 ≤ fieldOf o 1 1)),
   (2, stBounds, fieldOf o 2 1 == 1), (3, stBounds, between (fieldOf o 3 1) 1 4 || decide (91 ≤ fieldOf o 3 1)),
   (4, stBounds, between (fieldOf o 4 2) 601 65534), (6, stBounds, between (fieldOf o 6 1) 49 254),
   (7, stInvalid, decide (2 ≤ fieldOf o 7 1)), (8, stBounds, decide (2 ^ 20 < fieldOf o 8 4)),
   (14, stInvalid, fieldOf o 14 1 != 0), (15, stInvalid, fieldOf o 15 1 != 0), (32, stCount, decide (8 < fieldOf o 32 1))] ++
  [(33, stInvalid, fieldOf o 33 31 != 0)] ++
  (List.range 8).flatMap (interleaveChecks o) ++ (List.range 32).flatMap (functionChecks code o)

/-- The bytes of DRAM that a layout takes on one of its dies (R16, R242, R243): the granules that its regions reserve on
the die's four stacks, and the die's share of the pool. -/
def Layout.loadOf (y : Layout) (die : Nat) : Nat :=
  y.framesPerDie * 65536 + ((List.range 4).map (fun i =>
    2048 * (y.regions.map (fun r => y.regionGranules r (4 * die + i))).foldl (· + ·) 0)).foldl (· + ·) 0

/-- The sums of R16 and R243 in their order: status and offset. -/
def Layout.sumFail (y : Layout) : Option (Nat × Nat) :=
  if 252 * y.dieList.length < y.volatileGib + y.poolGib then some (stBounds, 24)
  else if (y.regions.map (·.gib)).foldl (· + ·) 0 ≠ y.volatileGib then some (stBounds, 24)
  else match y.regions.zipIdx.find? (fun r => r.1.mode == 1 && !y.hasDie r.1.die) with
    | some r => some (stPartition, 65 + 8 * r.2)
    | none => if y.dieList.any (fun i => decide (252 * gib < y.loadOf i)) then some (stBounds, 24) else none

/-! ## Other partitions -/

/-- The layouts in force. -/
def Dev.layouts (d : Dev) : Tab Layout := d.parts.filterMap (fun (e : Nat × Part) => e.2.layout.map (fun y => (e.1, y)))

/-- What a giver keeps when a layout takes functions and units. -/
def Layout.without (z y : Layout) : Layout :=
  { z with
    agateUnits := (List.range 16).foldl (fun n i => if bitOf z.agateUnits i && !bitOf y.agateUnits i then n + 2 ^ i else n) 0
    functions := z.functions.filter (fun e => !(y.functions.any (fun x => x.1 == e.1))) }

/-- Whether a layout takes something of another. -/
def Layout.takes (y z : Layout) : Bool :=
  z.functions.any (fun e => y.functions.any (fun x => x.1 == e.1)) ||
    (List.range 16).any (fun i => bitOf y.agateUnits i && bitOf z.agateUnits i)

/-- The layouts after `p` has been given `y`. -/
def Dev.layoutsWith (d : Dev) (p : Nat) (y : Layout) : Tab Layout :=
  Tab.put (d.layouts.map (fun (e : Nat × Layout) => (e.1, e.2.without y))) p y

/-- The partitions that give something up to `p`. -/
def Dev.givers (d : Dev) (p : Nat) (y : Layout) : List Nat :=
  (d.layouts.filter (fun (e : Nat × Layout) => e.1 != p && y.takes e.2)).map (·.1)

/-- Whether a partition is idle, but for a command (R369). -/
def Dev.idle (d : Dev) (p h : Nat) : Bool :=
  !((d.part p).pipes.any (fun e => e.2.run.isSome)) &&
    !(d.host.live.any (fun e => e.1 != h && e.2.owned && e.2.part == p)) &&
    !(d.engines.any (fun (e : Nat × Engine) => e.2.sessions.any (fun v => v.2.part == p && (!v.2.frames.isEmpty ||
      e.2.coding.elim false (fun k => k.session == v.1))))) &&
    (match (d.part p).state with
      | .scrubbing _ _ => false
      | _ => true)

/-- Whether a partition's open sessions meet R312 under a layout. -/
def Dev.sharesMet (d : Dev) (p : Nat) (y : Layout) : Bool :=
  (List.range 4).all (fun j =>
    let u := ({ Part.reset with layout := some y } : Part).units j
    let mine := ((d.engine j).sessions.filter (fun v => v.2.part == p)).map (·.2.obj)
    !shareExceeded mine u && decide (mine.length ≤ 4 * u))

/-- The queue pairs that a set of layouts gives the functions of a port configuration (R346). -/
def queuePairs (ls : Tab Layout) (code : Nat) : Nat :=
  ((List.range (65 * portsOf code)).map (fun f =>
    match (ls.flatMap (fun (e : Nat × Layout) => e.2.functions)).find? (fun x => x.1 == f) with
    | some x => x.2
    | none => if f = adminFn then 64 else 1)).foldl (· + ·) 0

/-- Sums a field over some layouts. -/
def sumOver (ls : Tab Layout) (f : Layout → Nat) : Nat := (ls.map (fun (e : Nat × Layout) => f e.2)).foldl (· + ·) 0

/-- R369's own checks: a die of another partition, or a fixed field of a configured partition that differs. -/
def Dev.fixedChecks (d : Dev) (p : Nat) (y : Layout) : List (Nat × Nat × Bool) :=
  match (d.part p).layout with
  | none => [(1, stInvalid, y.dieList.any (fun i => (d.ownerOfDie i).isSome))]
  | some z =>
    [(1, stInvalid, y.dies != z.dies), (16, stInvalid, y.unifiedGib != z.unifiedGib), (20, stInvalid, y.storeGib != z.storeGib),
     (24, stInvalid, y.volatileGib != z.volatileGib), (28, stInvalid, y.poolGib != z.poolGib),
     (32, stInvalid, y.regions.length != z.regions.length)] ++
    (List.range 8).map (fun i => (64 + 8 * i, stInvalid, y.regions[i]? != z.regions[i]?))

/-- Everything that rejects a layout object, in the order of R365, R369 and R370. -/
def Dev.layoutFail (d : Dev) (code p : Nat) (o : Bytes) : Option (Nat × Nat) :=
  let y := layoutOf o
  let ls := d.layoutsWith p y
  match firstFail (layoutChecks code o) with
  | some f => some f
  | none => match firstFail (d.fixedChecks p y) with
    | some f => some f
    | none => match y.sumFail with
      | some f => some f
      | none =>
        if 56 * 1024 < sumOver ls (fun z => z.unifiedGib + z.storeGib) then some (stBounds, 16)
        else if 65536 < queuePairs ls code then some (stBounds, 128)
        else if 2 ^ 20 < sumOver ls (·.handleQuota) then some (stBounds, 8)
        else if !(ls.any (fun (e : Nat × Layout) => e.2.functions.any (fun x => x.1 == adminFn))) then some (stInvalid, 128)
        else none

/-- Whether everything a layout affects is idle and keeps its sessions' shares (R369, R370). -/
def Dev.layoutBusy (d : Dev) (p h : Nat) (y : Layout) : Bool :=
  !d.idle p h || (d.givers p y).any (fun q => !d.idle q h) ||
    (d.layoutsWith p y).any (fun (e : Nat × Layout) => (e.1 == p || (d.givers p y).contains e.1) && !d.sharesMet e.1 e.2)

/-! ## The effect -/

/-- A function leaves its partition as though it had departed; no cause of R401 stands for this. -/
def Dev.leavePart (d : Dev) (f : Nat) : Dev :=
  let r := d.draw
  r.2.departFn f (r.1 % 256)

/-- A function whose host was there arrives without a grace time. -/
def Dev.arriveFn (d : Dev) (f : Nat) : Dev :=
  let d := d.modFn f (fun x => { x with attached := true, awaiting := false })
  match d.ownerOfFn f with
  | some p => d.modPart p (fun x => { x with state := .attached, everAttached := true })
  | none => d

/-- The functions whose partition changes when `p` is given `y`. -/
def Dev.movedFns (d : Dev) (p : Nat) (y : Layout) : List Nat :=
  ((y.functions.map (·.1)).filter (fun f => d.ownerOfFn f != some p)) ++
    ((d.part p).fnList.filter (fun f => !(y.functions.any (fun x => x.1 == f))))

/-- Takes some functions through a change of layout. -/
def Dev.moving (d : Dev) (fns : List Nat) (change : Dev → Dev) : Dev :=
  let here := fns.filter (fun f => (d.fn f).attached || (d.fn f).awaiting)
  here.foldl (fun (d : Dev) f => d.arriveFn f) (change (fns.foldl (fun (d : Dev) f => d.leavePart f) d))

/-- Creates a partition: the instance advances, the generation is 0 (R369, R375). -/
def Dev.createPart (d : Dev) (ep p : Nat) (y : Layout) : Dev :=
  (d.modPart p (fun x => { x with inst := x.inst + 1, gen := 0, oldGen := none })).configure ep p y

/-- No line of some stacks is kept any more (R249). -/
def Dev.unkeepStacks (d : Dev) (ss : List Nat) : Dev :=
  ss.foldl (fun (d : Dev) s => d.modStack s (fun st => { st with lines := st.lines.map (fun e => (e.1, { e.2 with keep := false })) })) d

/-- Puts a layout in force; one that changes the keep quota clears every keep bit of the partition (R249). -/
def Dev.layDown (d : Dev) (ep p : Nat) (y : Layout) : Dev :=
  let d := (d.givers p y).foldl (fun (d : Dev) q => d.modPart q (fun x => { x with layout := x.layout.map (·.without y) })) d
  match (d.part p).layout with
  | none => d.createPart ep p y
  | some z =>
    let d := if z.keepQuota = y.keepQuota then d else d.unkeepStacks y.stackList
    d.modPart p (fun x => { x with layout := some y })

/-- The module configuration area holds the layouts in force (R368). -/
def State.storeLayouts (s : State) : State :=
  if s.plat.up then { s with plat := { s.plat with layouts := s.dev.layouts } } else s

/-- A PARTITION_SET: its effect on the device, and the record of the layout. -/
def partitionSet (h : Nat) (form : Cmd → Bool) (s : State) (act : Cmd → Dev → Dev) : State :=
  (whenUp s (fun d => d.onCmd h 0x10 form act)).storeLayouts

/-- The command's own fields. -/
def setChecks (c : Cmd) : List (Nat × Nat × Bool) :=
  [(28, stInvalid, decide (3 < c.field 28 1)), (29, stInvalid, decide (2 < c.field 29 1))] ++ rsvBytes c [(30, 34)]

/-- Fields that delete and end grace leave 0. -/
def noObject (c : Cmd) : List (Nat × Nat × Bool) :=
  [(16, stInvalid, c.field 16 8 != 0), (24, stInvalid, c.field 24 4 != 0)]

/-- PARTITION_SET op 0: CONFIGURE. An op above 2 is refused here. -/
def execPartitionSetConfigure (h : Nat) (data : Bytes) (s : State) : Host.Outcome State Fault Refusal :=
  .next (partitionSet h (fun c => c.field 29 1 != 1 && c.field 29 1 != 2) s (fun c d =>
    let n := c.field 24 4
    let p := c.field 28 1
    d.checked h ([(24, stBounds, n != 0 && n != 256)] ++ setChecks c) (fun d =>
      if n = 0 then d.complete h stOK 0 0
      else if s.plat.committing.isSome then d.complete h stBusy 0 0
      else d.withObject h c n data (fun o d =>
        let y := layoutOf o
        match d.layoutFail s.plat.portNow p o with
        | some f => d.failObj h f.1 f.2
        | none =>
          if d.layoutBusy p h y then d.failAt h stBusy 28
          else (d.complete h stOK 0 0).moving (d.movedFns p y) (fun d => d.layDown s.plat.fuseEpoch p y)))))

/-- PARTITION_SET op 1: DELETE; the command completes after the scrub. -/
def execPartitionSetDelete (h : Nat) (s : State) : Host.Outcome State Fault Refusal :=
  .next (partitionSet h (fun c => c.field 29 1 == 1) s (fun c d =>
    let p := c.field 28 1
    d.checked h (noObject c ++ setChecks c ++ [(28, stInvalid, (d.part p).layout.isNone || (d.part p).fnList.contains adminFn)])
      (fun d =>
        if s.plat.committing.isSome then d.complete h stBusy 0 0
        else if !d.idle p h then d.failAt h stBusy 28
        else (d.running h).scrub s.plat.fuseEpoch p (some h) true)))

/-- Whether a partition is departed. -/
def PartState.isDeparted : PartState → Bool
  | .departed _ => true
  | _ => false

/-- PARTITION_SET op 2: END GRACE. The scrub starts; the command completes. -/
def execPartitionSetEndGrace (h : Nat) (s : State) : Host.Outcome State Fault Refusal :=
  .next (partitionSet h (fun c => c.field 29 1 == 2) s (fun c d =>
    let p := c.field 28 1
    d.checked h (noObject c ++ setChecks c ++ [(28, stInvalid, !(d.part p).state.isDeparted)])
      (fun d =>
        if s.plat.committing.isSome then d.complete h stBusy 0 0
        else if !d.idle p h then d.failAt h stBusy 28
        else (d.complete h stOK 0 0).scrub s.plat.fuseEpoch p none false)))

/-! ## Grace time and scrub (R343, R345) -/

/-- GRACE_EXPIRY: the grace time ends at its instant, and the scrub starts. -/
def execGraceExpiry (p : Nat) (s : State) : Host.Outcome State Fault Refusal :=
  onUnit (decide (p < 4)) (whenUp s (fun d =>
    match (d.part p).state, (d.part p).layout with
    | .departed t, some y => (d.reach (d.now + (t + y.graceS * 10 ^ 9 - d.tc p))).scrub s.plat.fuseEpoch p none false
    | _, _ => d))

/-- MANAGEMENT_END_GRACE. -/
def execManagementEndGrace (p : Nat) (s : State) : Host.Outcome State Fault Refusal :=
  onUnit (decide (p < 4)) (whenUp s (fun d =>
    if (d.part p).state.isDeparted then d.scrub s.plat.fuseEpoch p none false else d))

/-- A partition that leaves the layout keeps its instance and its count of imports. -/
def Part.removed (x : Part) : Part := { Part.reset with inst := x.inst, importCount := x.importCount }

/-- The end of a scrub: the hosts that wait attach as first arrivals, or the partition leaves the layout and its
PARTITION_SET completes. -/
def Dev.scrubEnds (d : Dev) (p : Nat) : Dev :=
  match (d.part p).state with
  | .scrubbing h del =>
    let d :=
      if del then d.moving (d.part p).fnList (fun d => d.modPart p Part.removed)
      else
        let d := d.modPart p (fun x => { x with state := .attached, everAttached := false })
        let d := (d.modEvent { EventRec.blank 0x000A 4 8 with partition := p, d0 := p }).queueEvent adminFn 0x000A p 0
        ((d.part p).fnList.filter (fun f => (d.fn f).awaiting)).foldl (fun (d : Dev) f => d.arriveFn f) d
    match h with
    | some h => d.complete h stOK 0 0
    | none => d
  | _ => d

/-- SCRUB_COMPLETE. -/
def execScrubComplete (p : Nat) (s : State) : Host.Outcome State Fault Refusal :=
  onUnit (decide (p < 4)) (whenUp s (fun d => d.scrubEnds p)).storeLayouts

end Sys2Proof.Machine
end

