-- ==== Sys2Proof/Machine/Keys.lean ====
section
/-!
DEFINITION. Attestation, SPDM sessions, imported keys, weights, key rotation and the debug unlock (R340, R372 to
R388). Carnelian's standard functions are the uninterpreted functions of Config.
-/

namespace Sys2Proof.Machine

/-! ## Carnelian's identity (R373, R374, R379) -/

/-- The customisation strings of KMAC256, by number. -/
def csAlias : Nat := 2
/-- "P16-WRAP". -/
def csWrap : Nat := 8
/-- "P16-RESUME". -/
def csResume : Nat := 9

/-- The ten firmware digests of a running module. The boot ROM and the coefficient ROM are silicon; the
configuration area is measured at each boot and its layout is not known. -/
def Plat.digest (x : Plat) (i : Nat) : Bytes :=
  sliceOf (match i with
    | 0 => Config.fwDigest [] 0
    | 7 => Config.fwDigest [] 7
    | 9 => Config.fwDigest (natLE 32 x.challenge) 9
    | i => Config.fwDigest x.fwRunning.image i) 0 64

/-- fw_digest[0] to fw_digest[9]. -/
def Plat.digests (x : Plat) : List Bytes := (List.range 10).map x.digest

/-- The seed of the alias key pair of this boot (R374). -/
def Plat.aliasSeed (x : Plat) : Bytes :=
  Config.kmac256 Config.fuseUds (natLE 4 x.fuseEpoch ++ Config.sha3 (x.digests.flatMap id)) 256 csAlias

/-- fuse_state: UDS, SRK and LRK programmed, debug locked, no admin_port fuse. -/
def fuseState : Nat := 0xF

/-- The digest of an image, or zeros where there is none. -/
def imageDigest : Option Bytes → Bytes
  | some b => sliceOf (Config.sha3 b) 0 64
  | none => List.replicate 64 0

/-- program_digest (R379). -/
def Part.programDigest (x : Part) : Bytes :=
  sliceOf (Config.sha3 ((List.range 256).flatMap (fun i => imageDigest (Tab.find x.programs i)))) 0 64

/-- The digests of the 64 micro-program slots (R141). -/
def Part.microDigests (x : Part) : List Bytes := (List.range 64).map (fun i => imageDigest (Tab.find x.micro i))

/-- A layout as a PARTITION_SET object, every value written out. -/
def Layout.object (y : Layout) : Bytes :=
  sliceOf (sliceOf (natLE 1 1 ++ natLE 1 y.dies ++ natLE 1 y.holdLimit ++ natLE 1 y.dirtyPct ++ natLE 2 y.graceS ++ natLE 1 y.keepQuota ++
      natLE 1 (b2n y.ideRequired) ++ natLE 4 y.handleQuota ++ natLE 4 y.agateUnits ++ natLE 4 y.unifiedGib ++ natLE 4 y.storeGib ++
      natLE 4 y.volatileGib ++ natLE 4 y.poolGib ++ natLE 1 y.regions.length) 0 64 ++
    sliceOf (y.regions.flatMap (fun r => natLE 4 (r.mode + 256 * r.die) ++ natLE 4 r.gib)) 0 64 ++
    y.functions.flatMap (fun e => natLE 4 (e.1 + 2 ^ 9 + e.2 * 2 ^ 10))) 0 256

/-- The summary of a partition in every report. -/
def Part.summary (x : Part) : Bytes :=
  match x.layout with
  | some y => sliceOf (natLE 1 1 ++ natLE 1 y.dies ++ natLE 2 y.agateUnits ++ natLE 1 y.functions.length ++ natLE 1 (b2n y.ideRequired)) 0 32
  | none => List.replicate 32 0

/-- Report bytes 768 to 5,311: what measurement index 12 hashes. -/
def Dev.reportBody (d : Dev) (p : Nat) : Bytes :=
  let x := d.part p
  x.programDigest ++ x.microDigests.flatMap id ++ (x.layout.map Layout.object).getD (List.replicate 256 0) ++
    (List.range 4).flatMap (fun q => (d.part q).summary)

/-- The size of a report: 6,880 bytes, the chain, and the signature. -/
def reportBytes : Nat := 6880 + Config.certChain.length + 4627

/-- The debug bits of a report: opened in this boot, ever opened. -/
def Plat.debugBits (x : Plat) : Nat := 2 * b2n (x.debugOpen != 0) + 4 * b2n (0 < x.fuseEpoch)

/-- The report up to its signature (R379). -/
def Dev.report (d : Dev) (x : Plat) (p importId seed : Nat) (nonce : Bytes) : Bytes :=
  let y := d.part p
  natLE 1 1 ++ natLE 1 p ++ natLE 1 y.gen ++ natLE 1 (b2n y.oldGen.isSome + x.debugBits + 8 * b2n (x.boot == .recovery)) ++
    natLE 4 reportBytes ++ natLE 8 Config.serial ++ natLE 8 (d.tc p) ++ natLE 4 x.fuseEpoch ++ natLE 4 y.inst ++ sliceOf nonce 0 32 ++
    natLE 8 fuseState ++ natLE 1 1 ++ natLE 1 Config.fwMinor ++ natLE 2 Config.certChain.length ++ natLE 4 importId ++
    List.replicate 48 0 ++ x.digests.flatMap id ++ d.reportBody p ++ sliceOf (Config.mlKemEk seed) 0 1568 ++ Config.certChain

/-- What the signature of a report covers: bytes 0 to 6,879 + chain_bytes − 1, as R380 has it. -/
def signedPart (body : Bytes) : Bytes := body.take (6879 + Config.certChain.length)

/-- What a command that needs Carnelian does once it has failed (R390). -/
def Dev.withCarnelian (d : Dev) (h : Nat) (act : Dev → Dev) : Dev :=
  if d.carnelian then act d else d.complete h stDeviceFault 0 0

/-- Adds an import key; Carnelian keeps the four most recent (R379). -/
def Part.addImport (x : Part) (seed : Nat) : Part :=
  { x with importCount := x.importCount + 1, importKeys := ((x.importCount + 1, seed) :: x.importKeys).take 4 }

/-- ATTEST. -/
def execAttest (h : Nat) (s : State) : Host.Outcome State Fault Refusal :=
  runCmd h 0x80 anyForm s (fun c d =>
    let n := c.field 24 4
    let p := c.part
    d.checked h (rsvBytes c [(28, 4)]) (fun d =>
      if n = 0 then d.complete h stOK 0 0
      else d.withCarnelian h (fun d => d.withOut h c 16 n (fun put d =>
        if n < reportBytes then d.complete h stBounds reportBytes (locus 0 0 24)
        else
          let r := d.draw
          let d := r.2.modPart p (fun x => x.addImport r.1)
          let body := d.report s.plat p (d.part p).importCount r.1 ((c.bytes.drop 32).take 32)
          (put (body ++ sliceOf (Config.mlDsaSign s.plat.aliasSeed (signedPart body) 1) 0 4627) d).complete h stOK reportBytes 0))))

/-! ## SPDM (R381 to R383) -/

/-- Whether the transport of a request exists. -/
def spdmUnit : SpdmSrc → Bool
  | .doe n => decide (n < 4)
  | .mctp => true
  | .fn f => decide (f < fnCount)

/-- The function of a transport: a mailbox's is its port's PF. -/
def spdmFn : SpdmSrc → Option Nat
  | .doe n => some (65 * n)
  | .mctp => none
  | .fn f => some f

/-- The number that stands for no function in a session of the management controller. -/
def noFn : Nat := fnCount

/-- The partition that a transport's sessions belong to. -/
def Dev.spdmPart (d : Dev) (src : SpdmSrc) : Option Nat := (spdmFn src).bind d.ownerOfFn

/-- Answers a request. -/
def Dev.answer (d : Dev) (r : SpdmReply) : Dev := { d with spdmReply := some r }

/-- An SPDM request that reaches the module: Carnelian serves it, or an ERROR answers it. -/
def onSpdm (src : SpdmSrc) (s : State) (act : Dev → Dev) : Host.Outcome State Fault Refusal :=
  onUnit (spdmUnit src) (whenUp s (fun d =>
    if (spdmFn src).elim false (fun f => !(d.fn f).present) then d
    else if d.carnelian then act d else d.answer .error))

/-- The sessions that a transport's requests belong to: its function's partition's, or the management
controller's. -/
def Dev.sessionsOf (d : Dev) (src : SpdmSrc) : List Spdm :=
  match src, d.spdmPart src with
  | .mctp, _ => d.mctp
  | _, some p => (d.part p).sessions
  | _, none => []

/-- Replaces them. -/
def Dev.setSessions (d : Dev) (src : SpdmSrc) (l : List Spdm) : Dev :=
  match src, d.spdmPart src with
  | .mctp, _ => { d with mctp := l }
  | _, some p => d.modPart p (fun x => { x with sessions := l })
  | _, none => d

/-- Adds a session at the place of the most recently used; a ninth ends the least recently used (R381). -/
def addSession (l : List Spdm) (v : Spdm) : List Spdm := l.drop (l.length - 7) ++ [v]

/-- The secure sessions of a transport's function. -/
def Dev.secureSessions (d : Dev) (src : SpdmSrc) : List Spdm :=
  (d.sessionsOf src).filter (fun v => v.secure && v.fn == (spdmFn src).getD noFn)

/-- A session that a request uses is the most recently used: the newest secure one of the transport (R381). -/
def Dev.touchSession (d : Dev) (src : SpdmSrc) : Dev :=
  match (d.secureSessions src).getLast? with
  | some v => d.setSessions src ((d.sessionsOf src).erase v ++ [v])
  | none => d

/-- Whether a transport has somewhere to keep a session. -/
def Dev.hasSessions (d : Dev) (src : SpdmSrc) : Bool := src == .mctp || (d.spdmPart src).isSome

/-- The newest session of a transport's function in a phase of its setting up. -/
def Dev.opening (d : Dev) (src : SpdmSrc) (resuming : Bool) : Option Spdm :=
  (d.sessionsOf src).reverse.find? (fun v => v.fn == (spdmFn src).getD noFn && !v.secure && v.resuming == resuming)

/-- A signature of the alias key over a transcript, which the SPDM standard forms. -/
def Dev.spdmSign (d : Dev) (x : Plat) : Bytes × Dev :=
  let r := d.freeBytes 64
  (Config.mlDsaSign x.aliasSeed r.1 0, r.2)

/-- GET_VERSION: SPDM 1.3. -/
def execGetVersion (src : SpdmSrc) (s : State) : Host.Outcome State Fault Refusal := onSpdm src s (fun d => d.answer .version)

/-- GET_CAPABILITIES. -/
def execGetCapabilities (src : SpdmSrc) (s : State) : Host.Outcome State Fault Refusal :=
  onSpdm src s (fun d => d.answer .capabilities)

/-- The algorithms the module offers (R381). -/
def offered : Nat := 0xF

/-- NEGOTIATE_ALGORITHMS: a requester that cannot use what is offered gets an ERROR. -/
def execNegotiateAlgorithms (src : SpdmSrc) (algs : Nat) (s : State) : Host.Outcome State Fault Refusal :=
  onSpdm src s (fun d => d.answer (if algs % 16 = offered then .algorithms offered else .error))

/-- GET_DIGESTS. -/
def execGetDigests (src : SpdmSrc) (s : State) : Host.Outcome State Fault Refusal :=
  onSpdm src s (fun d => d.answer (.digests (Config.sha3 Config.certChain)))

/-- GET_CERTIFICATE. -/
def execGetCertificate (src : SpdmSrc) (s : State) : Host.Outcome State Fault Refusal :=
  onSpdm src s (fun d => d.answer (.certificate Config.certChain))

/-- The measurements 1 to 12 (R382). A requester without a partition has zeros in place of its report. -/
def Dev.measurements (d : Dev) (x : Plat) (src : SpdmSrc) : List Bytes :=
  x.digests ++ [natLE 8 fuseState ++ natLE 1 x.debugBits, match d.spdmPart src with
    | some p => sliceOf (Config.sha3 (d.reportBody p)) 0 64
    | none => List.replicate 64 0]

/-- GET_MEASUREMENTS: signed with the alias key. -/
def execGetMeasurements (src : SpdmSrc) (nonce : Bytes) (s : State) : Host.Outcome State Fault Refusal :=
  onSpdm src s (fun d =>
    let v := d.measurements s.plat src
    d.answer (.measurements v (Config.mlDsaSign s.plat.aliasSeed (v.flatMap id ++ nonce) 0)))

/-- KEY_EXCHANGE: encapsulates to the requester's key; a session begins. -/
def execKeyExchange (src : SpdmSrc) (ek : Bytes) (s : State) : Host.Outcome State Fault Refusal :=
  onSpdm src s (fun d =>
    if !d.hasSessions src then d.answer .error
    else
      let r := d.draw
      let k := Config.mlKemEncaps ek r.1
      let d := r.2.setSessions src (addSession (d.sessionsOf src) ⟨0, (spdmFn src).getD noFn, false, k.2, false⟩)
      let g := d.spdmSign s.plat
      g.2.answer (.keyExchange k.1 g.1))

/-- Makes a session secure under a fresh tag, and records its resumption secret in place of the record it
resumes (R383). -/
def Dev.secureSession (d : Dev) (src : SpdmSrc) (v : Spdm) : Nat × Dev :=
  let r := d.draw
  let tag := r.1 % 2 ^ 64
  let t := r.2.freeBytes 64
  let d := t.2.setSessions src ((d.sessionsOf src).erase v ++ [{ v with tag := tag, secure := true, resuming := false }])
  let keep := fun (x : Part) => x.resumes.filter (fun e => !(v.resuming && e.fn == v.fn && e.tag == v.tag))
  (tag, match d.spdmPart src with
    | some p => d.modPart p (fun x => { x with resumes := keep x ++ [⟨v.fn, tag, Config.kmac256 v.secret t.1 256 csResume⟩] })
    | none => d)

/-- FINISH: `verified` says whether the requester's check value is right. -/
def execFinish (src : SpdmSrc) (verified : Bool) (s : State) : Host.Outcome State Fault Refusal :=
  onSpdm src s (fun d =>
    match d.opening src false, verified with
    | some v, true =>
      let r := d.secureSession src v
      r.2.answer (.finished r.1)
    | _, _ => d.answer .error)

/-- Whether a session of a partition may be resumed now: before the end of its grace time (R344, R383). -/
def Dev.graceOpen (d : Dev) (p : Nat) : Bool :=
  match (d.part p).state with
  | .attached => true
  | .departed t => decide (d.tc p < t + (((d.part p).layout.map (·.graceS)).getD 0) * 10 ^ 9)
  | .scrubbing _ _ => false

/-- The record that a tag and a secret resume. -/
def Part.resumeRec (x : Part) (f tag : Nat) : Option Resume := x.resumes.find? (fun e => e.fn == f && e.tag == tag)

/-- PSK_EXCHANGE. -/
def execPskExchange (src : SpdmSrc) (tag : Nat) (psk : Bytes) (s : State) : Host.Outcome State Fault Refusal :=
  onSpdm src s (fun d =>
    let f := (spdmFn src).getD noFn
    match d.spdmPart src with
    | none => d.answer .error
    | some p => match (d.part p).resumeRec f tag with
      | some e =>
        if e.secret = psk ∧ d.graceOpen p then
          (d.setSessions src (addSession (d.sessionsOf src) ⟨tag, f, false, psk, true⟩)).answer .pskExchange
        else d.answer .error
      | none => d.answer .error)

/-- PSK_FINISH: a resumption that succeeds reattaches its function (R344). -/
def execPskFinish (src : SpdmSrc) (verified : Bool) (s : State) : Host.Outcome State Fault Refusal :=
  onSpdm src s (fun d =>
    let f := (spdmFn src).getD noFn
    match d.opening src true, d.spdmPart src with
    | some v, some p =>
      if verified ∧ d.graceOpen p ∧ ((d.part p).resumeRec f v.tag).isSome then
        let r := d.secureSession src v
        let d := if (r.2.fn f).awaiting then r.2.reattach f else r.2
        d.answer (.finished r.1)
      else (d.setSessions src ((d.sessionsOf src).erase v)).answer .error
    | _, _ => d.answer .error)

/-- Whether a transport has a secure session. -/
def Dev.secureOf (d : Dev) (src : SpdmSrc) : Bool := !(d.secureSessions src).isEmpty

/-- The number of the link IDE stream of a port, after its eight selective streams (R340). -/
def linkStream : Nat := 8

/-- IDE_KM: within a secure session, through the mailbox of the port, it makes a stream secure: a selective stream
covering a function, or the port's link stream. -/
def execIdeKm (src : SpdmSrc) (fn stream : Nat) (s : State) : Host.Outcome State Fault Refusal :=
  onSpdm src s (fun d =>
    if src ≠ .doe (portOf fn) ∨ !d.secureOf src ∨ !(d.fn fn).present ∨ linkStream < stream then d.answer .error
    else if stream = linkStream then ((d.touchSession src).modPort (portOf fn) (fun x => { x with linkIde := true })).answer .accepted
    else ((d.touchSession src).modFn fn (fun x => { x with ide := if x.ide.contains stream then x.ide else x.ide ++ [stream] })).answer .accepted)

/-- IDE_STREAM_LEAVES_SECURE. -/
def execIdeStreamLeavesSecure (port stream : Nat) (s : State) : Host.Outcome State Fault Refusal :=
  onUnit (decide (port < 4)) (whenUp s (fun d =>
    if stream = linkStream then d.modPort port (fun x => { x with linkIde := false })
    else (d.presentOn port).foldl (fun (d : Dev) f => d.modFn f (fun x => { x with ide := x.ide.filter (· != stream) })) d))

/-- SESSION_OPEN: carries one SPDM request, whose effect is that request's own row. The response's bytes and their
number belong to the SPDM standard. -/
def execSessionOpen (h : Nat) (data : Bytes) (s : State) : Host.Outcome State Fault Refusal :=
  runCmd h 0x81 anyForm s (fun c d =>
    let n := c.field 24 4
    let m := c.field 28 4
    d.checked h (rsvBytes c [(40, 24)]) (fun d =>
      if n = 0 ∨ m = 0 then d.complete h stOK 0 0
      else d.withCarnelian h (fun d => d.withObject h c n data (fun _ d => d.withOut h c 32 m (fun put d =>
        let r := d.draw
        if m < r.1 then r.2.complete h stBounds r.1 (locus 0 0 28)
        else
          let b := r.2.freeBytes r.1
          (put b.1 b.2).complete h stOK r.1 0)))))

/-! ## Imported keys (R384, R385) -/

/-- The slot that a key handle names, if the handle is live. -/
def Part.keyOf (x : Part) (handle : Nat) : Option KeySlot :=
  (Tab.find x.keys (handle % 256)).bind (fun k => if k.live && k.reuse == handle / 256 then some k else none)

/-- A KEY_IMPORT whose object has been read, for the ops of one row; the other row's objects leave the command as
it is. -/
def keyCmd (h : Nat) (data : Bytes) (s : State) (mine : Nat → Bool) (act : Cmd → Nat → Bytes → Dev → Dev) :
    Host.Outcome State Fault Refusal :=
  runCmd h 0x82 anyForm s (fun c d =>
    let n := c.field 24 4
    d.checked h (rsvBytes c [(28, 36)]) (fun e =>
      if n = 0 then e.complete h stOK 0 0
      else e.withCarnelian h (fun e => e.withObject h c n data (fun o e =>
        if mine (fieldOf o 1 1) then act c n o e else d))))

/-- The checks of the import form. -/
def importChecks (o : Bytes) : List (Nat × Nat × Bool) :=
  [(0, stUnsupported, fieldOf o 0 1 != 1), (1, stInvalid, fieldOf o 1 1 != 0), (2, stInvalid, decide (2 ≤ fieldOf o 2 1)),
   (3, stInvalid, fieldOf o 3 1 != 0), (16, stInvalid, fieldOf o 16 16 != 0), (1612, stInvalid, fieldOf o 1612 4 != 0)]

/-- The model key of an import object: decapsulated and unwrapped (R384). -/
def Part.unwrap (x : Part) (p : Nat) (o : Bytes) : Option Bytes :=
  let id := fieldOf o 4 4
  (x.importKeys.find? (fun e => e.1 == id)).bind (fun e =>
    (Config.mlKemDecaps e.2 (sliceOf o 32 1568)).bind (fun ss =>
      let kek := Config.kmac256 ss (natLE 4 id ++ natLE 1 p ++ sliceOf o 8 8) 256 csWrap
      Config.gcmOpen kek (sliceOf o 1600 12) (sliceOf o 0 32) (sliceOf o 1616 32) (sliceOf o 1648 16)))

/-- The first key slot that holds no key. -/
def Part.freeKey (x : Part) : Option Nat :=
  (List.range 256).find? (fun i => !((Tab.find x.keys i).elim false (·.live)))

/-- KEY_IMPORT op 0: IMPORT. An op above 1 is refused here. -/
def execKeyImport (h : Nat) (data : Bytes) (s : State) : Host.Outcome State Fault Refusal :=
  keyCmd h data s (· != 1) (fun c n o d =>
    let p := c.part
    let x := d.part p
    if n ≠ 1664 then d.failAt h stBounds 24
    else match firstFail (importChecks o) with
      | some f => d.failObj h f.1 f.2
      | none => match x.unwrap p o with
        | none => d.failObj h stAuth 4
        | some key => match x.freeKey with
          | none => d.complete h stCount 0 0
          | some i =>
            let reuse := (Tab.find x.keys i).elim 0 (fun k => (k.reuse + 1) % 2 ^ 24)
            (d.modPart p (fun x => { x with keys := Tab.put x.keys i ⟨key, bitOf (fieldOf o 2 1) 0, reuse, true⟩ })).complete
              h stOK (i + 256 * reuse) 0)

/-- KEY_IMPORT op 1: ERASE. -/
def execKeyImportErase (h : Nat) (data : Bytes) (s : State) : Host.Outcome State Fault Refusal :=
  keyCmd h data s (· == 1) (fun c n o d =>
    let x := d.part c.part
    let k := fieldOf o 4 4
    if n < 16 ∨ 1664 < n then d.failAt h stBounds 24
    else match firstFail ([(0, stUnsupported, fieldOf o 0 1 != 1), (2, stInvalid, decide (2 ≤ fieldOf o 2 1)), (3, stInvalid, fieldOf o 3 1 != 0),
        (4, stInvalid, (x.keyOf k).isNone), (4, stAuth, x.regions.any (fun e => e.2.key == some k))] ++
        (List.range (n - 16)).map (fun i => (16 + i, stInvalid, fieldOf o (16 + i) 1 != 0))) with
      | some f => d.failObj h f.1 f.2
      | none => (d.modPart c.part (fun x => { x with keys := x.keys.map (fun e =>
          (e.1, if e.1 = k % 256 then { e.2 with live := false, sealKey := false, key := [] } else e.2)) })).complete h stOK 0 0)

/-- Whether a partition's programs are sealed (R386). -/
def Part.sealed (x : Part) : Bool := x.keys.any (fun e => e.2.live && e.2.sealKey)

/-! ## Weights (R386) -/

/-- WEIGHTS_BIND: reads the ciphertext and its tag; Carnelian decrypts them next. -/
def execWeightsBind (h : Nat) (data : Bytes) (s : State) : Host.Outcome State Fault Refusal :=
  runCmd h 0x30 anyForm s (fun c d =>
    let x := d.part c.part
    let n := c.field 24 8
    let r := Tab.find x.regions (c.field 32 4)
    d.checked h ([(24, stBounds, n != 0 && decide (n < 16)), (24, stBounds, r.elim false (fun r => decide (r.bytes + 16 < n))),
        (32, stInvalid, r.isNone), (36, stAuth, (x.keyOf (c.field 36 4)).isNone)] ++ rsvBytes c [(52, 12)]) (fun d =>
      if n = 0 then d.complete h stOK 0 0
      else d.withCarnelian h (fun d => d.withObject h c n data (fun o d =>
        d.modCmd h (fun c => { c with phase := .running, data := o })))))

/-- The plaintext of a binding, or none for a tag that fails or a key that is gone. -/
def Part.decrypt (x : Part) (c : Cmd) : Option Bytes :=
  let n := c.data.length - 16
  (x.keyOf (c.field 36 4)).bind (fun k =>
    Config.gcmOpen k.key ((c.bytes.drop 40).take 12) [] (c.data.take n) (c.data.drop n))

/-- The plaintext of a binding goes to its region, which becomes a weight region. The pages of a unified one are made resident
first, since they are pinned from the bind (R270); links and base dies are waited for as for any write from the I/O die. -/
def Dev.bindRegion (d : Dev) (p h i : Nat) (r : MemRegion) (text : Bytes) (key : Nat) : Dev :=
  let die := (d.part p).dieList.headD 0
  let cold := (d.part p).coldPages r.addr r.bytes
  let way := d.ioWay p r.addr text.length
  if !cold.isEmpty then cold.foldl (fun (d : Dev) g => d.startMigrOn p g die true true (fun x => x.pickFrame die)) d
  else if text.length ≠ 0 ∧ way = 2 then (d.zeroExtent p r.addr r.bytes).complete h stDeviceFault 0 0
  else if text.length ≠ 0 ∧ (way = 1 ∨ d.extentHeld p r.addr text.length ∨ d.staleExtent p r.addr text.length) then d
  else d.ifAffords (((d.engineWrite p r.addr text).modPart p (fun x => { x with
    regions := Tab.put x.regions i { r with key := some key } })).complete h stOK 0 0)

/-- WEIGHTS_BIND_COMPLETE: the region becomes a weight region, resident if it is unified, or it is zeroed. -/
def execWeightsBindComplete (h : Nat) (s : State) : Host.Outcome State Fault Refusal :=
  .next (whenUp s (fun d => match d.cmd h with
    | none => d
    | some c =>
      if c.op ≠ 0x30 ∨ c.phase ≠ .running then d
      else
        let p := c.part
        let i := c.field 32 4
        match Tab.find (d.part p).regions i with
        | none => d.complete h stInvalid 0 (locus 0 0 32)
        | some r => match (d.part p).decrypt c with
          | none => (d.zeroExtent p r.addr r.bytes).complete h stAuth 0 0
          | some text => d.bindRegion p h i r (text.take r.bytes) (c.field 36 4)))

/-! ## Rotation (R376, R377) -/

/-- KEY_ROTATE: staged for the next commit. -/
def execKeyRotate (h : Nat) (s : State) : Host.Outcome State Fault Refusal :=
  runCmd h 0x83 anyForm s (fun c d =>
    d.checked h (rsvBytes c [(16, 48)]) (fun d => d.withCarnelian h (fun d =>
      if (d.part c.part).oldGen.isSome then d.complete h stBusy 0 0
      else (d.modPart c.part (fun x => { x with staged := x.staged ++ [.rotate h c.window] })).running h)))

/-- Sectors after the sweep: those of generation `old` are rewritten into open blocks, which firmware chooses, and all are
under generation `new`; what is durable of them stays so. -/
def sweptSectors (t : Tier) (seed old new : Nat) (tab : Tab Sector) : Tab Sector :=
  tab.map (fun e => (e.1, { e.2 with
    gen := new, block := if e.2.gen = old then t.place (Config.freeNat (seed + e.1 / 16)) (e.1 % 16) else e.2.block }))

/-- Flash sectors that the sweep writes: the old unified sectors, and the old store pages whole. They count as writes (R378). -/
def Part.sweepWrites (x : Part) (old : Nat) : Nat :=
  let of_ := fun (t : Tab Sector) => (t.filter (fun e => e.2.gen == old)).map (·.1)
  (of_ x.sectors).length + 16 * ((of_ x.storeSectors).map (· / 16)).dedup.length

/-- SWEEP_COMPLETE: every tag unit, sector and store page is under the new generation and the old keys are erased. It waits
for the conversions that writes wait for. -/
def execSweepComplete (p : Nat) (s : State) : Host.Outcome State Fault Refusal :=
  onUnit (decide (p < 4)) (whenUp s (fun d =>
    let x := d.part p
    let sts := x.dieList.flatMap (fun i => (List.range 4).map (· + 4 * i))
    let old := x.oldGen.elim 0 (·.1)
    if x.oldGen.isNone ∨ sts.any (fun t => !(d.stack t).conv.isEmpty) then d
    else
      let q := (d.program (x.sweepWrites old)).draw
      let d := sts.foldl (fun (d : Dev) t => d.modStack t (fun st => { st with tags := [] })) q.2
      d.modPart p (fun x => { x with
        oldGen := none
        sectors := sweptSectors d.tier q.1 old x.gen x.sectors
        storeSectors := sweptSectors d.tier (q.1 + 1) old x.gen x.storeSectors
        seqs := x.seqs.map (fun e => (e.1, { e.2 with
          entries := e.2.entries.map (fun y => (y.1, { y.2 with keyGen := x.gen })) })) })))

/-! ## Debug unlock (R387, R388) -/

/-- DEBUG_UNLOCK_TOKEN: over a secure session of the management controller; the token is recorded if its key, signature,
serial, challenge and target all check. -/
def execDebugUnlockToken (body key sig : Bytes) (s : State) : Host.Outcome State Fault Refusal :=
  .next (if s.plat.up then
    let x := s.plat
    let ok := s.dev.carnelian && s.dev.mctp.any (·.secure) && decide (x.fuseEpoch < 32) && Config.sha3 key == Config.fuseDebugAuth &&
      Config.mlDsaVerify key body sig && body.length == 64 && fieldOf body 0 1 == 1 && fieldOf body 8 8 == Config.serial &&
      (body.drop 16).take 32 == natLE 32 x.challenge && fieldOf body 52 4 == x.fuseEpoch + 1
    if ok then { s with plat := { x with debugToken := some (fieldOf body 48 1 % 16) }, dev := (s.dev.touchSession .mctp).answer .accepted }
    else s.onDev (fun d => d.answer .error)
  else s)

end Sys2Proof.Machine
end

