-- ==== Sys2Proof/Machine/Firmware.lean ====
section
/-!
DEFINITION. The firmware store: FW_UPDATE, PLDM firmware update and boot ROM recovery (R341, R417 to R419).
-/

namespace Sys2Proof.Machine

/-- The largest image. -/
def maxImage : Nat := 33554432
/-- Bytes of an image chunk in ROM recovery. -/
def chunkBytes : Nat := 65536

/-- Whether an image's signature and security version allow it (R417). -/
def Plat.accepts (x : Plat) (image : Bytes) : Bool :=
  Config.firmwareSigned image && decide (x.secVersion ≤ Config.firmwareVersion image % 2 ^ 16)

/-- An image with the version that it carries. -/
def imageOf (image : Bytes) : FwImage := ⟨Config.firmwareVersion image % 2 ^ 16, image⟩

/-- A FW_UPDATE that has been fetched and may start. -/
def State.onFw (s : State) (h : Nat) (form : Cmd → Bool) (act : Cmd → State → State) : State :=
  if s.plat.up then
    match s.dev.cmd h with
    | some c => if c.op = 0x92 ∧ form c ∧ c.phase = .fetched ∧ s.dev.startable h c then act c s else s
    | none => s
  else s

/-- The end of a stage whose image has been read. -/
def State.stageImage (s : State) (h : Nat) (image : Bytes) : State :=
  if s.plat.accepts image then
    { s with plat := { s.plat with fwStaged := some (imageOf image) }, dev := s.dev.complete h stOK 0 0 }
  else s.onDev (fun d => d.complete h stAuth 0 0)

/-- FW_UPDATE op 0: STAGE. An op above 1 is refused here. -/
def execFwUpdateStage (h : Nat) (data : Bytes) (s : State) : Host.Outcome State Fault Refusal :=
  .next (s.onFw h (fun c => c.field 28 1 != 1) (fun c s =>
    let n := c.field 24 4
    let d := s.dev.checked h ([(24, stBounds, decide (maxImage < n)), (28, stInvalid, c.field 28 1 != 0)] ++ rsvBytes c [(29, 35)]) (fun d =>
      if n = 0 then d.complete h stOK 0 0
      else if s.plat.committing.isSome then d.complete h stBusy 0 0
      else d.withObject h c n data (fun o d => d.modCmd h (fun c => { c with phase := .running, data := o })))
    let t := { s with dev := d }
    match d.cmd h with
    | some c => if c.phase = .running then t.stageImage h c.data else t
    | none => t))

/-- FW_UPDATE op 1: COMMIT. The store's image area is erased and written. -/
def execFwUpdateCommit (h : Nat) (s : State) : Host.Outcome State Fault Refusal :=
  .next (s.onFw h (fun c => c.field 28 1 == 1) (fun c s =>
    match firstFail (rsvBytes c [(29, 35)] ++ [(28, stInvalid, s.plat.fwStaged.isNone)]) with
    | some f => s.onDev (fun d => d.failAt h f.1 f.2)
    | none =>
      if s.plat.committing.isSome then s.onDev (fun d => d.complete h stBusy 0 0)
      else { s with plat := { s.plat with committing := some (some h) }, dev := s.dev.running h }))

/-- Completes the command of a commit, if it is still live. -/
def Dev.commitDone (d : Dev) (owner : Option Nat) (status : Nat) : Dev :=
  match owner with
  | some h => match d.cmd h with
    | some c => if c.op = 0x92 ∧ c.phase = .running then d.complete h status 0 0 else d
    | none => d
  | none => d

/-- FW_COMMIT_COMPLETE: the read-back verifies and the security version is recorded, or no image is left (R418). -/
def execFwCommitComplete (ok : Bool) (s : State) : Host.Outcome State Fault Refusal :=
  .next (match s.plat.up, s.plat.committing, s.plat.fwStaged with
    | true, some owner, some image =>
      if ok then
        { s with
          plat := { s.plat with committing := none, fwStored := some image, secVersion := max s.plat.secVersion image.version }
          dev := s.dev.commitDone owner stOK }
      else
        { s with
          plat := { s.plat with committing := none, fwStored := none }
          dev := s.dev.commitDone owner stDeviceFault }
    | _, _, _ => s)

/-- Whether the boot ROM takes an action now. -/
def Plat.romReady (x : Plat) : Bool := x.boot == .recovery && x.powered && x.rom.busy == 0

/-- PLDM_FIRMWARE_UPDATE: staged and committed as FW_UPDATE does, or in ROM recovery written and verified. -/
def execPldmFirmwareUpdate (image : Bytes) (s : State) : Host.Outcome State Fault Refusal :=
  .next (
    let x := s.plat
    if maxImage < image.length then s
    else if x.up then
      if x.committing.isNone && x.accepts image then
        { s with plat := { x with fwStaged := some (imageOf image), committing := some none } }
      else s
    else if x.romReady then
      { s with plat := { x with rom := { x.rom with
          image := Mem.write [] 0 image, chunks := ceilDiv image.length chunkBytes, busy := 2 } } }
    else s)

/-- A write of ROM_REC_CTRL by the admin function. -/
def onRom (f : Nat) (s : State) (act : RomRec → RomRec) : Host.Outcome State Fault Refusal :=
  onUnit (decide (f < fnCount)) (if f = adminFn ∧ s.plat.romReady then { s with plat := { s.plat with rom := act s.plat.rom } } else s)

/-- ROM_REC_WRITE: the buffer becomes chunk `chunk` of the image. -/
def execRomRecWrite (f chunk : Nat) (s : State) : Host.Outcome State Fault Refusal :=
  onRom f s (fun r => { r with chunk := chunk % 2 ^ 9, busy := 1 })

/-- ROM_REC_FINISH: the whole image is verified. -/
def execRomRecFinish (f : Nat) (s : State) : Host.Outcome State Fault Refusal := onRom f s (fun r => { r with busy := 2 })

/-- ROM_REC_ABORT: the chunks written are discarded. -/
def execRomRecAbort (f : Nat) (s : State) : Host.Outcome State Fault Refusal := onRom f s (fun r => { r with chunks := 0, image := [] })

/-- The end of a chunk write. -/
def RomRec.chunkDone (r : RomRec) (ok : Bool) : RomRec :=
  if ok then
    { r with
      busy := 0
      result := stOK
      chunks := r.chunks + 1
      image := Mem.write r.image (r.chunk * chunkBytes) (Mem.read r.buffer 0 chunkBytes) }
  else { r with busy := 0, result := stDeviceFault }

/-- The image that recovery has written. -/
def RomRec.bytes (r : RomRec) : Bytes := Mem.read r.image 0 (r.chunks * chunkBytes)

/-- ROM_REC_ACTION_DONE: a chunk is written, or the image verifies and the module resets, or it is refused. -/
def execRomRecActionDone (ok : Bool) (s : State) : Host.Outcome State Fault Refusal :=
  .next (
    let x := s.plat
    if x.boot ≠ .recovery ∨ !x.powered then s
    else match x.rom.busy with
      | 0 => s
      | 1 => { s with plat := { x with rom := x.rom.chunkDone ok } }
      | _ =>
        if !ok then { s with plat := { x with rom := { x.rom with busy := 0, result := stDeviceFault } } }
        else if x.accepts x.rom.bytes then
          ({ s with plat := { x with
              fwStored := some (imageOf x.rom.bytes)
              secVersion := max x.secVersion (imageOf x.rom.bytes).version
              rom := { x.rom with busy := 0, result := stOK, verified := true } } } : State).reboot
        else { s with plat := { x with rom := { x.rom with busy := 0, result := stAuth } } })

end Sys2Proof.Machine
end

