-- ==== Sys2Proof/Machine/Reads.lean ====
section
/-!
DEFINITION. LEDGER_READ and TELEMETRY_READ (R132, R133, R363, R398 to R402).
-/

namespace Sys2Proof.Machine

/-! ## The ledger (R132) -/

/-- A ledger record of 64 bytes; a launched collective has no pipeline number. -/
def LedgerRec.bytes (r : LedgerRec) : Bytes :=
  natLE 8 r.stamp ++ natLE 8 (r.window.getD ones64) ++ natLE 1 r.kind ++ natLE 1 (if r.pipeline < 16 then r.pipeline else 0xFF) ++ natLE 2 r.stage ++ natLE 2 r.core ++
    natLE 2 0 ++ natLE 4 r.debugTag ++ natLE 2 r.word ++ natLE 2 0 ++ sliceOf r.detail 0 32

/-- The 128-byte counter block. -/
def Ledger.block (l : Ledger) : Bytes := sliceOf ((List.range 9).flatMap (fun i => natLE 8 (Tab.getD l.counters i 0))) 0 128

/-- The closed records that a read with room for `room` returns. -/
def Ledger.returned (l : Ledger) (room : Nat) : List LedgerRec := (l.recs.filter (·.window.isSome)).take room

/-- A list without the first `n` elements that meet a test. -/
def dropFirst {α : Type} (test : α → Bool) : Nat → List α → List α
  | _, [] => []
  | 0, l => l
  | n + 1, x :: l => if test x then dropFirst test n l else x :: dropFirst test (n + 1) l

/-- The ledger once `n` closed records have been freed; the EVENTs of R133 may come again below their levels. -/
def Ledger.freed (l : Ledger) (n : Nat) : Ledger :=
  let recs := dropFirst (fun (r : LedgerRec) => r.window.isSome) n l.recs
  { l with
    recs := recs
    threeQuarter := l.threeQuarter && decide (786432 ≤ recs.length)
    full := l.full && decide (ledgerSize - ledgerReserved ≤ recs.length) }

/-- LEDGER_READ. -/
def execLedgerRead (h : Nat) (s : State) : Host.Outcome State Fault Refusal :=
  runCmd h 0x90 anyForm s (fun c d =>
    let n := c.field 24 4
    d.checked h ([(24, stAlign, n % 64 != 0)] ++ rsvBytes c [(28, 36)]) (fun d =>
      d.withOut h c 16 n (fun put d =>
        if n < 128 then d.complete h stBounds 128 (locus 0 0 24)
        else
          let l := (d.part c.part).ledger
          let got := l.returned ((n - 128) / 64)
          let left := (l.recs.filter (·.window.isSome)).length - got.length
          let d := put (l.block ++ got.flatMap LedgerRec.bytes) d
          (d.modPart c.part (fun x => { x with ledger := x.ledger.freed got.length })).complete h stOK got.length left)))

/-! ## Telemetry (R398 to R402) -/

/-- A stage timing record (R399). -/
def Timing.bytes (t : Timing) : Bytes :=
  natLE 8 t.window ++ natLE 8 t.release ++ natLE 8 t.done ++ natLE 4 t.claimed ++ natLE 4 t.escalated ++ natLE 4 t.narrow ++
    natLE 2 t.core ++ natLE 1 t.late ++ natLE 1 t.policy ++ natLE 8 t.causes.escalation ++ natLE 8 t.causes.stream ++
    natLE 8 t.causes.cold ++ natLE 8 t.causes.link ++ natLE 8 t.causes.halo ++ natLE 8 t.causes.steal ++ natLE 8 0

/-- An event record (R400). -/
def EventRec.bytes (e : EventRec) : Bytes :=
  natLE 8 e.stamp ++ natLE 8 (e.window.getD ones64) ++ natLE 8 e.seq ++ natLE 2 e.code ++ natLE 1 e.cls ++ natLE 1 e.block ++
    natLE 1 e.partition ++ natLE 1 e.status ++ natLE 2 e.unit ++ natLE 8 e.handle ++ natLE 2 e.core ++ natLE 2 e.word ++
    natLE 4 e.debugTag ++ natLE 8 e.d0 ++ natLE 8 e.d1

/-- The repair fields of a cluster (R78). -/
def Cluster.repair (x : Cluster) : Bytes := natLE 2 x.coreMap ++ natLE 1 x.spare ++ natLE 1 (b2n x.suspect)

/-- The counts of a link in one direction (R401). -/
def Link.counts (x : Link) (l dir : Nat) : Bytes :=
  let n := fun (t : Tab Nat) => natLE 8 (Tab.getD t dir 0)
  natLE 1 l ++ natLE 1 dir ++ natLE 6 0 ++ n x.crc ++ n x.replays ++ n x.runs ++ natLE 8 x.retrains ++ n x.payload

/-- The record of a micro-program slot. -/
def microRecord (slot : Nat) (image : Option Bytes) : Bytes :=
  match image with
  | some b => natLE 1 slot ++ natLE 1 (fieldOf b 1 1) ++ natLE 2 0 ++ natLE 4 (fieldOf b 8 4) ++ imageDigest (some b)
  | none => List.replicate 72 0

/-- The departure record of a function. -/
def Fn.departure (x : Fn) (f : Nat) : Bytes :=
  natLE 2 f ++ natLE 1 x.cause ++ natLE 1 0 ++ natLE 4 x.dropped ++ natLE 8 x.departAt ++ natLE 8 x.lastHandle ++ natLE 8 0

/-- The stacks of a partition. -/
def Part.stackList (x : Part) : List Nat := x.dieList.flatMap (fun i => (List.range 4).map (· + 4 * i))

/-- Stack-local tag units of a stack (R253). -/
def tagUnits : Nat := 64 * 2 ^ 30 / 16384

/-- What the sweep has left (R402). -/
def Dev.sweepLeft (d : Dev) (p : Nat) : Nat × Nat × Nat :=
  let x := d.part p
  match x.oldGen with
  | none => (0, 0, 0)
  | some o =>
    let old := fun (t : Tab Sector) => (t.filter (fun e => e.2.gen == o.1)).map (·.1)
    ((x.stackList.map (fun t => tagUnits - ((d.stack t).tags.filter (fun e => e.2 != o.1)).length)).foldl (· + ·) 0,
     (old x.sectors).length, ((old x.storeSectors).map (· / 16)).dedup.length)

/-- Corrections by SECDED in the scratchpads and cluster memories of a partition's dies (R52). -/
def Dev.sramFixed (d : Dev) (p : Nat) : Nat :=
  ((d.part p).dieList.flatMap (fun i => (List.range 64).map (fun c => (d.core (64 * i + c)).eccFixed) ++
    (List.range 8).map (fun c => (d.cluster (8 * i + c)).eccFixed))).foldl satAdd 0

/-- A counter of class 6 by its index. -/
def Dev.class6 (d : Dev) (p i : Nat) : Nat :=
  let left := d.sweepLeft p
  match i with
  | 23 => (d.part p).oldGen.elim ones64 (·.1)
  | 24 => left.1
  | 25 => left.2.1
  | 26 => left.2.2
  | 10 => satAdd (Tab.getD (d.part p).counters 10 0) (d.sramFixed p)
  | i => Tab.getD (d.part p).counters i 0

/-- The records of a class, with the size of one. -/
def Dev.telemetry (d : Dev) (p cls sel : Nat) : Nat × List Bytes :=
  let x := d.part p
  match cls with
  | 0 => (96, ((Tab.find x.pipes (sel / 64)).elim [] (fun y => Tab.getD y.timings (sel % 64) [])).map Timing.bytes)
  | 1 => (64, (if sel = 1 then d.modEvents.recs else x.events.recs).map EventRec.bytes)
  | 2 => (4, x.clusterList.map (fun cl => (d.cluster cl).repair))
  | 3 => (48, ((List.range 10).filter (fun l => d.linkOwner l == some p)).flatMap (fun l =>
      [(d.link l).counts l 0, (d.link l).counts l 1]))
  | 4 => (72, (List.range 64).map (fun i => microRecord i (Tab.find x.micro i)))
  | 5 => (32, x.fnList.map (fun f => (d.fn f).departure f))
  | 6 => (8, (List.range 27).map (fun i => natLE 8 (d.class6 p i)))
  | _ => (32, x.stackList.map (fun t => natLE 1 t ++ natLE 7 0 ++ natLE 8 0 ++ natLE 8 0x40000000 ++
      natLE 8 ((x.layout.map (fun y => y.poolBase t)).getD 0)))

/-- Whether a selector names nothing in its class (R398, R399). -/
def Part.badSelector (x : Part) (cls sel : Nat) : Bool :=
  match cls with
  | 0 => decide (16 ≤ sel / 64) || (Tab.find x.pipes (sel / 64)).elim true (fun y => decide (y.stages.length ≤ sel % 64))
  | 1 => decide (1 < sel)
  | _ => sel != 0

/-- The header of a telemetry result. -/
def telemetryHeader (cls size n left stamp : Nat) : Bytes :=
  natLE 1 cls ++ natLE 1 1 ++ natLE 2 size ++ natLE 4 n ++ natLE 4 left ++ natLE 4 0 ++ natLE 8 stamp ++ natLE 8 0

/-- A read of class 1 frees the records it returns. -/
def Dev.freeEvents (d : Dev) (p cls sel n : Nat) : Dev :=
  if cls ≠ 1 then d
  else if sel = 1 then { d with modEvents := { d.modEvents with recs := d.modEvents.recs.drop n } }
  else d.modPart p (fun x => { x with events := { x.events with recs := x.events.recs.drop n } })

/-- TELEMETRY_READ. -/
def execTelemetryRead (h : Nat) (s : State) : Host.Outcome State Fault Refusal :=
  runCmd h 0x91 anyForm s (fun c d =>
    let n := c.field 24 4
    let cls := c.field 28 1
    let sel := c.field 30 2
    let p := c.part
    d.checked h ([(28, stInvalid, decide (7 < cls)), (29, stInvalid, c.field 29 1 != 0),
        (30, stInvalid, decide (cls ≤ 7) && (d.part p).badSelector cls sel), (30, stAuth, cls == 1 && sel == 1 && c.fn != adminFn)] ++
        rsvBytes c [(32, 32)]) (fun d =>
      if n = 0 then d.complete h stOK 0 0
      else d.withOut h c 16 n (fun put d =>
        if n < 32 then d.complete h stBounds 32 (locus 0 0 24)
        else
          let d := if cls = 6 then (d.part p).stackList.foldl (fun (d : Dev) t => d.countThrottle t) d else d
          let r := d.telemetry p cls sel
          let got := r.2.take ((n - 32) / r.1)
          let stamp := if cls = 1 ∧ sel = 1 then d.now else d.tc p
          let bs := telemetryHeader cls r.1 got.length (r.2.length - got.length) stamp ++ got.flatMap id
          ((put bs d).freeEvents p cls sel got.length).complete h stOK bs.length 0)))

end Sys2Proof.Machine
end

