-- ==== Sys2Proof/Machine/Loader.lean ====
section
/-!
DEFINITION. The loader: PIPELINE_SUBMIT's object and its checks, steps 1 to 13 of R171, and the recovery bound of
R43. A failure is a status and a locus (R172).
-/

namespace Sys2Proof.Machine

/-! ## The object (R365, R435) -/

/-- Section `k` of the object: 0 stages, 1 buffers, 2 halo, 3 groups, 4 collective records: offset. -/
def secOff (o : Bytes) (k : Nat) : Nat := fieldOf o (8 + 4 * k) 4
/-- Entries of a section. -/
def secCount (o : Bytes) (k : Nat) : Nat :=
  match k with
  | 0 => fieldOf o 1 1
  | 1 => fieldOf o 2 2
  | 2 => fieldOf o 4 2
  | 3 => fieldOf o 6 1
  | _ => fieldOf o 7 1
/-- Bytes of an entry. -/
def secSize (k : Nat) : Nat :=
  match k with
  | 0 => 128
  | 1 => 64
  | 2 => 32
  | 3 => 32
  | _ => 256
/-- Entry `i` of a section. -/
def secAt (o : Bytes) (k i : Nat) : Bytes := sliceOf o (secOff o k + secSize k * i) (secSize k)
/-- The entries of a section. -/
def secAll (o : Bytes) (k : Nat) : List Bytes := (List.range (secCount o k)).map (secAt o k)

/-- The cores of a 256-bit mask, ascending. -/
def maskCores (m : Bytes) : List Nat := (List.range 256).filter (fun c => bitOf (fieldOf m (c / 8) 1) (c % 8))

/-- A failure among the checks of one structure. -/
def inStruct (st i : Nat) (cs : List (Nat × Nat × Bool)) : Option (Nat × Nat) :=
  (firstFail cs).map (fun f => (f.1, locus st i f.2))

/-- The first failure among numbered structures. -/
def inEach (st : Nat) (l : List Bytes) (f : Nat → Bytes → List (Nat × Nat × Bool)) : Option (Nat × Nat) :=
  l.zipIdx.findSome? (fun e => inStruct st e.2 (f e.2 e.1))

/-- RSV fields of a structure, by offset and bytes: the locus is the field's offset (R5). -/
def rsvAt (b : Bytes) (spans : List (Nat × Nat)) : List (Nat × Nat × Bool) :=
  spans.map (fun s => (s.1, stInvalid, fieldOf b s.1 s.2 != 0))

/-- The header checks of R435, in their order. -/
def headerSteps (n : Nat) (o : Bytes) : Option (Nat × Nat) :=
  let count := fun (k off lo hi : Nat) => (off, stCount, decide (secCount o k < lo) || decide (hi < secCount o k))
  [inStruct 9 0 [(0, stUnsupported, fieldOf o 0 1 != 1)],
   inStruct 9 0 [count 0 1 1 64, count 1 2 0 256, count 2 4 0 256, count 3 6 0 16, count 4 7 0 64],
   inStruct 9 0 ((List.range 5).map (fun k => (8 + 4 * k, stAlign, secOff o k % 64 != 0))),
   inStruct 9 0 ((List.range 5).map (fun k => (8 + 4 * k, stBounds, decide (n < secOff o k + secCount o k * secSize k)))),
   inStruct 9 0 (rsvAt o [(28, 36)])].findSome? id

/-- RSV fields and enumerations of a stage descriptor. -/
def stageChecks (b : Bytes) : List (Nat × Nat × Bool) :=
  [(36, stInvalid, decide (1 < fieldOf b 36 1)), (38, stInvalid, decide (1 < fieldOf b 38 1))] ++
    rsvAt b ([(39, 1), (42, 2), (52, 12)] ++ (if fieldOf b 38 1 = 0 then [(64, 64)] else []))

/-- The cores of the stages of an object. -/
def objCores (o : Bytes) : List (List Nat) := (secAll o 0).map maskCores

/-- Steps 4 and 5 for one stage: its cores, and the cores of the stages before it. -/
def coreStep (x : Part) (all : List (List Nat)) (i : Nat) : Option (Nat × Nat) :=
  let mine := all.getD i []
  inStruct 1 i [(0, stPartition, mine.any (fun c => !x.hasDie (dieOfCore c))),
    (0, stInvalid, mine.any (fun c => (all.take i).any (fun l => l.contains c)))]

/-- The group table (R292). -/
def groupChecks (x : Part) (all : List Nat) (m : Bytes) : List (Nat × Nat × Bool) :=
  let g := maskCores m
  [(0, stPartition, g.any (fun c => !x.hasDie (dieOfCore c))), (0, stInvalid, g.isEmpty || g.any (fun c => !all.contains c))]

/-! ## Programs (R54, R55, R67, R83, R292) -/

/-- The program field of a stage descriptor. -/
def programChecks (x : Part) (b : Bytes) : List (Nat × Nat × Bool) :=
  let id := fieldOf b 32 4
  [(32, stBounds, decide (255 < id)), (32, stInvalid, !Tab.has x.programs id)]

/-- The header of a stage program. -/
def progHeader (g : Bytes) : List (Nat × Nat × Bool) :=
  let n := fieldOf g 2 2
  let late := fun off => decide (0 < n) && decide (n ≤ fieldOf g off 2)
  [(0, stUnsupported, decide (1 < fieldOf g 0 1)), (1, stInvalid, fieldOf g 1 1 != 0), (2, stBounds, decide (1023 < n)),
   (4, stBounds, late 4), (6, stBounds, late 6), (8, stBounds, decide (spBytes < fieldOf g 8 4))] ++ rsvAt g [(12, 52)]

/-- The operation words of a stage program. -/
def progWords (g : Bytes) : List Bytes := (List.range (fieldOf g 2 2)).map (fun i => sliceOf g (64 * (i + 1)) 64)

/-- A word that names group 2 in a pipeline that does not hold every core of its partition. -/
def wrongAll (whole : Bool) (w : Bytes) : Bool :=
  !whole && opClass w == 10 && (opCode w == 3 || opCode w == 4) && fieldOf w 40 1 == 2

/-- The checks of one word of a stage program: status and byte. -/
def wordFail (v : CheckEnv) (p8 whole : Bool) (w : Bytes) : Option (Nat × Nat) :=
  [checkWord v w, if p8 then firstFail (checkP8 w) else none, if wrongAll whole w then some (stInvalid, 40) else none].findSome? id

/-- The checks of the program of a stage. -/
def programFail (v : CheckEnv) (whole : Bool) (st : Nat) (g : Bytes) : Option (Nat × Nat) :=
  match inStruct 2 st (progHeader g) with
  | some f => some f
  | none => (progWords g).zipIdx.findSome? (fun e =>
      (wordFail { v with words := fieldOf g 2 2 } (fieldOf g 0 1 == 0) whole e.1).map (fun f => (f.1, locus 2 st (64 * (e.2 + 1) + f.2))))

/-! ## Escalation, tiling (R128, R153 to R157) -/

/-- Step 7. -/
def escChecks (b : Bytes) : List (Nat × Nat × Bool) :=
  let w := fieldOf b 48 4
  [(37, stInvalid, decide (1 < fieldOf b 37 1)), (40, stBounds, decide (1000 < fieldOf b 40 2)), (48, stAlign, w % 8 != 0),
   (48, stBounds, decide (userBytes < w + 8))]

/-- The tiling record of a stage descriptor, if it has one. -/
def tilingOf (b : Bytes) : Option Bytes := if fieldOf b 38 1 = 1 then some (sliceOf b 64 64) else none

/-- Step 8. -/
def dimChecks (o : Bytes) : List (Nat × Nat × Bool) :=
  [0, 4, 8].map (fun f => (f, stAlign, fieldOf o f 4 % 128 != 0))

/-- Step 9 up to the extents of tiles and super-tiles. -/
def tileSizeChecks (o : Bytes) : List (Nat × Nat × Bool) :=
  let s := tiSuper o
  let t := tiTile o
  let badTile := fun n => n == 0 || decide (64 < n)
  [(12, stBounds, s.1 == 0), (12, stAlign, s.1 % t.1 != 0), (14, stBounds, s.2 == 0), (14, stAlign, s.2 % t.2 != 0),
   (16, stBounds, badTile t.1), (17, stBounds, badTile t.2)]

/-- The rest of step 9. -/
def tileChecks (o : Bytes) : List (Nat × Nat × Bool) :=
  [(18, stInvalid, decide (5 < tiOrder o 0) || decide (5 < tiOrder o 1)),
   (19, stInvalid, decide (5 < fieldOf o 19 1)), (20, stAlign, tiClaim o % 128 != 0), (24, stAlign, tiSub o % 128 != 0)] ++
    rsvAt o [(28, 4), (62, 2)] ++
    (List.range 3).flatMap (fun l =>
      [(32 + 8 * l, stInvalid, tiOrder o l != 5 && tiList o l != 0), (56 + 2 * l, stInvalid, tiOrder o l != 5 && tiCount o l != 0)])

/-- Steps 8 and 9 for the records of every stage; too many tiles is reported at the dimensions, at byte 0, once the extents that
it is counted from pass (DEDUCED, log 51). -/
def tilingSteps (ts : List (Bytes × Nat)) : List (Option (Nat × Nat)) :=
  [ts.findSome? (fun e => inStruct 5 e.2 (dimChecks e.1)),
   ts.findSome? (fun e => [inStruct 5 e.2 (tileSizeChecks e.1), inStruct 5 e.2 [(0, stCount, decide (65536 < tiTiles e.1))],
     inStruct 5 e.2 (tileChecks e.1)].findSome? id)]

/-- Step 10, before the lists are read: counts and addresses. -/
def listChecks (x : Part) (o : Bytes) : List (Nat × Nat × Bool) :=
  (List.range 3).flatMap (fun l =>
    let g := tiGrid o l
    let n := tiCount o l
    if tiOrder o l = 5 then
      [(56 + 2 * l, stCount, n != g.1 * g.2 || decide (4096 < n)), (32 + 8 * l, stInvalid, wideAddr (tiList o l)),
        (32 + 8 * l, stPartition, x.extent (tiList o l) (4 * n) == .outside)]
    else [])

/-- The entries of an explicit list: each within the grid, none twice. -/
def entryFail (o : Bytes) (st l : Nat) (es : List Nat) : Option (Nat × Nat) :=
  let g := tiGrid o l
  es.zipIdx.findSome? (fun e => inStruct 6 (st * 4 + l) [
    (4 * e.2, stBounds, decide (g.1 ≤ e.1 % 2 ^ 16) || decide (g.2 ≤ e.1 / 2 ^ 16)),
    (4 * e.2, stInvalid, (es.take e.2).contains e.1)])

/-- The extents of the explicit lists of a record. -/
def listExtents (o : Bytes) : List (Nat × Nat) :=
  ((List.range 3).filter (fun l => tiOrder o l = 5)).map (fun l => (tiList o l, 4 * tiCount o l))

/-- Reads the explicit lists of a record; poisoned entries read as 0. -/
def Dev.readLists (d : Dev) (p : Nat) (o : Bytes) : List (List Nat) × Dev :=
  (List.range 3).foldl (fun (acc : List (List Nat) × Dev) l =>
    if tiOrder o l = 5 then
      let n := 4 * tiCount o l
      let r := acc.2.devRead p (tiList o l) n 0
      (acc.1 ++ [elemsOf 4 (plain r.1)], r.2.ioCarried p (tiList o l) n true)
    else (acc.1 ++ [[]], acc.2)) ([], d)

/-! ## Buffers and halo entries (R31, R45, R162) -/

/-- An inter-stage buffer descriptor. -/
def bufOf (b : Bytes) : Buf where
  producer := fieldOf b 0 2
  depth := fieldOf b 2 1
  space := fieldOf b 4 1
  cluster := bitsOf (fieldOf b 5 1) 4 3 * 8 + bitsOf (fieldOf b 5 1) 2 0
  base := fieldOf b 8 8
  slotBytes := fieldOf b 16 4
  cidx := fieldOf b 20 2
  consumers := (List.range (fieldOf b 3 1)).map (fun i => (fieldOf b (24 + 4 * i) 2, fieldOf b (26 + 4 * i) 1))

/-- The bytes of a buffer's slots. -/
def Buf.size (b : Buf) : Nat := b.depth * (128 + b.slotBytes)

/-- The clusters that hold a buffer's credit counters (R45). -/
def Buf.creditClusters (b : Buf) (cores : List (List Nat)) : List Nat :=
  (b.consumers.flatMap (fun c => (cores.getD c.1 []).map clusterOfCore)).dedup

/-- The buffers before one that share its memory. -/
def Buf.sameMemory (b a : Buf) : Bool := a.space == b.space && (b.space == 1 || a.cluster == b.cluster)

/-- Bytes of the memory that backs a buffer. -/
def Part.backing (x : Part) (b : Buf) : Nat :=
  if b.space = 1 then ((x.layout.map (·.volatileGib)).getD 0) * gib else userBytes

/-- Step 11 for one buffer. -/
def bufChecks (x : Part) (cores : List (List Nat)) (all : List Buf) (i : Nat) (o : Bytes) : List (Nat × Nat × Bool) :=
  let b := bufOf o
  let before := all.take i
  let n := fieldOf o 3 1
  [(0, stInvalid, decide (cores.length ≤ b.producer)), (2, stCount, decide (b.depth < 2) || decide (8 < b.depth)),
   (3, stCount, n == 0 || decide (8 < n)), (4, stInvalid, decide (1 < b.space)),
   (5, stInvalid, decide (32 ≤ fieldOf o 5 1) || (b.space == 1 && fieldOf o 5 1 != 0)),
   (5, stPartition, b.space == 0 && !x.hasDie (b.cluster / 8)),
   (8, stInvalid, b.space == 1 && (wideAddr b.base || x.extent b.base 1 == .unified)),
   (8, stPartition, b.space == 1 && x.extent b.base b.size == .outside),
   (16, stAlign, b.slotBytes % 128 != 0),
   (16, stBounds, decide (x.backing b < (before.filter b.sameMemory).foldl (fun m a => m + a.size) b.size)),
   (20, stBounds, decide (511 < b.cidx)),
   (20, stInvalid, before.any (fun a => a.cidx == b.cidx && (a.creditClusters cores).any (b.creditClusters cores).contains))] ++
    rsvAt o [(6, 2), (22, 2), (56, 8)] ++
    (List.range 8).flatMap (fun k =>
      let a := 24 + 4 * k
      if k < n then
        [(a, stInvalid, decide (cores.length ≤ fieldOf o a 2)),
         (a + 2, stCount, fieldOf o (a + 2) 1 == 0 || decide (b.depth ≤ fieldOf o (a + 2) 1)), (a + 3, stInvalid, fieldOf o (a + 3) 1 != 0)]
      else rsvAt o [(a, 4)])

/-- A halo table entry. -/
def haloOf (b : Bytes) : Halo where
  producer := fieldOf b 0 2
  consumer := fieldOf b 2 2
  delta := signed 8 (fieldOf b 4 1)
  wrap := bitOf (fieldOf b 5 1) 0
  slotBytes := fieldOf b 8 4
  stride := fieldOf b 12 4
  base := fieldOf b 16 4

/-- Step 12 for one entry. -/
def haloChecks (cores : List (List Nat)) (o : Bytes) : List (Nat × Nat × Bool) :=
  let h := haloOf o
  [(0, stInvalid, decide (cores.length ≤ h.producer)), (2, stInvalid, decide (cores.length ≤ h.consumer)),
   (2, stCount, (cores.getD h.producer []).length != (cores.getD h.consumer []).length),
   (4, stInvalid, h.delta == 0 || decide (h.delta < -64) || decide (64 < h.delta)), (5, stInvalid, decide (2 ≤ fieldOf o 5 1)),
   (8, stAlign, h.slotBytes % 128 != 0), (12, stAlign, h.stride % 128 != 0), (12, stBounds, decide (h.stride < 128 + 2 * h.slotBytes)),
   (16, stAlign, h.base % 128 != 0)] ++ rsvAt o [(6, 2), (20, 12)]

/-! ## Areas (R70, R158, R171 step 13) -/

/-- A user-region area: the structure that names it, its index and byte, its cluster, base and bytes. -/
structure Area where
  struct : Nat
  index : Nat
  off : Nat
  cluster : Nat
  base : Nat
  bytes : Nat
  deriving DecidableEq, Repr

/-- The areas of a pipeline: buffers, halo areas, maps. -/
def pipeAreas (cores : List (List Nat)) (bufs : List Buf) (halos : List Halo) (ts : List (Bytes × Nat)) : List Area :=
  (bufs.zipIdx.filter (fun e => e.1.space == 0)).map (fun e => ⟨3, e.2, 8, e.1.cluster, e.1.base, e.1.size⟩) ++
    halos.zipIdx.flatMap (fun e => (cores.getD e.1.consumer []).map (fun c =>
      ⟨4, e.2, 16, clusterOfCore c, e.1.base + c % 8 * e.1.stride, 128 + 2 * e.1.slotBytes⟩)) ++
    ts.flatMap (fun e =>
      let cl := clusterOfCore ((cores.getD e.2 []).headD 0)
      [⟨5, e.2, 20, cl, tiClaim e.1, claimBytes e.1⟩, ⟨5, e.2, 24, cl, tiSub e.1, subBytes e.1⟩])

/-- Whether two areas share a byte. -/
def Area.meets (a b : Area) : Bool := a.cluster == b.cluster && extentsMeet a.base a.bytes b.base b.bytes

/-- Step 13. -/
def areaStep (as : List Area) : Option (Nat × Nat) :=
  match as.find? (fun a => decide (userBytes < a.base + a.bytes)) with
  | some a => some (stBounds, locus a.struct a.index a.off)
  | none => (as.zipIdx.find? (fun e => (as.take e.2).any e.1.meets)).map (fun e => (stInvalid, locus e.1.struct e.1.index e.1.off))

/-! ## The pipeline -/

/-- The tiling records of an object with their stages. -/
def objTilings (o : Bytes) : List (Bytes × Nat) :=
  (secAll o 0).zipIdx.filterMap (fun e => (tilingOf e.1).map (fun t => (t, e.2)))

/-- The program of a stage descriptor. -/
def Part.programOf (x : Part) (b : Bytes) : Bytes := Tab.getD x.programs (fieldOf b 32 4) []

/-- Steps 1 to 9 of a submit, in their order. -/
def Part.submitSteps (x : Part) (c : Cmd) (o : Bytes) : Option (Nat × Nat) :=
  let cores := objCores o
  let all := cores.flatMap id
  let stages := secAll o 0
  let v : CheckEnv := ⟨none, x, 0, (secAll o 2).map haloOf, secCount o 3⟩
  let whole := (x.dieList.flatMap (fun i => (List.range 64).map (· + 64 * i))).all (fun k => all.contains k)
  ([headerSteps (c.field 24 4) o,
    inStruct 0 0 ([(28, stInvalid, decide (15 < c.field 28 1)), (29, stInvalid, decide (1 < c.field 29 1))] ++ rsvBytes c [(30, 34)]),
    inEach 1 stages (fun _ b => stageChecks b),
    inStruct 0 0 [(29, stUnsupported, c.field 29 1 == 0 && stages.any (fun b =>
      Tab.has x.programs (fieldOf b 32 4) && fieldOf (x.programOf b) 0 1 == 0))],
    inStruct 0 0 [(28, stBusy, decide (16 ≤ x.pipes.length) || Tab.has x.pipes (c.field 28 1))],
    inEach 1 stages (fun i _ => [(0, stCount, (cores.getD i []).isEmpty)]),
    (List.range cores.length).findSome? (coreStep x cores),
    inEach 7 (secAll o 3) (fun _ m => groupChecks x all m),
    inEach 1 stages (fun _ b => programChecks x b),
    stages.zipIdx.findSome? (fun e => programFail v whole e.2 (x.programOf e.1)),
    inEach 1 stages (fun _ b => escChecks b)] ++ tilingSteps (objTilings o)).findSome? id

/-- Steps 11 to 13 and the collective records (R294). -/
def Part.areaSteps (x : Part) (o : Bytes) : Option (Nat × Nat) :=
  let cores := objCores o
  let bufs := (secAll o 1).map bufOf
  [inEach 3 (secAll o 1) (bufChecks x cores bufs),
   inEach 4 (secAll o 2) (fun _ b => haloChecks cores b),
   areaStep (pipeAreas cores bufs ((secAll o 2).map haloOf) (objTilings o)),
   (secAll o 4).zipIdx.findSome? (fun e => (coFail x e.1).map (fun f => (f.1, locus 8 e.2 f.2)))].findSome? id

/-- Step 10: reads the explicit lists of every record, unless a count or an address fails. -/
def Dev.listStep (d : Dev) (p : Nat) (o : Bytes) : Option (Nat × Nat) × List (Nat × List (List Nat)) × Dev :=
  let ts := objTilings o
  match ts.findSome? (fun e => inStruct 5 e.2 (listChecks (d.part p) e.1)) with
  | some f => (some f, [], d)
  | none =>
    let r := ts.foldl (fun (acc : List (Nat × List (List Nat)) × Dev) e =>
      let l := acc.2.readLists p e.1
      (acc.1 ++ [(e.2, l.1)], l.2)) ([], d)
    (ts.findSome? (fun e => (List.range 3).findSome? (fun l =>
      entryFail e.1 e.2 l ((Tab.getD r.1 e.2 []).getD l []))), r.1, r.2)

/-- The device addresses that a word holds, as stored (R433). -/
def wordAddrs (w : Bytes) : List Nat :=
  match opClass w, opCode w with
  | 1, 1 => if bitOf (fieldOf w 45 1) 4 then [fieldOf w 32 8] else []
  | 6, 1 =>
    (if bitsOf (fieldOf w 48 1) 1 0 = 2 then [fieldOf w 16 8] else []) ++ (if bitsOf (fieldOf w 48 1) 3 2 = 2 then [fieldOf w 24 8] else [])
  | 6, 3 => [fieldOf w 16 8]
  | _, _ => []

/-- The device addresses of a collective record. -/
def coAddrs (o : Bytes) : List Nat :=
  (List.range (coRanks o)).flatMap (fun r =>
    (if coSrcBytes o r = 0 then [] else [coSrc o r]) ++ (if coDstBytes o r = 0 then [] else [coDst o r]))

/-- The stage that a descriptor describes. -/
def stageOf (b : Bytes) (lists : List (List Nat)) : Stage where
  cores := maskCores b
  program := fieldOf b 32 4
  absorb := fieldOf b 36 1 == 1
  layer := fieldOf b 37 1 == 1
  budgetPm := fieldOf b 40 2
  tiles := fieldOf b 44 4
  layerWord := fieldOf b 48 4
  tiling := (tilingOf b).map (fun t => ⟨t, lists.getD 0 [], lists.getD 1 [], lists.getD 2 []⟩)

/-- The pipeline that an object describes. -/
def Part.pipeOf (x : Part) (drain : Bool) (o : Bytes) (lists : List (Nat × List (List Nat))) : Pipe where
  stages := (secAll o 0).zipIdx.map (fun e => stageOf e.1 (Tab.getD lists e.2 []))
  bufs := (secAll o 1).map bufOf
  halos := (secAll o 2).map haloOf
  groups := (secAll o 3).map maskCores
  colls := secAll o 4
  drain := drain
  launched := false
  addrs := (secAll o 0).flatMap (fun b => (progWords (x.programOf b)).flatMap wordAddrs) ++ (secAll o 4).flatMap coAddrs ++
    (objTilings o).flatMap (fun t => ((List.range 3).filter (fun l => tiOrder t.1 l == 5)).map (tiList t.1))
  run := none
  timings := []

/-! ## What a pipeline can reach (R43) -/

/-- The cluster-memory endpoints of a word: the dies they lie on. -/
def wordDies (w : Bytes) : List Nat :=
  let at_ := fun v => (endpoint 1 v 0).cluster / 8
  match opClass w, opCode w with
  | 6, 1 =>
    (if bitsOf (fieldOf w 48 1) 1 0 = 1 then [at_ (fieldOf w 16 8)] else []) ++
      (if bitsOf (fieldOf w 48 1) 3 2 = 1 then [at_ (fieldOf w 24 8)] else [])
  | 6, 2 => if bitsOf (fieldOf w 56 1) 1 0 = 1 then [at_ (fieldOf w 48 8)] else []
  | 6, 4 => [at_ (fieldOf w 16 8)]
  | 7, _ => if bitOf (fieldOf w 18 1) 5 then [bitsOf (fieldOf w 18 1) 4 3] else []
  | 11, 3 => if bitsOf (fieldOf w 16 1) 1 0 = 2 then [at_ (fieldOf w 32 8)] else []
  | _, _ => []

/-- Whether a word names a sequence. -/
def namesSeq (w : Bytes) : Bool := opClass w == 9 || (opClass w == 6 && opCode w == 2)

/-- Whether an endpoint of a dma.copy in a space adds a base register. -/
def baseReg (w : Bytes) (space : Nat → Bool) : Bool :=
  opClass w == 6 && opCode w == 1 &&
    ((space (bitsOf (fieldOf w 48 1) 1 0) && bitOf (fieldOf w 49 1) 0) || (space (bitsOf (fieldOf w 48 1) 3 2) && bitOf (fieldOf w 49 1) 1))

/-- The words of a stage's program. -/
def Part.stageWords (x : Part) (y : Stage) : List Bytes := progWords (Tab.getD x.programs y.program [])

/-- Whether a pipeline can use a die link. -/
def Part.usesLink (x : Part) (y : Pipe) : Bool :=
  let dies := (y.cores.map dieOfCore).dedup
  decide (1 < x.dieList.length) &&
    (decide (1 < dies.length) || y.bufs.any (fun b => b.space == 1 || !(dies.contains (b.cluster / 8))) || !y.colls.isEmpty ||
      y.groups.any (fun g => decide (1 < (g.map dieOfCore).dedup.length)) ||
      y.stages.any (fun s => (x.stageWords s).any (fun w =>
        opClass w == 10 || !(wordAddrs w).isEmpty || namesSeq w || baseReg w (fun _ => true) || (wordDies w).any (fun i => !dies.contains i))))

/-- Whether a pipeline can touch the unified range or the store. -/
def Part.usesTier (x : Part) (y : Pipe) : Bool :=
  y.stages.any (fun s => (x.stageWords s).any (fun w =>
    namesSeq w || baseReg w (· == 2) || (wordAddrs w).any (fun a => decide (a < volBase))))

/-- The least allowance a pipeline runs under: four times the bounds of the layers it can reach (R391). -/
def Part.recoveryBound (x : Part) (y : Pipe) : Nat :=
  4 * (1000 + (if x.usesLink y then 43000 else 0) + (if x.usesTier y then 400000 else 0))

end Sys2Proof.Machine
end

