-- ==== Sys2Proof/Machine/Special.lean ====
section
/-!
DEFINITION. sf. operations: the argument u, the built-ins, and micro-programs (R93, R135 to R146).
-/

namespace Sys2Proof.Machine

/-! ## Micro-program images (R141 to R144) -/

/-- Bytes of an image. -/
def microBytes : Nat := 8192

/-- Table word `i` of an image. -/
def tableWord (img : Array Nat) (i : Nat) : Nat := natAt img (1024 + 4 * i) 4

/-- The 16-byte step word `i` of an image. -/
def stepAt (img : Bytes) (i : Nat) : Bytes := sliceOf img (64 + 16 * i) 16

/-- Whether a kind has a mode (R143); SELECT uses bit 0. -/
def kindMode (kind mode : Nat) : Bool :=
  match kind with
  | 1 => decide (mode ≤ 2)
  | 2 => mode == 0
  | 3 => decide (mode ≤ 1)
  | 4 => decide (mode ≤ 1)
  | 5 => decide (mode ≤ 2)
  | 6 => mode == 0
  | 7 => decide (mode ≤ 1)
  | _ => false

/-- The checks of one step word at byte `b` of the image (R144). A table index that the step never reads is not checked: B is
read by FMA, CLAMP and SELECT, C by CLAMP, by FMA in mode 0 and by SELECT's conditions 0 to 4 (R143). -/
def stepChecks (w : Bytes) (b : Nat) : List (Nat × Nat × Bool) :=
  let kind := fieldOf w 0 1
  let mode := fieldOf w 2 1
  let f3 := fieldOf w 3 1
  let deg := bitsOf f3 2 0
  let base := fieldOf w 8 2
  let lo := signed 8 (fieldOf w 10 1)
  let hi := signed 8 (fieldOf w 11 1)
  let usesB := kind == 5 || kind == 6 || kind == 7
  let usesC := kind == 6 || (kind == 5 && mode == 0) || (kind == 7 && decide (deg < 5))
  [(b, stUnsupported, decide (kind = 0) || decide (7 < kind)),
   (b + 2, stUnsupported, decide (1 ≤ kind) && decide (kind ≤ 7) && !kindMode kind mode),
   (b + 3, stInvalid, bitsOf f3 5 3 != 0),
   (b + 3, stInvalid, kind == 2 && (deg == 0 || decide (5 < deg))),
   (b + 4, stBounds, usesB && bitOf f3 6 && decide (1791 < fieldOf w 4 2)),
   (b + 6, stBounds, usesC && bitOf f3 7 && decide (1791 < fieldOf w 6 2)),
   (b + 8, stBounds, (kind == 2 && decide (1791 < base + 256 * (deg + 1) - 1)) ||
     (kind == 4 && decide (1791 < base + 255)) || (kind == 1 && mode == 1 && decide (1791 < base + 3))),
   (b + 10, stBounds, kind == 1 && mode == 0 && decide (lo < -126)),
   (b + 11, stBounds, kind == 1 && mode == 0 && (decide (hi < lo) || decide (14 < hi - lo)))]

/-- The checks of an image (R144): status and byte offset of the first failure. -/
def checkImage (img : Bytes) : Option (Nat × Nat) :=
  let n := fieldOf img 1 1
  firstFail (
    [(0, stUnsupported, fieldOf img 0 1 != 1), (1, stCount, decide (32 < n)),
     (2, stInvalid, !zeroAt img 2 6), (12, stInvalid, !zeroAt img 12 52)] ++
    (List.range (min n 32)).flatMap (fun i => stepChecks (stepAt img i) (64 + 16 * i)) ++
    ((List.range 32).filter (fun i => n ≤ i)).map (fun i => (64 + 16 * i, stInvalid, !zeroAt img (64 + 16 * i) 16)) ++
    [(576, stInvalid, !zeroAt img 576 448)])

/-- The working state of a lane (R142). -/
structure Lane where
  w0 : Nat
  w1 : Nat
  w2 : Nat
  w3 : Nat
  n : Int
  s : Nat
  deriving DecidableEq, Repr

/-- A working register. -/
def Lane.reg (l : Lane) (i : Nat) : Nat :=
  match i with
  | 0 => l.w0 | 1 => l.w1 | 2 => l.w2 | _ => l.w3

/-- Writes a working register. -/
def Lane.put (l : Lane) (i v : Nat) : Lane :=
  match i with
  | 0 => { l with w0 := v } | 1 => { l with w1 := v } | 2 => { l with w2 := v } | _ => { l with w3 := v }

/-- RANGE mode 0: the segment and local variable of |A| (R143). -/
def rangeSegment (lo hi : Int) (code : Nat) : Nat × Nat :=
  let neg := bitOf code 31
  let plus := if neg then 128 else 0
  match d32 code with
  | .nan => ((Config.openInt code).toNat % 256, fFP32.nanCode)
  | .inf _ => (127 + plus, r32 .near (.inf false))
  | .fin _ m e =>
    let v := Val.fin false m e
    if v.lt (.fin false 1 lo) then (plus, r32 .near v)
    else if (Val.fin false 1 (hi + 1)).le v then (127 + plus, r32 .near (Val.add .near v (.fin true 1 (hi + 1))))
    else
      let x := floorLog2 m e
      let j := (floorVal false m (e - (x - 3)) - 8).toNat
      ((1 + 8 * (x - lo) + (j : Int)).toNat + plus,
       r32 .near (Val.add .near v (.fin true (8 + j) (x - 3))))

/-- An integer cut to the signed 32 bits of n (R142). -/
def int32 (x : Int) : Int := signed 32 (x % 2 ^ 32).toNat

/-- RANGE mode 1: periodic reduction (R143). -/
def rangePeriodic (img : Array Nat) (base code : Nat) : Int × Nat × Nat :=
  let t := fun i => d32 (tableWord img (base + i))
  let n : Int := match (d32 code).mul (t 0) with
    | .fin neg m e =>
      let r := roundMag 4096 0 .near neg m e
      let k : Int := (r.1 * 2 ^ r.2.toNat : Nat)
      if k < 2 ^ 31 ∨ (neg ∧ k = 2 ^ 31) then (if neg then -k else k) else int32 (Config.openInt code)
    | _ => int32 (Config.openInt code)
  let sub := fun (x : Nat) i => r32 .near (Val.add .near (d32 x) ((vInt n).mul (t i)).neg)
  (n, (n % 4).toNat, sub (sub (sub code 1) 2) 3)

/-- RANGE mode 2: mantissa and exponent (R143). -/
def rangeMantissa (code : Nat) : Int × Nat × Nat :=
  match d32 code with
  | .fin _ m e =>
    if m = 0 then (0, 0, code)
    else
      let x := floorLog2 m e
      let j := (floorVal false m (e - x + 3) - 8).toNat
      (x, j, r32 .near (Val.add .near (.fin false m (e - x)) (.fin true (8 + j) (-3))))
  | .inf _ => (0, 0, code)
  | .nan => (int32 (Config.openInt code), (Config.openInt code).toNat % 256, fFP32.nanCode)

/-- POLY: Horner's rule, one rounding per degree (R143). -/
def polyStep (img : Array Nat) (base s deg a : Nat) : Nat :=
  let coef := fun i => tableWord img (base + s * (deg + 1) + i)
  (List.range deg).foldl (fun acc i => fma32 acc a (coef (deg - 1 - i))) (coef deg)

/-- The index of LUT mode 0 (R143). -/
def lutIndex (a imm : Nat) : Nat :=
  match (d32 a).mul (d32 imm) with
  | .nan => 0
  | .inf neg => if neg then 0 else 255
  | .fin neg m e => (max 0 (min 255 (floorVal neg m e))).toNat

/-- The condition of SELECT (R143). -/
def selectCond (cond : Nat) (c imm u : Nat) (n : Int) : Bool :=
  match cond with
  | 0 => (d32 c).lt (vZero false)
  | 1 => (d32 c).isNan
  | 2 => !(d32 c).isNan && !(d32 c).isFin
  | 3 => (d32 c).isZero
  | 4 => (d32 c).lt (d32 imm)
  | 5 => decide (imm < 32) && bitOf (n % 2 ^ 32).toNat imm
  | 6 => decide (n < signed 32 imm)
  | _ => (d32 u).lt (vZero false)

/-- One step of a micro-program (R142, R143). -/
def microStep (img : Array Nat) (w : Bytes) (u : Nat) (l : Lane) : Lane :=
  let mode := fieldOf w 2 1
  let regs := fieldOf w 1 1
  let f3 := fieldOf w 3 1
  let dst := bitsOf regs 1 0
  let a := l.reg (bitsOf regs 3 2)
  let b := if bitOf f3 6 then tableWord img (fieldOf w 4 2) else l.reg (bitsOf regs 5 4)
  let c := if bitOf f3 7 then tableWord img (fieldOf w 6 2) else l.reg (bitsOf regs 7 6)
  let base := fieldOf w 8 2
  let imm := fieldOf w 12 4
  match fieldOf w 0 1 with
  | 1 =>
    (match mode with
     | 0 => let r := rangeSegment (signed 8 (fieldOf w 10 1)) (signed 8 (fieldOf w 11 1)) a
            { l with s := r.1 }.put dst r.2
     | 1 => let r := rangePeriodic img base a
            { l with n := r.1, s := r.2.1 }.put dst r.2.2
     | _ => let r := rangeMantissa a
            { l with n := r.1, s := r.2.1 }.put dst r.2.2)
  | 2 => l.put dst (polyStep img base l.s (bitsOf f3 2 0) a)
  | 3 => l.put dst (r32 .near ((d32 a).shift (signed 32 imm + (if mode = 0 then l.n else 0))))
  | 4 => l.put dst (tableWord img (base + (if mode = 0 then lutIndex a imm else l.s)))
  | 5 => l.put dst (match mode with
      | 0 => fma32 a b c
      | 1 => mul32 a b
      | _ => add32 a b)
  | 6 => l.put dst (r32 .near (vmin (vmax (d32 a) (d32 b)) (d32 c)))
  | _ => l.put dst (if selectCond (bitsOf f3 2 0) c imm u l.n != bitOf mode 0 then a else b)

/-- A micro-program applied to an FP32 argument, its result in a format (R142). -/
def microRun (img : Bytes) (ff : FFmt) (u : Nat) : Nat :=
  if (d32 u).isNan then ff.canonNan
  else
    let a : Array Nat := (img.map (·.toNat)).toArray
    let l := (List.range (fieldOf img 1 1)).foldl (fun l i => microStep a (stepAt img i) u l) ⟨u, 0, 0, 0, 0, 0⟩
    ff.round .near false ff.canonNan (d32 l.w0)

/-- What an image computes: a shipped one what R146 states of it, any other its steps. -/
def microFn (img : Bytes) : FFmt → Nat → Nat :=
  match (List.range 11).find? (fun i => img == shippedImage i) with
  | some i => shippedFn i
  | none => microRun img

/-! ## sf. operations -/

/-- The FP32 argument u of R93. -/
def sfArg (preScale preBias b : Nat) (x : Val) : Nat :=
  fma32 preScale (r32 .near (Val.add .near x (d32 b).neg)) preBias

/-- sf.fn and sf.prog on a core's scratchpad, `f` being the function in d_fmt. -/
def sfArea (k : Core) (w : Bytes) (f : FFmt → Nat → Nat) : Mem × Bool :=
  let rows := fieldOf w 28 2
  let n := fieldOf w 30 2
  let xp := fieldOf w 32 2
  let xf := fieldOf w 36 1
  let df := fieldOf w 37 1
  let a := Mem.arr k.sp (k.ref w 16) (areaBytes xf rows n xp + 4)
  let bias := Mem.arr k.sp (k.ref w 24) (4 * rows)
  let us := (List.range rows).map (fun r =>
    (rowCodes a xf xp r n).map (fun c =>
      sfArg (fieldOf w 40 4) (fieldOf w 44 4) (if hasRef w 24 then natAt bias (4 * r) 4 else 0) (elemVal xf c)))
  (writeRows k.sp (k.ref w 20) df (fieldOf w 34 2) (us.map (fun r => r.map (f (floatFmt df)))),
   us.any (fun r => r.any (fun u => (d32 u).isNan)))

/-- SF_FN. -/
def execSfFn (c : Nat) (s : State) : Host.Outcome State Fault Refusal :=
  issueOn c 4 1 s (fun w d =>
    d.unitOp c w (emptyRows w) (fun k => sfArea k w (builtin (fieldOf w 38 1))))

/-- The current image of a slot for a core: its partition's (R141). -/
def Dev.microImage (d : Dev) (c slot : Nat) : Bytes :=
  match (d.core c).run with
  | some (p, _, _) => Tab.getD (d.part p).micro slot []
  | none => []

/-- sf.prog, which faults when its slot holds no loaded micro-program (R93). -/
def Dev.sfProg (d : Dev) (c : Nat) (w : Bytes) : Dev :=
  let img := d.microImage c (fieldOf w 38 1)
  if fieldOf img 1 1 = 0 then d.faultCore c stInvalid (d.core c).pc (opDebugTag w)
  else d.unitOp c w (emptyRows w) (fun k => sfArea k w (microFn img))

/-- SF_PROG. -/
def execSfProg (c : Nat) (s : State) : Host.Outcome State Fault Refusal :=
  issueOn c 4 2 s (fun w d => d.sfProg c w)

end Sys2Proof.Machine
end

