-- ==== Sys2Proof/Machine/Pipeline.lean ====
section
/-!
DEFINITION. Programs, micro-programs, pipelines, the tick and launched collectives: PROGRAM_LOAD, MICROPROG_LOAD,
PIPELINE_SUBMIT, PIPELINE_RUN, PIPELINE_STOP, TICK_SET and COLLECTIVE_LAUNCH (R25, R26, R30, R41, R43, R54, R70,
R141, R144, R146, R171, R300, R363).
-/

namespace Sys2Proof.Machine

/-! ## Programs (R54, R363) -/

/-- Whether a submitted pipeline uses a program id. -/
def Part.usesProgram (x : Part) (id : Nat) : Bool := x.pipes.any (fun e => e.2.stages.any (fun s => s.program == id))

/-- PROGRAM_LOAD. -/
def execProgramLoad (h : Nat) (data : Bytes) (s : State) : Host.Outcome State Fault Refusal :=
  runCmd h 0x20 anyForm s (fun c d =>
    let n := c.field 24 4
    let id := c.field 28 1
    d.checked h ([(24, stCount, n != 0 && (n % 64 != 0 || decide (64 * 65536 < n)))] ++ rsvBytes c [(29, 35)]) (fun d =>
      if n = 0 then d.complete h stOK 0 0
      else d.withObject h c n data (fun b d =>
        if n ≠ 64 * (fieldOf b 2 2 + 1) then d.failAt h stCount 24
        else if (d.part c.part).sealed then d.complete h stAuth 0 0
        else if (d.part c.part).usesProgram id then d.failAt h stBusy 28
        else (d.modPart c.part (fun x => { x with programs := Tab.put x.programs id b })).complete h stOK 0 0)))

/-! ## Micro-programs (R141, R144, R146) -/

/-- Puts an image into the shadow copy of a slot, current from the first boundary after the load's stamp (R93, R141). -/
def Dev.shadow (d : Dev) (p slot : Nat) (image : Bytes) : Dev :=
  d.modPart p (fun x => { x with microNext := Tab.put x.microNext slot (Tab.getD x.microNext slot [] ++ [(d.tc p, image)]) })

/-- The command fields of MICROPROG_LOAD, with the data_bytes its source asks for. -/
def microChecks (c : Cmd) : List (Nat × Nat × Bool) :=
  let n := c.field 24 4
  let source := c.field 29 1
  [(24, stBounds, if source = 1 then n != 0 else n != 0 && n != 8192), (28, stBounds, decide (63 < c.field 28 1)),
   (29, stInvalid, decide (1 < source)), (30, stBounds, source == 1 && decide (10 < c.field 30 1)),
   (30, stInvalid, source != 1 && c.field 30 1 != 0)] ++ rsvBytes c [(31, 33)]

/-- MICROPROG_LOAD with an image. -/
def execMicroprogLoad (h : Nat) (data : Bytes) (s : State) : Host.Outcome State Fault Refusal :=
  runCmd h 0x21 (fun c => c.field 29 1 != 1) s (fun c d =>
    let n := c.field 24 4
    d.checked h (microChecks c) (fun d =>
      if n = 0 then d.complete h stOK 0 0
      else d.withObject h c n data (fun b d =>
        if (d.part c.part).sealed then d.complete h stAuth 0 0
        else match checkImage b with
          | some f => d.failObj h f.1 f.2
          | none => (d.shadow c.part (c.field 28 1) b).complete h stOK 0 0)))

/-- MICROPROG_LOAD of a shipped micro-program. -/
def execMicroprogRestore (h : Nat) (s : State) : Host.Outcome State Fault Refusal :=
  runCmd h 0x21 (fun c => c.field 29 1 == 1) s (fun c d =>
    d.checked h (microChecks c) (fun d =>
      (d.shadow c.part (c.field 28 1) (shippedImage (c.field 30 1))).complete h stOK 0 0))

/-! ## PIPELINE_SUBMIT (R171, R435) -/

/-- Stores the pipeline of an object, once every check has passed. -/
def Dev.storePipe (d : Dev) (p slot : Nat) (drain : Bool) (o : Bytes) (lists : List (Nat × List (List Nat))) : Dev :=
  d.modPart p (fun x => { x with pipes := Tab.put x.pipes slot (x.pipeOf drain o lists) })

/-- The extents of the explicit lists of an object, where the checks before them pass. -/
def Part.lists (x : Part) (o : Bytes) : List (Nat × Nat) :=
  let ts := objTilings o
  if (ts.findSome? (fun e => inStruct 5 e.2 (listChecks x e.1))).isSome then [] else ts.flatMap (fun e => listExtents e.1)

/-- The loader's checks from the explicit lists on, and their effect. -/
def Dev.submitLists (d : Dev) (h : Nat) (c : Cmd) (o : Bytes) : Dev :=
  let p := c.part
  let r := d.listStep p o
  let d := r.2.2.modPart p (fun x => x.unask h)
  match r.1 with
  | some f => d.complete h f.1 0 f.2
  | none =>
    match (d.part p).areaSteps o with
    | some f => d.complete h f.1 0 f.2
    | none => (d.storePipe p (c.field 28 1) (c.field 29 1 == 1) o r.2.1).complete h stOK 0 0

/-- The loader's checks at submit and their effect. The explicit lists are read as an object is: their pages and links are waited
for, with those of the object itself, and poison is a DEVICE_FAULT (R262, R267, R284). -/
def Dev.submit (d : Dev) (h : Nat) (c : Cmd) (o : Bytes) : Dev :=
  let p := c.part
  match (d.part p).submitSteps c o with
  | some f => d.complete h f.1 0 f.2
  | none =>
    let x := d.part p
    let exts := x.lists o
    let cold := exts.flatMap (fun e => x.lacking h e.1 e.2)
    let own := if bitOf (c.field 2 1) 1 then x.lacking h (c.field 16 8) (c.field 24 4) else []
    if !cold.isEmpty then d.ask p h (cold ++ own).dedup (x.dieList.headD 0)
    else if exts.any (fun e => d.ioWay p e.1 e.2 == 2) || exts.any (fun e => poisoned (d.devRead p e.1 e.2 0).1) then
      (d.modPart p (fun x => x.unask h)).complete h stDeviceFault 0 0
    else if exts.any (fun e => d.ioWay p e.1 e.2 == 1 || d.extentHeld p e.1 e.2) then d
    else d.ifAffords (d.submitLists h c o)

/-- PIPELINE_SUBMIT. -/
def execPipelineSubmit (h : Nat) (data : Bytes) (s : State) : Host.Outcome State Fault Refusal :=
  runCmd h 0x22 anyForm s (fun c d =>
    let n := c.field 24 4
    if n < 64 then d.failAt h stBounds 24 else d.withObject h c n data (fun o d => d.submit h c o))

/-! ## PIPELINE_RUN (R30, R41, R43, R54, R70) -/

/-- The user-region areas of a submitted pipeline. -/
def Pipe.areas (y : Pipe) : List Area :=
  pipeAreas (y.stages.map (·.cores)) y.bufs y.halos (y.stages.zipIdx.filterMap (fun e => e.1.tiling.map (fun t => (t.record, e.2))))

/-- The credit counters of a pipeline: cluster and credit index (R45). -/
def Pipe.credits (y : Pipe) : List (Nat × Nat) :=
  y.bufs.flatMap (fun b => (b.creditClusters (y.stages.map (·.cores))).map (fun cl => (cl, b.cidx)))

/-- Whether two pipelines cannot run at once: a core, an area or a credit counter in common. -/
def Pipe.clashes (a b : Pipe) : Bool :=
  a.cores.any b.cores.contains || a.credits.any b.credits.contains || a.areas.any (fun r => b.areas.any r.meets)

/-- The running pipelines of a partition. -/
def Part.runningPipes (x : Part) : List Pipe := (Tab.vals x.pipes).filter (fun y => y.run.isSome)

/-- Whether a pipeline cannot run now (R30, R45, R70). -/
def Part.runBusy (x : Part) (y : Pipe) : Bool :=
  y.run.isSome || decide (4 ≤ x.runningPipes.length) || x.runningPipes.any (fun a => a.clashes y)

/-- A run that has not begun. -/
def Run.fresh (h count stages : Nat) : Run where
  handle := some h
  count := count
  done := 0
  first := none
  last := none
  started := false
  release := 0
  prologue := false
  stale := false
  quality := false
  stopping := false
  stopAtBoundary := false
  stoppers := []
  removeAfter := false
  stop := ⟨none, false, false, false, false, false⟩
  stages := List.replicate stages ⟨0, 0, 0, 0, 0, false, 0, false⟩
  written := []
  aborted := []

/-- Gives the cores of a pipeline their run and their stage's program. -/
def Dev.takeCores (d : Dev) (p slot : Nat) (y : Pipe) : Dev :=
  y.stages.zipIdx.foldl (fun (d : Dev) e =>
    let image := Tab.getD (d.part p).programs e.1.program []
    e.1.cores.foldl (fun (d : Dev) c => d.modCore c (fun k => { k with run := some (p, slot, e.2), progMem := image })) d) d

/-- Starts a run of the pipeline in a slot; its first window is the next that a boundary begins. -/
def Dev.startRun (d : Dev) (p slot h count : Nat) (y : Pipe) : Dev :=
  (d.takeCores p slot y).modPart p (fun x => { x with
    pipes := Tab.put x.pipes slot { y with run := some (Run.fresh h count y.stages.length) } })

/-- PIPELINE_RUN. -/
def execPipelineRun (h : Nat) (s : State) : Host.Outcome State Fault Refusal :=
  runCmd h 0x23 anyForm s (fun c d =>
    let slot := c.field 28 1
    let n := c.field 32 8
    let x := d.part c.part
    let y := if slot < 16 then Tab.find x.pipes slot else none
    d.checked h ([(28, stInvalid, y.isNone)] ++ rsvBytes c [(16, 12), (29, 3), (40, 24)]) (fun d =>
      match y with
      | none => d.failAt h stInvalid 28
      | some y =>
        if n = 0 then d.complete h stOK ones64 ones64
        else if x.runBusy y then d.failAt h stBusy 28
        else if x.tick.par.allowance < x.recoveryBound y then d.failAt h stBounds 28
        else (d.startRun c.part slot h n y).running h))

/-! ## PIPELINE_STOP (R41) -/

/-- The command fields of PIPELINE_STOP. -/
def stopChecks (c : Cmd) (y : Option Pipe) (delete : Bool) : List (Nat × Nat × Bool) :=
  [(28, stInvalid, y.elim true (fun y => !delete && y.run.isNone)), (29, stInvalid, decide (1 < c.field 29 1))] ++
    rsvBytes c [(16, 12), (30, 34)]

/-- PIPELINE_STOP: the run ends at the next boundary; with delete the pipeline leaves its slot, at once when it does
not run. -/
def Dev.stopCommand (d : Dev) (h : Nat) (c : Cmd) (delete : Bool) : Dev :=
  let slot := c.field 28 1
  let y := if slot < 16 then Tab.find (d.part c.part).pipes slot else none
  d.checked h (stopChecks c y delete) (fun d =>
    match y.bind (·.run) with
    | none => (d.modPart c.part (fun x => { x with pipes := Tab.del x.pipes slot })).complete h stOK 0 0
    | some _ =>
      ((d.stopRun c.part slot).modPart c.part (fun x => x.modPipe slot (fun y => y.modRun (fun r => { r with
        stoppers := r.stoppers ++ [h], removeAfter := r.removeAfter || delete })))).running h)

/-- PIPELINE_STOP with delete = 0. -/
def execPipelineStop (h : Nat) (s : State) : Host.Outcome State Fault Refusal :=
  runCmd h 0x24 (fun c => !bitOf (c.field 29 1) 0) s (fun c d => d.stopCommand h c false)

/-- PIPELINE_STOP with delete = 1. -/
def execPipelineStopDelete (h : Nat) (s : State) : Host.Outcome State Fault Refusal :=
  runCmd h 0x24 (fun c => bitOf (c.field 29 1) 0) s (fun c d => d.stopCommand h c true)

/-! ## TICK_SET (R25, R26, R43) -/

/-- The parameters that a TICK_SET carries. -/
def tickParOf (c : Cmd) : TickPar := ⟨c.field 16 4, c.field 20 4, c.field 24 1, c.field 25 1⟩

/-- The command fields of TICK_SET. -/
def tickChecks (x : Part) (c : Cmd) : List (Nat × Nat × Bool) :=
  let t := tickParOf c
  [(16, stBounds, decide (t.period < 10000) || decide (100000000 < t.period)), (16, stAlign, t.period % 10 != 0),
   (16, stBounds, decide (t.policy ≤ 2) && x.runningPipes.any (fun y => decide (t.allowance < x.recoveryBound y))),
   (20, stBounds, decide (t.period < t.stretch)), (20, stAlign, t.stretch % 10 != 0), (24, stInvalid, decide (2 < t.policy)),
   (25, stInvalid, t.fallback != 1 && t.fallback != 2)] ++ rsvBytes c [(26, 38)]

/-- TICK_SET: the parameters wait for the first boundary instant 800 tc or more after the fetch stamp. -/
def execTickSet (h : Nat) (s : State) : Host.Outcome State Fault Refusal :=
  runCmd h 0x25 anyForm s (fun c d =>
    d.checked h (tickChecks (d.part c.part) c) (fun d =>
      (d.modTick c.part (fun t => { t with next := t.next ++ [(h, tickParOf c)] })).running h))

/-! ## COLLECTIVE_LAUNCH (R294, R300) -/

/-- The pipeline of a launched collective: one stage of the record's cores, without a program. -/
def launchedPipe (o : Bytes) : Pipe where
  stages := [⟨coCores o, 256, false, false, 0, 0, 0, none⟩]
  bufs := []
  halos := []
  groups := []
  colls := [o]
  drain := false
  launched := true
  addrs := coAddrs o
  run := none
  timings := []

/-- Whether a collective cannot be launched now. -/
def Part.launchBusy (x : Part) (o : Bytes) : Bool :=
  decide (16 ≤ x.pipes.length) || decide (4 ≤ x.runningPipes.length) ||
    x.runningPipes.any (fun y => (coCores o).any y.cores.contains)

/-- Checks a collective record and launches it; the number of its windows is open. -/
def Dev.launch (d : Dev) (h : Nat) (c : Cmd) (o : Bytes) : Dev :=
  match coFail (d.part c.part) o with
  | some f => d.complete h f.1 0 (locus 8 0 f.2)
  | none =>
    if coEmpty o then d.complete h stOK ones64 ones64
    else if (d.part c.part).launchBusy o then d.complete h stBusy 0 0
    else
      let slot := (Tab.firstFree (d.part c.part).pipes 16 32).getD 16
      let w := d.draw
      (w.2.startRun c.part slot h (1 + w.1 % ones64) (launchedPipe o)).running h

/-- COLLECTIVE_LAUNCH. -/
def execCollectiveLaunch (h : Nat) (data : Bytes) (s : State) : Host.Outcome State Fault Refusal :=
  runCmd h 0x70 anyForm s (fun c d =>
    let n := c.field 24 4
    d.checked h ([(24, stBounds, n != 0 && n != 256)] ++ rsvBytes c [(28, 36)]) (fun d =>
      if n = 0 then d.complete h stOK ones64 ones64 else d.withObject h c n data (fun o d => d.launch h c o)))

end Sys2Proof.Machine
end

