-- ==== Sys2Proof/Machine/RowStats.lean ====
section
/-!
DEFINITION. rs. operations: sums and variance, maxima, online softmax, global average pooling
(R94, R95, R147 to R152, R184 to R186).
-/

namespace Sys2Proof.Machine

/-- Combines lane sums pairwise, level by level (R147). -/
def pairTree : Nat → List Nat → Nat
  | 0, l => l.headD 0
  | n + 1, l =>
    let rec pairs : List Nat → List Nat
      | a :: b :: t => add32 a b :: pairs t
      | l => l
    pairTree n (pairs l)

/-- The sum of a row by its 128 lanes and the fixed tree of seven levels (R147). -/
def laneSum (xs : List Nat) : Nat :=
  pairTree 7 ((List.range 128).map (fun lane =>
    (xs.zipIdx.filter (fun e => e.2 % 128 == lane)).foldl (fun acc e => add32 acc e.1) 0))

/-- Variance and cancellation flag of S1, S2 and n (R148). An S2 that has overflowed gives a NaN variance and no flag, as R150
says (DEDUCED, log 162: R148's steps alone would give +∞ and the flag where S1·S1 is finite). -/
def variance (s1 s2 n : Nat) : Nat × Bool :=
  if n = 0 then (0, false)
  else if s2 = r32 .near (.inf false) then (fFP32.nanCode, false)
  else
    let t := mul32 s1 s1
    let t := r32 .near ((d32 t).div (vNat n))
    let dd := sub32 s2 t
    let v := d32 dd
    let s := d32 s2
    let zero := vZero false
    let flag := v.lt zero || (zero.lt s && v.le (d32 (r32 .near (s.shift (-20)))))
    let dd := if v.lt zero then 0 else dd
    (r32 .near ((d32 dd).div (vNat n)), flag)

/-- The values of one row of an rs. word's input. -/
def rsRow (a : Array Nat) (w : Bytes) (r : Nat) : List Val :=
  (rowCodes a (fieldOf w 34 1) (fieldOf w 32 2) r (fieldOf w 30 2)).map (elemVal (fieldOf w 34 1))

/-- The input bytes of an rs. word. -/
def rsInput (k : Core) (w : Bytes) : Array Nat :=
  Mem.arr k.sp (k.ref w 16) (areaBytes (fieldOf w 34 1) (fieldOf w 28 2) (fieldOf w 30 2) (fieldOf w 32 2) + 4)

/-- rs.sum (R94, R147, R148). -/
def sumArea (k : Core) (w : Bytes) : Mem × Bool :=
  let rows := fieldOf w 28 2
  let n := fieldOf w 30 2
  let mode := fieldOf w 35 1
  let accum := bitOf (fieldOf w 36 1) 0
  let a := rsInput k w
  let old := Mem.arr k.sp (k.ref w 20) (16 * rows)
  let aux := Mem.arr k.sp (k.ref w 24) (4 * rows)
  let out := (List.range rows).map (fun r =>
    let xs := rsRow a w r
    let shift := if mode = 1 then xs.headD (vZero false) else d32 (natAt aux (4 * r) 4)
    let ds := xs.map (fun x => if mode = 0 then r32 .near x else r32 .near (Val.add .near x shift.neg))
    let s1 := laneSum ds
    let s2 := laneSum (ds.map (fun d => mul32 d d))
    let s1 := if accum then add32 (natAt old (16 * r) 4) s1 else s1
    let s2 := if accum then add32 (natAt old (16 * r + 4) 4) s2 else s2
    let cnt := if accum then (natAt old (16 * r + 8) 4 + n) % 2 ^ 32 else n
    let v := variance s1 s2 cnt
    (natLE 4 s1 ++ natLE 4 s2 ++ natLE 4 cnt ++ natLE 4 v.1, v.2))
  (Mem.write k.sp (k.ref w 20) (out.flatMap (·.1)), out.any (·.2))

/-- The maximum of a row: NaN when it holds one (R150). -/
def rowMax (xs : List Val) : Val :=
  if xs.any (·.isNan) then .nan else xs.foldl vmax (.inf true)

/-- rs.max (R95, R150). -/
def maxArea (k : Core) (w : Bytes) : Mem × Bool :=
  let rows := fieldOf w 28 2
  let accum := bitOf (fieldOf w 36 1) 0
  let a := rsInput k w
  let old := Mem.arr k.sp (k.ref w 20) (4 * rows)
  let out := (List.range rows).map (fun r =>
    let x := rowMax (rsRow a w r)
    let o := d32 (natAt old (4 * r) 4)
    let m := if accum then (if o.isNan || x.isNan then Val.nan else vmax o x) else x
    (natLE 4 (r32 .near m), accum && o.lt m))
  (Mem.write k.sp (k.ref w 20) (out.flatMap (·.1)), out.any (·.2))

/-- What rs.smax mode 0 makes of a row's old maximum and its scores: m, m_old − m_new (R151). -/
def smaxMax (old : Nat) (xs : List Val) : Nat × Nat :=
  let x := rowMax xs
  let o := d32 old
  if o.isNan || x.isNan then (fFP32.nanCode, fFP32.nanCode)
  else
    let m := vmax o x
    if m = .inf true then (negInf32, 0)
    else if o = .inf true ∧ m.isFin then (r32 .near m, negInf32)
    else (r32 .near m, r32 .near (Val.add .near o m.neg))

/-- rs.smax (R95, R151, R152). -/
def smaxArea (k : Core) (w : Bytes) : Mem × Bool :=
  let rows := fieldOf w 28 2
  let mode := fieldOf w 35 1
  let a := rsInput k w
  let old := Mem.arr k.sp (k.ref w 20) (8 * rows)
  let aux := Mem.arr k.sp (k.ref w 24) (4 * rows)
  let out := (List.range rows).map (fun r =>
    let xs := rsRow a w r
    let m := natAt old (8 * r) 4
    let l := natAt old (8 * r + 4) 4
    if mode = 0 then
      let q := smaxMax m xs
      (natLE 4 q.1 ++ natLE 4 l, natLE 4 q.2, (d32 m).lt (d32 q.1))
    else
      let l' := xs.foldl (fun acc x => add32 acc (r32 .near x)) (mul32 l (natAt aux (4 * r) 4))
      (natLE 4 m ++ natLE 4 l', natLE 4 (natAt aux (4 * r) 4), false))
  let sp := Mem.write k.sp (k.ref w 20) (out.flatMap (·.1))
  (if mode = 0 then Mem.write sp (k.ref w 24) (out.flatMap (·.2.1)) else sp, out.any (·.2.2))

/-- rs.gap (R184, R185). -/
def gapArea (k : Core) (w : Bytes) : Mem × Bool :=
  let rows := fieldOf w 28 2
  let n := fieldOf w 30 2
  let xp := fieldOf w 32 2
  let f := fieldOf w 34 1
  let fl := fieldOf w 36 1
  let cblk := if bitOf fl 2 then 32 else 16
  let bits := fmtBits f
  let a := Mem.arr k.sp (k.ref w 16) ((n / cblk - 1) * (xp * 128) + ceilDiv (rows * cblk * bits) 8 + 4)
  let old := Mem.arr k.sp (k.ref w 20) (4 * n)
  let recip := r32 .near ((vNat 1).div (vNat (fieldOf w 40 4)))
  let out := (List.range n).map (fun ch =>
    let s := (List.range rows).foldl
      (fun acc r => add32 acc (r32 .near (elemVal f (bitsAt a ((ch / cblk) * xp * 128) bits (r * cblk + ch % cblk)))))
      (if bitOf fl 0 then natAt old (4 * ch) 4 else 0)
    if bitOf fl 1 then mul32 s recip else s)
  (Mem.write k.sp (k.ref w 20) (out.flatMap (natLE 4)), false)

/-- RS_SUM. -/
def execRsSum (c : Nat) (s : State) : Host.Outcome State Fault Refusal :=
  issueOn c 5 1 s (fun w d => d.unitOp c w (emptyRows w) (fun k => sumArea k w))

/-- RS_MAX. -/
def execRsMax (c : Nat) (s : State) : Host.Outcome State Fault Refusal :=
  issueOn c 5 2 s (fun w d => d.unitOp c w (emptyRows w) (fun k => maxArea k w))

/-- RS_SMAX. -/
def execRsSmax (c : Nat) (s : State) : Host.Outcome State Fault Refusal :=
  issueOn c 5 3 s (fun w d => d.unitOp c w (emptyRows w) (fun k => smaxArea k w))

/-- RS_GAP. -/
def execRsGap (c : Nat) (s : State) : Host.Outcome State Fault Refusal :=
  issueOn c 5 4 s (fun w d => d.unitOp c w (emptyRows w) (fun k => gapArea k w))

end Sys2Proof.Machine
end

