-- ==== Sys2Proof/Machine/Dispatch.lean ====
section
/-!
DEFINITION. One arm per command: each calls its meaning.
-/

namespace Sys2Proof.Machine

/-- The effect of a command on everything but the queue. -/
def exec (i : Instr) (s : State) : Host.Outcome State Fault Refusal :=
  match i with
  | .nop x0 => Sys2Proof.Machine.execNop x0 s
  | .abort x0 => Sys2Proof.Machine.execAbort x0 s
  | .partitionSetConfigure x0 x1 => Sys2Proof.Machine.execPartitionSetConfigure x0 x1 s
  | .partitionSetDelete x0 => Sys2Proof.Machine.execPartitionSetDelete x0 s
  | .partitionSetEndGrace x0 => Sys2Proof.Machine.execPartitionSetEndGrace x0 s
  | .memAlloc x0 => Sys2Proof.Machine.execMemAlloc x0 s
  | .memFree x0 => Sys2Proof.Machine.execMemFree x0 s
  | .programLoad x0 x1 => Sys2Proof.Machine.execProgramLoad x0 x1 s
  | .microprogLoad x0 x1 => Sys2Proof.Machine.execMicroprogLoad x0 x1 s
  | .microprogRestore x0 => Sys2Proof.Machine.execMicroprogRestore x0 s
  | .pipelineSubmit x0 x1 => Sys2Proof.Machine.execPipelineSubmit x0 x1 s
  | .pipelineRun x0 => Sys2Proof.Machine.execPipelineRun x0 s
  | .pipelineStop x0 => Sys2Proof.Machine.execPipelineStop x0 s
  | .pipelineStopDelete x0 => Sys2Proof.Machine.execPipelineStopDelete x0 s
  | .tickSet x0 => Sys2Proof.Machine.execTickSet x0 s
  | .weightsBind x0 x1 => Sys2Proof.Machine.execWeightsBind x0 x1 s
  | .seqCreate x0 => Sys2Proof.Machine.execSeqCreate x0 s
  | .seqAppend x0 x1 => Sys2Proof.Machine.execSeqAppend x0 x1 s
  | .seqSuspend x0 => Sys2Proof.Machine.execSeqSuspend x0 s
  | .seqSuspendPark x0 => Sys2Proof.Machine.execSeqSuspendPark x0 s
  | .seqSuspendEvictOnly x0 => Sys2Proof.Machine.execSeqSuspendEvictOnly x0 s
  | .seqResumeLazy x0 => Sys2Proof.Machine.execSeqResumeLazy x0 s
  | .seqResumeEager x0 => Sys2Proof.Machine.execSeqResumeEager x0 s
  | .seqDestroy x0 => Sys2Proof.Machine.execSeqDestroy x0 s
  | .prefixLookupLookup x0 x1 => Sys2Proof.Machine.execPrefixLookupLookup x0 x1 s
  | .prefixLookupMap x0 x1 => Sys2Proof.Machine.execPrefixLookupMap x0 x1 s
  | .prefixLookupInsert x0 x1 => Sys2Proof.Machine.execPrefixLookupInsert x0 x1 s
  | .prefixLookupDrop x0 => Sys2Proof.Machine.execPrefixLookupDrop x0 s
  | .pageEdit x0 x1 => Sys2Proof.Machine.execPageEdit x0 x1 s
  | .tierPrefetch x0 => Sys2Proof.Machine.execTierPrefetch x0 s
  | .tierFlush x0 => Sys2Proof.Machine.execTierFlush x0 s
  | .videoSessionOpen x0 x1 => Sys2Proof.Machine.execVideoSessionOpen x0 x1 s
  | .videoSessionReconfig x0 x1 => Sys2Proof.Machine.execVideoSessionReconfig x0 x1 s
  | .videoSessionClose x0 => Sys2Proof.Machine.execVideoSessionClose x0 s
  | .videoFrame x0 x1 => Sys2Proof.Machine.execVideoFrame x0 x1 s
  | .videoFrameEos x0 x1 => Sys2Proof.Machine.execVideoFrameEos x0 x1 s
  | .collectiveLaunch x0 x1 => Sys2Proof.Machine.execCollectiveLaunch x0 x1 s
  | .attest x0 => Sys2Proof.Machine.execAttest x0 s
  | .sessionOpen x0 x1 => Sys2Proof.Machine.execSessionOpen x0 x1 s
  | .keyImport x0 x1 => Sys2Proof.Machine.execKeyImport x0 x1 s
  | .keyImportErase x0 x1 => Sys2Proof.Machine.execKeyImportErase x0 x1 s
  | .keyRotate x0 => Sys2Proof.Machine.execKeyRotate x0 s
  | .ledgerRead x0 => Sys2Proof.Machine.execLedgerRead x0 s
  | .telemetryRead x0 => Sys2Proof.Machine.execTelemetryRead x0 s
  | .fwUpdateStage x0 x1 => Sys2Proof.Machine.execFwUpdateStage x0 x1 s
  | .fwUpdateCommit x0 => Sys2Proof.Machine.execFwUpdateCommit x0 s
  | .fwCommitComplete x0 => Sys2Proof.Machine.execFwCommitComplete x0 s
  | .mmTile x0 => Sys2Proof.Machine.execMmTile x0 s
  | .mmConv x0 => Sys2Proof.Machine.execMmConv x0 s
  | .mmDrain x0 => Sys2Proof.Machine.execMmDrain x0 s
  | .residualFetchLanded x0 => Sys2Proof.Machine.execResidualFetchLanded x0 s
  | .qzQuant x0 => Sys2Proof.Machine.execQzQuant x0 s
  | .qzDequant x0 => Sys2Proof.Machine.execQzDequant x0 s
  | .vxEw x0 => Sys2Proof.Machine.execVxEw x0 s
  | .vxRow x0 => Sys2Proof.Machine.execVxRow x0 s
  | .vxCol x0 => Sys2Proof.Machine.execVxCol x0 s
  | .vxFill x0 => Sys2Proof.Machine.execVxFill x0 s
  | .sfFn x0 => Sys2Proof.Machine.execSfFn x0 s
  | .sfProg x0 => Sys2Proof.Machine.execSfProg x0 s
  | .rsSum x0 => Sys2Proof.Machine.execRsSum x0 s
  | .rsMax x0 => Sys2Proof.Machine.execRsMax x0 s
  | .rsSmax x0 => Sys2Proof.Machine.execRsSmax x0 s
  | .rsGap x0 => Sys2Proof.Machine.execRsGap x0 s
  | .dmaCopy x0 => Sys2Proof.Machine.execDmaCopy x0 s
  | .dmaSeq x0 => Sys2Proof.Machine.execDmaSeq x0 s
  | .dmaPrefetch x0 => Sys2Proof.Machine.execDmaPrefetch x0 s
  | .dmaRing x0 => Sys2Proof.Machine.execDmaRing x0 s
  | .ringBurstFetch x0 => Sys2Proof.Machine.execRingBurstFetch x0 s
  | .descriptorComplete x0 x1 => Sys2Proof.Machine.execDescriptorComplete x0 x1 s
  | .hxPut x0 => Sys2Proof.Machine.execHxPut x0 s
  | .hxGet x0 => Sys2Proof.Machine.execHxGet x0 s
  | .hxFree x0 => Sys2Proof.Machine.execHxFree x0 s
  | .haloWaitSatisfied x0 => Sys2Proof.Machine.execHaloWaitSatisfied x0 s
  | .cntClaim x0 => Sys2Proof.Machine.execCntClaim x0 s
  | .cntAdd x0 => Sys2Proof.Machine.execCntAdd x0 s
  | .cntCas x0 => Sys2Proof.Machine.execCntCas x0 s
  | .cntRead x0 => Sys2Proof.Machine.execCntRead x0 s
  | .cntSteal x0 => Sys2Proof.Machine.execCntSteal x0 s
  | .cntCommit x0 => Sys2Proof.Machine.execCntCommit x0 s
  | .cntCredit x0 => Sys2Proof.Machine.execCntCredit x0 s
  | .pgAppend x0 => Sys2Proof.Machine.execPgAppend x0 s
  | .pgPublish x0 => Sys2Proof.Machine.execPgPublish x0 s
  | .pgPrefetch x0 => Sys2Proof.Machine.execPgPrefetch x0 s
  | .pgInfo x0 => Sys2Proof.Machine.execPgInfo x0 s
  | .walkerDescriptorEmit x0 => Sys2Proof.Machine.execWalkerDescriptorEmit x0 s
  | .colSend x0 => Sys2Proof.Machine.execColSend x0 s
  | .colRecv x0 => Sys2Proof.Machine.execColRecv x0 s
  | .colRecvSatisfied x0 => Sys2Proof.Machine.execColRecvSatisfied x0 s
  | .colReduce x0 => Sys2Proof.Machine.execColReduce x0 s
  | .colBarrier x0 => Sys2Proof.Machine.execColBarrier x0 s
  | .usneaGroupComplete x0 => Sys2Proof.Machine.execUsneaGroupComplete x0 s
  | .syncDone x0 => Sys2Proof.Machine.execSyncDone x0 s
  | .syncTick x0 => Sys2Proof.Machine.execSyncTick x0 s
  | .syncWait x0 => Sys2Proof.Machine.execSyncWait x0 s
  | .syncWaitSatisfied x0 => Sys2Proof.Machine.execSyncWaitSatisfied x0 s
  | .syncTime x0 => Sys2Proof.Machine.execSyncTime x0 s
  | .ctlLi x0 => Sys2Proof.Machine.execCtlLi x0 s
  | .ctlAlu x0 => Sys2Proof.Machine.execCtlAlu x0 s
  | .ctlCmp x0 => Sys2Proof.Machine.execCtlCmp x0 s
  | .ctlPset x0 => Sys2Proof.Machine.execCtlPset x0 s
  | .ctlBr x0 => Sys2Proof.Machine.execCtlBr x0 s
  | .ctlLoop x0 => Sys2Proof.Machine.execCtlLoop x0 s
  | .ctlLdr x0 => Sys2Proof.Machine.execCtlLdr x0 s
  | .ctlStr x0 => Sys2Proof.Machine.execCtlStr x0 s
  | .ctlNop x0 => Sys2Proof.Machine.execCtlNop x0 s
  | .operationComplete x0 x1 => Sys2Proof.Machine.execOperationComplete x0 x1 s
  | .doneReport x0 => Sys2Proof.Machine.execDoneReport x0 s
  | .tickBoundary x0 => Sys2Proof.Machine.execTickBoundary x0 s
  | .stretchLimit x0 => Sys2Proof.Machine.execStretchLimit x0 s
  | .boundaryDecision x0 => Sys2Proof.Machine.execBoundaryDecision x0 s
  | .holdExpiry x0 x1 => Sys2Proof.Machine.execHoldExpiry x0 x1 s
  | .editBatchExpiry x0 => Sys2Proof.Machine.execEditBatchExpiry x0 s
  | .resumeExpiry x0 x1 => Sys2Proof.Machine.execResumeExpiry x0 x1 s
  | .runWindowCountReached x0 x1 => Sys2Proof.Machine.execRunWindowCountReached x0 x1 s
  | .pipelineStopDrained x0 x1 => Sys2Proof.Machine.execPipelineStopDrained x0 x1 s
  | .ledgerStagingPlace x0 => Sys2Proof.Machine.execLedgerStagingPlace x0 s
  | .parkComplete x0 x1 => Sys2Proof.Machine.execParkComplete x0 x1 s
  | .resumeComplete x0 x1 => Sys2Proof.Machine.execResumeComplete x0 x1 s
  | .baseDieRequest x0 x1 => Sys2Proof.Machine.execBaseDieRequest x0 x1 s
  | .throttleRelease x0 x1 => Sys2Proof.Machine.execThrottleRelease x0 x1 s
  | .tagConversionDone x0 x1 => Sys2Proof.Machine.execTagConversionDone x0 x1 s
  | .thermalSample x0 x1 => Sys2Proof.Machine.execThermalSample x0 x1 s
  | .dramRefresh x0 x1 => Sys2Proof.Machine.execDramRefresh x0 x1 s
  | .backgroundAtomScrub x0 x1 x2 => Sys2Proof.Machine.execBackgroundAtomScrub x0 x1 x2 s
  | .migrationLanded x0 x1 x2 => Sys2Proof.Machine.execMigrationLanded x0 x1 x2 s
  | .folnasRetryBound x0 x1 x2 => Sys2Proof.Machine.execFolnasRetryBound x0 x1 x2 s
  | .reserveFrameReturn x0 x1 => Sys2Proof.Machine.execReserveFrameReturn x0 x1 s
  | .backgroundWriteBack x0 => Sys2Proof.Machine.execBackgroundWriteBack x0 s
  | .evictionWriteBackDone x0 x1 => Sys2Proof.Machine.execEvictionWriteBackDone x0 x1 s
  | .tierFlushDurable x0 x1 => Sys2Proof.Machine.execTierFlushDurable x0 x1 s
  | .garbageCollection x0 => Sys2Proof.Machine.execGarbageCollection x0 s
  | .wearLevelling x0 x1 => Sys2Proof.Machine.execWearLevelling x0 x1 s
  | .readDisturbRefresh x0 => Sys2Proof.Machine.execReadDisturbRefresh x0 s
  | .folnasPatrol x0 x1 => Sys2Proof.Machine.execFolnasPatrol x0 x1 s
  | .badBlockRetire x0 => Sys2Proof.Machine.execBadBlockRetire x0 s
  | .readOnlyModeEntry => Sys2Proof.Machine.execReadOnlyModeEntry s
  | .flitCrcFailure x0 x1 => Sys2Proof.Machine.execFlitCrcFailure x0 x1 s
  | .replayRunExhausted x0 => Sys2Proof.Machine.execReplayRunExhausted x0 s
  | .retrainComplete x0 x1 => Sys2Proof.Machine.execRetrainComplete x0 x1 s
  | .usneaHubFailure x0 x1 => Sys2Proof.Machine.execUsneaHubFailure x0 x1 s
  | .clusterControlCoreFailure x0 => Sys2Proof.Machine.execClusterControlCoreFailure x0 s
  | .carnelianFault x0 => Sys2Proof.Machine.execCarnelianFault x0 s
  | .peridotWatchdog x0 => Sys2Proof.Machine.execPeridotWatchdog x0 s
  | .peridotSramError x0 => Sys2Proof.Machine.execPeridotSramError x0 s
  | .videoFrameStart x0 => Sys2Proof.Machine.execVideoFrameStart x0 s
  | .guardRowCounted x0 x1 => Sys2Proof.Machine.execGuardRowCounted x0 x1 s
  | .videoFrameComplete x0 x1 => Sys2Proof.Machine.execVideoFrameComplete x0 x1 s
  | .agateEngineFailure x0 => Sys2Proof.Machine.execAgateEngineFailure x0 s
  | .sweepComplete x0 => Sys2Proof.Machine.execSweepComplete x0 s
  | .commandFetch x0 x1 x2 => Sys2Proof.Machine.execCommandFetch x0 x1 x2 s
  | .commandTimeout x0 => Sys2Proof.Machine.execCommandTimeout x0 s
  | .timeoutDeferralEnd x0 => Sys2Proof.Machine.execTimeoutDeferralEnd x0 s
  | .lateCompletion x0 => Sys2Proof.Machine.execLateCompletion x0 s
  | .qpDrainComplete x0 x1 => Sys2Proof.Machine.execQpDrainComplete x0 x1 s
  | .requesterCompletionTimeout x0 x1 => Sys2Proof.Machine.execRequesterCompletionTimeout x0 x1 s
  | .qpSqDoorbell x0 x1 x2 => Sys2Proof.Machine.execQpSqDoorbell x0 x1 x2 s
  | .qpCqDoorbell x0 x1 x2 => Sys2Proof.Machine.execQpCqDoorbell x0 x1 x2 s
  | .qpEnable x0 x1 x2 => Sys2Proof.Machine.execQpEnable x0 x1 x2 s
  | .qpDisable x0 x1 x2 => Sys2Proof.Machine.execQpDisable x0 x1 x2 s
  | .qpRearm x0 x1 x2 => Sys2Proof.Machine.execQpRearm x0 x1 x2 s
  | .hostBar2WindowWrite x0 x1 => Sys2Proof.Machine.execHostBar2WindowWrite x0 x1 s
  | .hostPortCfgWrite x0 x1 => Sys2Proof.Machine.execHostPortCfgWrite x0 x1 s
  | .berylThermCfgWrite x0 x1 => Sys2Proof.Machine.execBerylThermCfgWrite x0 x1 s
  | .tickRegisterLowRead x0 x1 => Sys2Proof.Machine.execTickRegisterLowRead x0 x1 s
  | .registerWrite x0 x1 x2 => Sys2Proof.Machine.execRegisterWrite x0 x1 x2 s
  | .romRecWrite x0 x1 => Sys2Proof.Machine.execRomRecWrite x0 x1 s
  | .romRecFinish x0 => Sys2Proof.Machine.execRomRecFinish x0 s
  | .romRecAbort x0 => Sys2Proof.Machine.execRomRecAbort x0 s
  | .bar2Request x0 x1 x2 => Sys2Proof.Machine.execBar2Request x0 x1 x2 s
  | .bar2Resize x0 x1 => Sys2Proof.Machine.execBar2Resize x0 x1 s
  | .hostLinkUp x0 x1 x2 x3 => Sys2Proof.Machine.execHostLinkUp x0 x1 x2 x3 s
  | .hostLinkDown x0 => Sys2Proof.Machine.execHostLinkDown x0 s
  | .perstAssert x0 => Sys2Proof.Machine.execPerstAssert x0 s
  | .perstRelease x0 => Sys2Proof.Machine.execPerstRelease x0 s
  | .hotReset x0 => Sys2Proof.Machine.execHotReset x0 s
  | .functionLevelReset x0 => Sys2Proof.Machine.execFunctionLevelReset x0 s
  | .vfDisable x0 => Sys2Proof.Machine.execVfDisable x0 s
  | .graceExpiry x0 => Sys2Proof.Machine.execGraceExpiry x0 s
  | .d3hotEntry x0 => Sys2Proof.Machine.execD3hotEntry x0 s
  | .d0Return x0 => Sys2Proof.Machine.execD0Return x0 s
  | .lowPowerEntry => Sys2Proof.Machine.execLowPowerEntry s
  | .getVersion x0 => Sys2Proof.Machine.execGetVersion x0 s
  | .getCapabilities x0 => Sys2Proof.Machine.execGetCapabilities x0 s
  | .negotiateAlgorithms x0 x1 => Sys2Proof.Machine.execNegotiateAlgorithms x0 x1 s
  | .getDigests x0 => Sys2Proof.Machine.execGetDigests x0 s
  | .getCertificate x0 => Sys2Proof.Machine.execGetCertificate x0 s
  | .getMeasurements x0 x1 => Sys2Proof.Machine.execGetMeasurements x0 x1 s
  | .keyExchange x0 x1 => Sys2Proof.Machine.execKeyExchange x0 x1 s
  | .finish x0 x1 => Sys2Proof.Machine.execFinish x0 x1 s
  | .pskExchange x0 x1 x2 => Sys2Proof.Machine.execPskExchange x0 x1 x2 s
  | .pskFinish x0 x1 => Sys2Proof.Machine.execPskFinish x0 x1 s
  | .ideKm x0 x1 x2 => Sys2Proof.Machine.execIdeKm x0 x1 x2 s
  | .ideStreamLeavesSecure x0 x1 => Sys2Proof.Machine.execIdeStreamLeavesSecure x0 x1 s
  | .debugUnlockToken x0 x1 x2 => Sys2Proof.Machine.execDebugUnlockToken x0 x1 x2 s
  | .pldmFirmwareUpdate x0 => Sys2Proof.Machine.execPldmFirmwareUpdate x0 s
  | .pldmPortConfigWrite x0 => Sys2Proof.Machine.execPldmPortConfigWrite x0 s
  | .pldmAlertClear => Sys2Proof.Machine.execPldmAlertClear s
  | .dieTemperatureSample x0 x1 => Sys2Proof.Machine.execDieTemperatureSample x0 x1 s
  | .inputPowerOn x0 => Sys2Proof.Machine.execInputPowerOn x0 s
  | .undervoltage x0 => Sys2Proof.Machine.execUndervoltage x0 s
  | .overvoltage x0 x1 => Sys2Proof.Machine.execOvervoltage x0 x1 s
  | .inputOvercurrent x0 x1 => Sys2Proof.Machine.execInputOvercurrent x0 x1 s
  | .latchClear x0 x1 => Sys2Proof.Machine.execLatchClear x0 x1 s
  | .modResetAssert x0 => Sys2Proof.Machine.execModResetAssert x0 s
  | .modResetRelease => Sys2Proof.Machine.execModResetRelease s
  | .bootStageComplete x0 => Sys2Proof.Machine.execBootStageComplete x0 s
  | .scrubComplete x0 => Sys2Proof.Machine.execScrubComplete x0 s
  | .demotionComplete x0 x1 x2 => Sys2Proof.Machine.execDemotionComplete x0 x1 x2 s
  | .weightsBindComplete x0 => Sys2Proof.Machine.execWeightsBindComplete x0 s
  | .romRecActionDone x0 => Sys2Proof.Machine.execRomRecActionDone x0 s
  | .pldmThermCfgWrite x0 => Sys2Proof.Machine.execPldmThermCfgWrite x0 s
  | .managementEndGrace x0 => Sys2Proof.Machine.execManagementEndGrace x0 s
  | .vfEnable x0 x1 => Sys2Proof.Machine.execVfEnable x0 x1 s
  | .usneaMessageCrcFailure x0 x1 => Sys2Proof.Machine.execUsneaMessageCrcFailure x0 x1 s
  | .msixMessageSend x0 x1 => Sys2Proof.Machine.execMsixMessageSend x0 x1 s

end Sys2Proof.Machine
end

