-- ==== Sys2Proof/Machine/Idle.lean ====
section
/-!
DEFINITION. What the module does when no command waits: time passes (R21, R400), and EVENT entries that wait for a
queue are written (R356).
-/

namespace Sys2Proof.Machine

/-- A list with a member, once. -/
def addOnce (l : List Nat) (n : Nat) : List Nat := if l.contains n then l else l ++ [n]

/-- Whether the module's reference runs: the input supports operation, no protection has latched, the boot has begun. -/
def Plat.clocked (x : Plat) : Bool := x.input && x.latch.isNone && x.boot != .off && x.boot != .held

/-- What a free value makes of the SRAM words and the cores in one tc (R52, R78): nothing, a single-bit or an uncorrectable
error in a word of a scratchpad or of a cluster's user region, or a core that faults from now on. -/
def Dev.strike (d : Dev) (v : Nat) : Dev :=
  let core := v / 6 % 256
  let spWord := v / 6 / 256 % (6 * 2 ^ 20 / 8)
  let cluster := v / 6 % 32
  let clWord := v / 6 / 32 % (24 * 2 ^ 20 / 8)
  match v % 6 with
  | 1 => d.modCore core (fun k => { k with soft := addOnce k.soft spWord })
  | 2 => d.modCore core (fun k => { k with bad := addOnce k.bad spWord })
  | 3 => d.modCluster cluster (fun x => { x with soft := addOnce x.soft clWord })
  | 4 => d.modCluster cluster (fun x => { x with bad := addOnce x.bad clWord })
  | 5 => (d.modCore core (fun k => { k with faulted := true })).modCluster (clusterOfCore core) (fun x => { x with suspect := true })
  | _ => d

/-- A tc that may strike: which, the spec leaves to chance, so a free value decides (DESIGN CHOICE, log 160). -/
def Dev.struck (d : Dev) : Dev := d.draw.2.strike d.draw.1

/-- One tc of the module counter (R400: it advances from the start of each boot). -/
def Dev.tickOne (d : Dev) : Dev := { d with now := d.now + 1 }

/-- One tc without a command. While the module serves work its memories may be struck, and waiting EVENTs are written. -/
def State.idle (s : State) : State :=
  if s.plat.clocked then
    s.onDev (fun d => if s.plat.up then d.tickOne.struck.flushEvents else d.tickOne)
  else s

end Sys2Proof.Machine
end

