-- ==== Sys2Proof/WellFormed.lean ====
section
/-!
DEFINITION. Well-formed commands: each operand names a unit the module has and fits its field (R8 to R11, R239, R281,
R320, R332, R346, R352, R358).
-/

namespace Sys2Proof

/-- A handle slot (R358: 20 bits). -/
def okHandle (h : Nat) : Bool := decide (h < 2 ^ 20)
/-- A data object: no field that gives its size reaches past 2^40 bytes of memory (R337). -/
def okObject (data : Bytes) : Bool := decide (data.length < 2 ^ 40)
/-- A submission entry (R352: 64 bytes). -/
def okEntry (cmd : Bytes) : Bool := cmd.length == 64
/-- A logical core (R9). -/
def okCore (core : Nat) : Bool := decide (core < 256)
/-- A cluster (R9). -/
def okCluster (cluster : Nat) : Bool := decide (cluster < 32)
/-- A partition (R16). -/
def okPart (p : Nat) : Bool := decide (p < 4)
/-- A Beryl stack (R239). -/
def okStack (stack : Nat) : Bool := decide (stack < 16)
/-- A bank of a channel (R239). -/
def okBank (bank : Nat) : Bool := decide (bank < 32)
/-- A tag unit of a stack: 64 GiB in units of 16 KiB (R253). -/
def okUnit (unit : Nat) : Bool := decide (unit < 2 ^ 22)
/-- An Agate engine (R304). -/
def okEngine (engine : Nat) : Bool := decide (engine < 4)
/-- A die link (R281). -/
def okLink (link : Nat) : Bool := decide (link < 10)
/-- A direction of a link. -/
def okDir (dir : Nat) : Bool := decide (dir < 2)
/-- A hub of the Usnea path: one for each cluster, one for each die, the root (R287, R288). -/
def okHub (level unit : Nat) : Bool :=
  (level == 0 && decide (unit < 32)) || (level == 1 && decide (unit < 4)) || (level == 2 && unit == 0)
/-- A block of the tier's raw capacity (R264). -/
def okBlock (block : Nat) : Bool := decide (block < 64 * 2 ^ 40 / (24 * 2 ^ 20))
/-- A host port (R328). -/
def okPort (port : Nat) : Bool := decide (port < 4)
/-- A function: 4 PFs of 1 + 64 functions (R332). -/
def okFn (fn : Nat) : Bool := decide (fn < 260)
/-- A queue pair (R346: 65,536 in all). -/
def okQueue (q : Nat) : Bool := decide (q < 65536)
/-- A compute die (R8). -/
def okDie (die : Nat) : Bool := decide (die < 4)
/-- A value of a 32-bit register. -/
def okValue (value : Nat) : Bool := decide (value < 2 ^ 32)
/-- A value of a 64-bit register. -/
def okBase (value : Nat) : Bool := decide (value < 2 ^ 64)
/-- A transport of SPDM. -/
def okSrc (src : SpdmSrc) : Bool :=
  match src with
  | .doe port => okPort port
  | .mctp => true
  | .fn f => okFn f
/-- A request at a base die: as many bytes as its write carries. -/
def okStackReq (req : StackReq) : Bool := req.write.elim true (fun b => b.length == req.len)
/-- A BAR2 request: as many bytes as its write carries. -/
def okBar2Req (req : Bar2Req) : Bool := req.write.elim true (fun b => b.length == req.len)

/-- Whether every operand of a command names a unit the module has and fits its field. -/
def Instr.wf (i : Instr) : Bool :=
  match i with
  | .nop h => okHandle h
  | .abort h => okHandle h
  | .partitionSetConfigure h data => okHandle h && okObject data
  | .partitionSetDelete h => okHandle h
  | .partitionSetEndGrace h => okHandle h
  | .memAlloc h => okHandle h
  | .memFree h => okHandle h
  | .programLoad h data => okHandle h && okObject data
  | .microprogLoad h data => okHandle h && okObject data
  | .microprogRestore h => okHandle h
  | .pipelineSubmit h data => okHandle h && okObject data
  | .pipelineRun h => okHandle h
  | .pipelineStop h => okHandle h
  | .pipelineStopDelete h => okHandle h
  | .tickSet h => okHandle h
  | .weightsBind h data => okHandle h && okObject data
  | .seqCreate h => okHandle h
  | .seqAppend h data => okHandle h && okObject data
  | .seqSuspend h => okHandle h
  | .seqSuspendPark h => okHandle h
  | .seqSuspendEvictOnly h => okHandle h
  | .seqResumeLazy h => okHandle h
  | .seqResumeEager h => okHandle h
  | .seqDestroy h => okHandle h
  | .prefixLookupLookup h data => okHandle h && okObject data
  | .prefixLookupMap h data => okHandle h && okObject data
  | .prefixLookupInsert h data => okHandle h && okObject data
  | .prefixLookupDrop h => okHandle h
  | .pageEdit h data => okHandle h && okObject data
  | .tierPrefetch h => okHandle h
  | .tierFlush h => okHandle h
  | .videoSessionOpen h data => okHandle h && okObject data
  | .videoSessionReconfig h data => okHandle h && okObject data
  | .videoSessionClose h => okHandle h
  | .videoFrame h data => okHandle h && okObject data
  | .videoFrameEos h data => okHandle h && okObject data
  | .collectiveLaunch h data => okHandle h && okObject data
  | .attest h => okHandle h
  | .sessionOpen h data => okHandle h && okObject data
  | .keyImport h data => okHandle h && okObject data
  | .keyImportErase h data => okHandle h && okObject data
  | .keyRotate h => okHandle h
  | .ledgerRead h => okHandle h
  | .telemetryRead h => okHandle h
  | .fwUpdateStage h data => okHandle h && okObject data
  | .fwUpdateCommit h => okHandle h
  | .fwCommitComplete _ => true
  | .mmTile core => okCore core
  | .mmConv core => okCore core
  | .mmDrain core => okCore core
  | .residualFetchLanded core => okCore core
  | .qzQuant core => okCore core
  | .qzDequant core => okCore core
  | .vxEw core => okCore core
  | .vxRow core => okCore core
  | .vxCol core => okCore core
  | .vxFill core => okCore core
  | .sfFn core => okCore core
  | .sfProg core => okCore core
  | .rsSum core => okCore core
  | .rsMax core => okCore core
  | .rsSmax core => okCore core
  | .rsGap core => okCore core
  | .dmaCopy core => okCore core
  | .dmaSeq core => okCore core
  | .dmaPrefetch core => okCore core
  | .dmaRing core => okCore core
  | .ringBurstFetch core => okCore core
  | .descriptorComplete core _ => okCore core
  | .hxPut core => okCore core
  | .hxGet core => okCore core
  | .hxFree core => okCore core
  | .haloWaitSatisfied core => okCore core
  | .cntClaim core => okCore core
  | .cntAdd core => okCore core
  | .cntCas core => okCore core
  | .cntRead core => okCore core
  | .cntSteal core => okCore core
  | .cntCommit core => okCore core
  | .cntCredit core => okCore core
  | .pgAppend core => okCore core
  | .pgPublish core => okCore core
  | .pgPrefetch core => okCore core
  | .pgInfo core => okCore core
  | .walkerDescriptorEmit cluster => okCluster cluster
  | .colSend core => okCore core
  | .colRecv core => okCore core
  | .colRecvSatisfied core => okCore core
  | .colReduce core => okCore core
  | .colBarrier core => okCore core
  | .usneaGroupComplete core => okCore core
  | .syncDone core => okCore core
  | .syncTick core => okCore core
  | .syncWait core => okCore core
  | .syncWaitSatisfied core => okCore core
  | .syncTime core => okCore core
  | .ctlLi core => okCore core
  | .ctlAlu core => okCore core
  | .ctlCmp core => okCore core
  | .ctlPset core => okCore core
  | .ctlBr core => okCore core
  | .ctlLoop core => okCore core
  | .ctlLdr core => okCore core
  | .ctlStr core => okCore core
  | .ctlNop core => okCore core
  | .operationComplete core _ => okCore core
  | .doneReport core => okCore core
  | .tickBoundary p => okPart p
  | .stretchLimit p => okPart p
  | .boundaryDecision p => okPart p
  | .holdExpiry p _ => okPart p
  | .editBatchExpiry p => okPart p
  | .resumeExpiry p _ => okPart p
  | .runWindowCountReached p _ => okPart p
  | .pipelineStopDrained p _ => okPart p
  | .ledgerStagingPlace p => okPart p
  | .parkComplete p _ => okPart p
  | .resumeComplete p _ => okPart p
  | .baseDieRequest stack req => okStack stack && okStackReq req
  | .throttleRelease stack _ => okStack stack
  | .tagConversionDone stack unit => okStack stack && okUnit unit
  | .thermalSample stack _ => okStack stack
  | .dramRefresh stack bank => okStack stack && okBank bank
  | .backgroundAtomScrub stack _ _ => okStack stack
  | .migrationLanded p _ _ => okPart p
  | .folnasRetryBound p _ _ => okPart p
  | .reserveFrameReturn p _ => okPart p
  | .backgroundWriteBack p => okPart p
  | .evictionWriteBackDone p _ => okPart p
  | .tierFlushDurable h _ => okHandle h
  | .garbageCollection block => okBlock block
  | .wearLevelling cold worn => okBlock cold && okBlock worn
  | .readDisturbRefresh block => okBlock block
  | .folnasPatrol block _ => okBlock block
  | .badBlockRetire block => okBlock block
  | .readOnlyModeEntry => true
  | .flitCrcFailure link dir => okLink link && okDir dir
  | .replayRunExhausted link => okLink link
  | .retrainComplete link _ => okLink link
  | .usneaHubFailure level unit => okHub level unit
  | .clusterControlCoreFailure cluster => okCluster cluster
  | .carnelianFault _ => true
  | .peridotWatchdog core => decide (core < 8)
  | .peridotSramError core => decide (core < 8)
  | .videoFrameStart engine => okEngine engine
  | .guardRowCounted engine _ => okEngine engine
  | .videoFrameComplete engine _ => okEngine engine
  | .agateEngineFailure engine => okEngine engine
  | .sweepComplete p => okPart p
  | .commandFetch fn q cmd => okFn fn && okQueue q && okEntry cmd
  | .commandTimeout h => okHandle h
  | .timeoutDeferralEnd h => okHandle h
  | .lateCompletion h => okHandle h
  | .qpDrainComplete fn q => okFn fn && okQueue q
  | .requesterCompletionTimeout fn q => okFn fn && okQueue q
  | .qpSqDoorbell fn q value => okFn fn && okQueue q && okValue value
  | .qpCqDoorbell fn q value => okFn fn && okQueue q && okValue value
  | .qpEnable fn q value => okFn fn && okQueue q && okValue value
  | .qpDisable fn q value => okFn fn && okQueue q && okValue value
  | .qpRearm fn q value => okFn fn && okQueue q && okValue value
  | .hostBar2WindowWrite fn value => okFn fn && okBase value
  | .hostPortCfgWrite fn value => okFn fn && okValue value
  | .berylThermCfgWrite fn value => okFn fn && okValue value
  | .tickRegisterLowRead fn _ => okFn fn
  | .registerWrite fn _ value => okFn fn && okValue value
  | .romRecWrite fn _ => okFn fn
  | .romRecFinish fn => okFn fn
  | .romRecAbort fn => okFn fn
  | .bar2Request fn _ req => okFn fn && okBar2Req req
  | .bar2Resize fn _ => okFn fn
  | .hostLinkUp port _ _ _ => okPort port
  | .hostLinkDown port => okPort port
  | .perstAssert port => okPort port
  | .perstRelease port => okPort port
  | .hotReset port => okPort port
  | .functionLevelReset fn => okFn fn
  | .vfDisable port => okPort port
  | .graceExpiry p => okPart p
  | .d3hotEntry port => okPort port
  | .d0Return port => okPort port
  | .lowPowerEntry => true
  | .getVersion src => okSrc src
  | .getCapabilities src => okSrc src
  | .negotiateAlgorithms src _ => okSrc src
  | .getDigests src => okSrc src
  | .getCertificate src => okSrc src
  | .getMeasurements src _ => okSrc src
  | .keyExchange src _ => okSrc src
  | .finish src _ => okSrc src
  | .pskExchange src _ _ => okSrc src
  | .pskFinish src _ => okSrc src
  | .ideKm src fn _ => okSrc src && okFn fn
  | .ideStreamLeavesSecure port _ => okPort port
  | .debugUnlockToken _ _ _ => true
  | .pldmFirmwareUpdate _ => true
  | .pldmPortConfigWrite _ => true
  | .pldmAlertClear => true
  | .dieTemperatureSample die _ => okDie die
  | .inputPowerOn _ => true
  | .undervoltage _ => true
  | .overvoltage _ _ => true
  | .inputOvercurrent _ _ => true
  | .latchClear _ _ => true
  | .modResetAssert _ => true
  | .modResetRelease => true
  | .bootStageComplete _ => true
  | .scrubComplete p => okPart p
  | .demotionComplete p _ _ => okPart p
  | .weightsBindComplete h => okHandle h
  | .romRecActionDone _ => true
  | .pldmThermCfgWrite value => okValue value
  | .managementEndGrace p => okPart p
  | .vfEnable port _ => okPort port
  | .usneaMessageCrcFailure level unit => okHub level unit || (level == 2 && decide (unit < 4))
  | .msixMessageSend fn q => okFn fn && okQueue q

end Sys2Proof
end

