-- ==== Sys2Proof/Safety.lean ====
section
/-!
DEFINITION. The terms in which the statements are made: when an operation issues, when a command starts, which
commands act on the platform, and the invariant that every step keeps.
-/

namespace Sys2Proof.Machine

/-- The word `w` at the program counter of core `c` issues as an operation of a class and op (R58 to R63, R83). -/
abbrev Issues (s : State) (c cls op : Nat) (w : Bytes) : Prop :=
  s.plat.up = true ∧ c < 256 ∧ s.dev.issuing c cls op = .go w

/-- The command of handle slot `h` is of an opcode, has been fetched and may start (R352, R358). -/
abbrev Starts (s : State) (h op : Nat) (c : Cmd) : Prop :=
  s.plat.up = true ∧ s.dev.cmd h = some c ∧ c.op = op ∧ c.phase = .fetched ∧ s.dev.startable h c = true

/-- It starts, and none of its field checks fails. -/
abbrev Passes (s : State) (h op : Nat) (c : Cmd) (checks : List (Nat × Nat × Bool)) : Prop :=
  Starts s h op c ∧ firstFail checks = none

/-- Core `c` exists and the module runs. -/
abbrev CoreUp (s : State) (c : Nat) : Prop := s.plat.up = true ∧ c < 256

/-- Partition `p` exists and the module runs. -/
abbrev PartUp (s : State) (p : Nat) : Prop := s.plat.up = true ∧ p < 4

/-- Function `f` exists and the module is READY. -/
abbrev FnUp (s : State) (f : Nat) : Prop := s.plat.up = true ∧ f < fnCount ∧ (s.dev.fn f).present = true

/-- Queue pair `q` is one of function `f`'s, and the module is READY (R346). -/
abbrev QpUp (s : State) (f q : Nat) : Prop := FnUp s f ∧ q < s.dev.qpCount f

/-- Port `n` is one of the configuration's, and its responders answer (R328, R411). -/
abbrev PortUp (s : State) (n : Nat) : Prop := n < 4 ∧ s.plat.answers = true ∧ n < portsOf s.plat.portNow

/-- An SPDM request reaches Carnelian: its transport exists, and so does its function (R381). -/
abbrev SpdmUp (s : State) (src : SpdmSrc) : Prop :=
  s.plat.up = true ∧ spdmUnit src = true ∧ (spdmFn src).elim true (fun f => (s.dev.fn f).present) = true ∧
    s.dev.carnelian = true

/-- The data object of a command lies in host memory and below 2^64 (R337, R354). -/
abbrev HostObject (c : Cmd) (n : Nat) : Prop := bitOf (c.field 2 1) 1 = false ∧ c.field 16 8 + n ≤ 2 ^ 64

/-- The out area of a command, whose address stands at byte `off`, lies in host memory and below 2^64. -/
abbrev HostOut (c : Cmd) (off n : Nat) : Prop := bitOf (c.field 2 1) 2 = false ∧ c.field off 8 + n ≤ 2 ^ 64

/-- The object's bytes: those given, zeros beyond them. -/
def objectOf (data : Bytes) (n : Nat) : Bytes := data.take n ++ List.replicate (n - data.length) 0

/-- A core whose word has entered the window: the slot is taken at the back, the program counter is past the word. -/
def Core.entered (k : Core) (w : Bytes) (status : Nat) (cond : Bool) (wait : Wait) (now : Nat) : Core :=
  { k with
    window := k.window ++ [⟨k.nextId, k.pc, w, footOf k.aregs w, status, cond, wait, now⟩]
    nextId := k.nextId + 1
    pc := k.pc + 1 }

/-- A core after an operation of a unit: the scratchpad of its result unless it is empty, its condition (R84). -/
def Core.ran (k : Core) (w : Bytes) (empty : Bool) (r : Mem × Bool) (now : Nat) : Core :=
  if empty then k.entered w stOK false .ready now else { k with sp := r.1 }.entered w stOK r.2 .ready now

/-- A cluster's request queue is empty, and no pg. operation of its cores waits for a place (R73). -/
abbrev PgQuiet (d : Dev) (cl : Nat) : Prop :=
  (d.cluster cl).pgQ = [] ∧ ∀ i, i < 8 → ∀ e ∈ (d.core (8 * cl + i)).window, e.wait ≠ .pgq

/-- A pg. operation is in the window and its request alone in the queue of its cluster. -/
def Dev.pgAsked (d : Dev) (c : Nat) (w : Bytes) : Dev :=
  (d.pushOp c w stOK false .pgq).modCluster (clusterOfCore c) (fun x => { x with pgQ := [⟨c, (d.core c).nextId⟩] })

/-- The state with one core replaced. -/
def State.withCore (s : State) (c : Nat) (k : Core) : State := s.onDev (fun d => d.setCore c k)

/-- The newest operation of a core's window. -/
def Core.newest (k : Core) : Option Issued := k.window.getLast?

/-- The commands whose rules let them change the platform: power, boot, pins, firmware, settings kept on the
management side, stored layout. Every other command acts on the device alone. -/
def onPlatform (i : Instr) : Prop :=
  (∃ x y, i = .partitionSetConfigure x y) ∨ (∃ x, i = .partitionSetDelete x) ∨
  (∃ x, i = .partitionSetEndGrace x) ∨ (∃ x, i = .scrubComplete x) ∨ (∃ x y, i = .fwUpdateStage x y) ∨
  (∃ x, i = .fwUpdateCommit x) ∨ (∃ x, i = .fwCommitComplete x) ∨ (∃ x y, i = .thermalSample x y) ∨
  i = .readOnlyModeEntry ∨ (∃ x y, i = .flitCrcFailure x y) ∨ (∃ x, i = .replayRunExhausted x) ∨ (∃ x y, i = .retrainComplete x y) ∨
  (∃ x y, i = .usneaHubFailure x y) ∨ (∃ x y, i = .usneaMessageCrcFailure x y) ∨ (∃ x, i = .peridotWatchdog x) ∨ (∃ x, i = .peridotSramError x) ∨
  (∃ x, i = .agateEngineFailure x) ∨ (∃ x y, i = .hostPortCfgWrite x y) ∨
  (∃ x y, i = .berylThermCfgWrite x y) ∨ (∃ x y z, i = .registerWrite x y z) ∨
  (∃ x y, i = .romRecWrite x y) ∨ (∃ x, i = .romRecFinish x) ∨ (∃ x, i = .romRecAbort x) ∨
  (∃ x, i = .romRecActionDone x) ∨ (∃ x, i = .perstAssert x) ∨ (∃ x, i = .perstRelease x) ∨
  (∃ x, i = .d0Return x) ∨ i = .lowPowerEntry ∨ (∃ x y z, i = .debugUnlockToken x y z) ∨
  (∃ x, i = .pldmFirmwareUpdate x) ∨ (∃ x, i = .pldmPortConfigWrite x) ∨ (∃ x, i = .pldmThermCfgWrite x) ∨
  i = .pldmAlertClear ∨ (∃ x y, i = .dieTemperatureSample x y) ∨ (∃ x, i = .inputPowerOn x) ∨
  (∃ x, i = .undervoltage x) ∨ (∃ x y, i = .overvoltage x y) ∨ (∃ x y, i = .inputOvercurrent x y) ∨
  (∃ x y, i = .latchClear x y) ∨ (∃ x, i = .modResetAssert x) ∨ i = .modResetRelease ∨
  (∃ x, i = .bootStageComplete x)

/-- The commands that issue an operation of core `c`, each with its class and op (R67). -/
def operationsOf (c : Nat) : List (Instr × Nat × Nat) :=
  List.append
    [(Instr.mmTile c, 1, 1), (Instr.mmConv c, 1, 2), (Instr.mmDrain c, 1, 3), (Instr.qzQuant c, 2, 1),
     (Instr.qzDequant c, 2, 2), (Instr.vxEw c, 3, 1), (Instr.vxRow c, 3, 2), (Instr.vxCol c, 3, 3),
     (Instr.vxFill c, 3, 4), (Instr.sfFn c, 4, 1), (Instr.sfProg c, 4, 2), (Instr.rsSum c, 5, 1),
     (Instr.rsMax c, 5, 2), (Instr.rsSmax c, 5, 3), (Instr.rsGap c, 5, 4), (Instr.dmaCopy c, 6, 1),
     (Instr.dmaSeq c, 6, 2), (Instr.dmaPrefetch c, 6, 3), (Instr.dmaRing c, 6, 4), (Instr.cntClaim c, 7, 1),
     (Instr.cntAdd c, 7, 2), (Instr.cntCas c, 7, 3), (Instr.cntRead c, 7, 4), (Instr.cntSteal c, 7, 5)]
    [(Instr.cntCommit c, 7, 6), (Instr.cntCredit c, 7, 7), (Instr.hxPut c, 8, 1), (Instr.hxGet c, 8, 2),
     (Instr.hxFree c, 8, 3), (Instr.pgAppend c, 9, 1), (Instr.pgPublish c, 9, 2), (Instr.pgPrefetch c, 9, 3),
     (Instr.pgInfo c, 9, 4), (Instr.colSend c, 10, 1), (Instr.colRecv c, 10, 2), (Instr.colReduce c, 10, 3),
     (Instr.colBarrier c, 10, 4), (Instr.syncDone c, 11, 1), (Instr.syncTick c, 11, 2), (Instr.syncWait c, 11, 3),
     (Instr.syncTime c, 11, 4), (Instr.ctlLi c, 12, 1), (Instr.ctlAlu c, 12, 2), (Instr.ctlCmp c, 12, 3),
     (Instr.ctlPset c, 12, 4), (Instr.ctlBr c, 12, 5), (Instr.ctlLoop c, 12, 6), (Instr.ctlLdr c, 12, 7),
     (Instr.ctlStr c, 12, 8), (Instr.ctlNop c, 12, 9)]

/-- A boot has at most six stages behind it before READY (R411). -/
def Boot.inOrder : Boot → Bool
  | .stage n => decide (n ≤ 6)
  | _ => true

/-- The invariant of the platform: BERYL_THERM_CFG holds legal values (R258), the port codes are codes of R328, the
recovery chunk fits its field (R419), the module is off exactly when it is without power (R404, R405), MOD_PWRGD is
high exactly while the module is neither off nor held in reset (R406), and the boot is in order (R411). -/
abbrev State.Inv (s : State) : Prop :=
  (85 ≤ s.plat.throttleC ∧ s.plat.throttleC ≤ 100 ∧ 2 ≤ s.plat.hysteresisC ∧ s.plat.hysteresisC ≤ 10) ∧
  (s.plat.portNext < 4 ∧ s.plat.portNow < 4) ∧ s.plat.rom.chunk < 512 ∧
  (s.plat.boot == .off) = !s.plat.powered ∧ s.plat.pwrgd = (s.plat.boot != .off && s.plat.boot != .held) ∧
  s.plat.boot.inOrder = true

end Sys2Proof.Machine
end

