-- ==== Sys2Proof/Certificates/Slice0/Obligations.lean ====
section
/-!
DEFINITION. The statements: what each command and each shared operation does, by the rules of the spec.
-/

open Sys2Proof Sys2Proof.Machine

/-! ## The block as a whole -/

/-- The command at the front of the queue runs on the state with the queue's rest. -/
def Obligations.StepRunsTheFrontCommand : Prop :=
  ∀ (s : State) (c : Instr) (rest : List Instr),
    step { s with pending := c :: rest } = exec c { s with pending := rest }

/-- MODEL'S CHOICE (logs 2 and 160): on an empty queue one tc of the module counter passes while the reference runs,
and nothing else changes before the module serves work; a module without its reference does not change at all.
While it serves work a free value may strike a memory word or a core, and nothing but cores and clusters; of a core
it changes only its words with an error and whether it faults. -/
def Obligations.IdleStepPassesTime : Prop :=
  ∀ s : State, s.pending = [] →
    (s.plat.clocked = false → step s = .next s) ∧
    (s.plat.clocked = true → s.plat.up = false → step s = .next { s with dev := { s.dev with now := s.dev.now + 1 } }) ∧
    (s.plat.up = true → step s = .next { s with dev := (Dev.struck { s.dev with now := s.dev.now + 1 }).flushEvents }) ∧
    (∀ (d : Dev) v c, ∃ cs ls, d.strike v = { d with cores := cs, clusters := ls } ∧
      ∃ bad soft f, (d.strike v).core c = { d.core c with bad := bad, soft := soft, faulted := f })

/-- Every command whose operands name units the module has answers a next state, from every state: no stop, no refusal. -/
def Obligations.WellFormedCommandsAnswer : Prop :=
  ∀ (i : Instr) (s : State), i.wf = true → ∃ t, exec i s = .next t

/-- A command changes everything but the queue: the commands that wait behind it stay as they are. FRAME: a command
that is not one of `onPlatform` leaves the whole platform as it is: input and latches, boot, pins, firmware,
settings, stored layout, fuses. -/
def Obligations.CommandsKeepWhatTheyDoNotName : Prop :=
  (∀ (i : Instr) (s t : State), exec i s = .next t → t.pending = s.pending) ∧
  (∀ (i : Instr) (s t : State), exec i s = .next t → onPlatform i ∨ t.plat = s.plat)

/-- The machine right after reset: the boot is at its start with the input on and nothing latched, the module counter
is 0, BERYL_THERM_CFG holds throttle_c 0x5F and hysteresis_c 0x05, HOST_PORT_CFG 0, the stored layout is the
shipped one, and every function's BAR2 window starts at 0x3C00_0000_0000. The shipped layout's `dies` and the BAR2
size are the model's reading (logs 3 and 5). -/
def Obligations.ResetValues : Prop :=
  State.reset.plat.boot = .stage 0 ∧ State.reset.plat.input = true ∧ State.reset.plat.latch = none ∧
  State.reset.dev.now = 0 ∧ State.reset.plat.throttleC = 0x5F ∧ State.reset.plat.hysteresisC = 0x05 ∧
  State.reset.plat.portNext = 0 ∧ State.reset.plat.layouts = [(0, Layout.shipped)] ∧
  Layout.shipped.unifiedGib = 49152 ∧ Layout.shipped.storeGib = 8192 ∧ Layout.shipped.volatileGib = 512 ∧
  Layout.shipped.poolGib = 496 ∧ Layout.shipped.functions = [(0, 64)] ∧
  (∀ f, (State.reset.dev.fn f).bar2Base = 0x3C0000000000) ∧ State.reset.pending = []

/-- The invariant of the platform holds right after reset. -/
def Obligations.ResetMeetsTheInvariant : Prop := State.reset.Inv

/-- Every step keeps the invariant of the platform: legal thermal thresholds, legal port codes, a chunk within its
field, off exactly without power, MOD_PWRGD high exactly while the module is neither off nor held, the boot in
order. -/
def Obligations.StepsKeepTheInvariant : Prop :=
  ∀ s t : State, s.Inv → step s = .next t → t.Inv

/-! ## The video engines -/

/-- VIDEO_SESSION: each operation is refused on an engine where the partition holds no unit. OPEN checks its object,
then its share of the engine, and answers the session's number; RECONFIG may change the rate fields alone, from the
next frame on; CLOSE aborts the waiting frames and ends with the frame being coded. VIDEO_FRAME with its object in
host memory: a frame that passes waits behind the others of its session under the next display index, and begins a
stream where it is the first or follows an eos; a decode frame of no bytes is empty; one with eos makes every
waiting frame one to be coded, and waits for the last. A failed engine ends both with DEVICE_FAULT, and without a
session both are INVALID. An engine's rows: it starts a frame only while it codes none, and only one that may
start, of the partition whose turn it is; the guard commits a guard row whose bits leave room for the rest coded
minimal, discards it else with the later rows of its unit that have started, and codes it minimal after the third
failure, as it does every row of a minimal frame; a frame ends after its last row, and frames whose records wait
end first; a failed engine codes no more and is reported as kind 3. -/
def Obligations.VideoSessionsAndFrames : Prop :=
  (∀ (s : State) (h p j n : Nat) (c : Cmd) (data o : Bytes) (v : VSession), p = c.part → j = c.field 29 1 → n = c.field 24 4 →
      o = objectOf data 64 → Starts s h 0x60 c →
      ((3 < j ∨ (s.dev.part p).units j = 0) →
        (c.field 28 1 = 0 → n = 64 → exec (.videoSessionOpen h data) s = .next (s.onDev (fun d => d.failAt h stPartition 29))) ∧
        (c.field 28 1 = 1 → n = 64 → exec (.videoSessionReconfig h data) s = .next (s.onDev (fun d => d.failAt h stPartition 29))) ∧
        (c.field 28 1 = 2 → n = 0 → exec (.videoSessionClose h) s = .next (s.onDev (fun d => d.failAt h stPartition 29)))) ∧
      (c.field 28 1 = 0 → n = 64 → j ≤ 3 → (s.dev.part p).units j ≠ 0 → c.field 30 2 = 0 → firstFail (rsvBytes c [(32, 32)]) = none →
        HostObject c 64 → ∀ (e : Engine) (id : Nat) (mine : List Bytes), e = s.dev.engine j → id = e.nextSession * 4 + j →
          mine = (e.sessions.filter (fun v => v.2.part == p)).map (·.2.obj) →
        (∀ f, firstFail (sessionChecks (s.dev.part p) o (Config.videoHeaderBits id 0)) = some f →
          exec (.videoSessionOpen h data) s = .next (s.onDev (fun d => d.failObj h f.1 f.2))) ∧
        (firstFail (sessionChecks (s.dev.part p) o (Config.videoHeaderBits id 0)) = none → e.failed = true →
          exec (.videoSessionOpen h data) s = .next (s.onDev (fun d => d.complete h stDeviceFault 0 0))) ∧
        (firstFail (sessionChecks (s.dev.part p) o (Config.videoHeaderBits id 0)) = none → e.failed = false →
          (shareExceeded (o :: mine) ((s.dev.part p).units j) = true ∨ 4 * (s.dev.part p).units j < mine.length + 1) →
          exec (.videoSessionOpen h data) s = .next (s.onDev (fun d => d.failAt h stBusy 29))) ∧
        (firstFail (sessionChecks (s.dev.part p) o (Config.videoHeaderBits id 0)) = none → e.failed = false →
          shareExceeded (o :: mine) ((s.dev.part p).units j) = false → mine.length + 1 ≤ 4 * (s.dev.part p).units j →
          exec (.videoSessionOpen h data) s = .next (s.onDev (fun d => (d.modEngine j (fun e => { e with
            nextSession := e.nextSession + 1
            sessions := Tab.put e.sessions id ⟨p, o, [], 0, 0, 0, 0, none, fieldOf o 44 4, false, false, 0, none⟩ })).complete
              h stOK id 0)))) ∧
      (c.field 28 1 = 1 → n = 64 → j ≤ 3 → (s.dev.part p).units j ≠ 0 → c.field 30 2 = 0 → s.dev.session p (c.field 32 4) = some v →
        firstFail (rsvBytes c [(36, 28)]) = none → HostObject c 64 → ∀ cs,
          cs = (List.range 64).map (fun i => (i, stInvalid, !rateByte i && fieldOf o i 1 != fieldOf v.obj i 1)) ++
            rateChecks o (Config.videoHeaderBits (c.field 32 4) v.nextCoded) →
        (∀ f, firstFail cs = some f → exec (.videoSessionReconfig h data) s = .next (s.onDev (fun d => d.failObj h f.1 f.2))) ∧
        (firstFail cs = none → exec (.videoSessionReconfig h data) s = .next (s.onDev (fun d =>
          (d.modSession (c.field 32 4) (fun v => { v with obj := o })).complete h stOK (c.field 32 4) 0)))) ∧
      (c.field 28 1 = 2 → n = 0 → j ≤ 3 → (s.dev.part p).units j ≠ 0 → c.field 30 2 = 0 → s.dev.session p (c.field 32 4) = some v →
        firstFail (rsvBytes c [(36, 28)]) = none → exec (.videoSessionClose h) s = .next (s.onDev (fun d =>
          (((d.running h).modSession (c.field 32 4) (fun v => { v with closing := some h })).failWaiting
            (c.field 32 4) stAborted).sessionIdle (c.field 32 4))))) ∧
  ((∀ (s : State) (h p id : Nat) (c : Cmd) (data o : Bytes) (v : VSession), p = c.part → id = c.field 28 4 →
      o = objectOf data 256 → Starts s h 0x61 c → c.field 24 4 = 256 → s.dev.session p id = some v →
      firstFail (rsvBytes c [(32, 32)]) = none → HostObject c 256 → (s.dev.engine (id % 4)).failed = false →
      (bitOf (fieldOf data 0 1) 0 = false →
        ∀ empty cs, empty = (voDecode v.obj && fieldOf o 32 4 == 0) →
          cs = (if empty then emptyChecks v.obj o else frameChecks (s.dev.part p) v.obj o) →
        (∀ f, firstFail cs = some f → exec (.videoFrame h data) s = .next (s.onDev (fun d => d.failObj h f.1 f.2))) ∧
        (firstFail cs = none → empty = true → exec (.videoFrame h data) s = .next (s.onDev (fun d => d.complete h stOK 0 0))) ∧
        (firstFail cs = none → empty = false → exec (.videoFrame h data) s = .next (s.onDev (fun d =>
          (d.running h).modSession id (fun v => { v with
            frames := v.frames ++ [⟨h, o, v.nextDisplay, if v.ended = v.nextDisplay then v.nextDisplay else v.base⟩]
            nextDisplay := v.nextDisplay + 1
            base := if v.ended = v.nextDisplay then v.nextDisplay else v.base }))))) ∧
      (bitOf (fieldOf data 0 1) 0 = true →
        (∀ f, firstFail (frameRsv o) = some f →
          exec (.videoFrameEos h data) s = .next (s.onDev (fun d => d.failObj h f.1 f.2))) ∧
        (firstFail (frameRsv o) = none → v.eosBy = none → exec (.videoFrameEos h data) s = .next (s.onDev (fun d =>
          ((d.running h).modSession id (fun v => { v with ended := v.nextDisplay, eosBy := some h })).sessionIdle id))))) ∧
    (∀ (s : State) (h id : Nat) (c : Cmd) (data : Bytes) (i : Instr), id = c.field 28 4 → Starts s h 0x61 c →
      c.field 24 4 = 256 → HostObject c 256 → i = (if bitOf (fieldOf data 0 1) 0 then .videoFrameEos h data else .videoFrame h data) →
      (s.dev.session c.part id = none → exec i s = .next (s.onDev (fun d => d.failAt h stInvalid 28))) ∧
      ((s.dev.session c.part id).isSome = true → firstFail (rsvBytes c [(32, 32)]) = none → (s.dev.engine (id % 4)).failed = true →
        exec i s = .next (s.onDev (fun d => d.complete h stDeviceFault 0 0))))) ∧
  (∀ (s : State) (j bits : Nat) (e : Engine) (r : FrameResult), s.plat.up = true → j < 4 → e = s.dev.engine j →
      ((e.failed = true ∨ e.coding.isSome = true ∨ s.plat.lowPower = true ∨
          e.nextTurn (fun p => (s.dev.part p).units j) ((s.dev.mayStart j).map (fun x => x.2.1.part)) = none) →
        exec (.videoFrameStart j) s = .next s) ∧
      (∀ p left id v f, e.failed = false → e.coding = none → s.plat.lowPower = false →
        e.nextTurn (fun p => (s.dev.part p).units j) ((s.dev.mayStart j).map (fun x => x.2.1.part)) = some (p, left) →
        ∀ mine : List (Nat × VSession × VFrame), mine = (s.dev.mayStart j).filter (fun x => x.2.1.part == p) →
        mine[s.dev.draw.1 % mine.length]? = some (id, v, f) →
        ∀ t, t = (s.dev.draw.2.startFrame j id v f).modEngine j (fun e => { e with turn := v.part, turnLeft := left }) →
        (s.dev.draw.2.engineWay j v.part (startExtents v.obj f.obj) false).1 = 0 → s.dev.draw.2.affords t = true →
        exec (.videoFrameStart j) s = .next { s with dev := t }) ∧
      (e.ends ≠ [] → exec (.videoFrameComplete j r) s = .next (s.onDev (fun d => d.endsGo j e.ends))) ∧
      (e.coding = none → e.ends = [] → exec (.guardRowCounted j bits) s = .next s ∧ exec (.videoFrameComplete j r) s = .next s) ∧
      (∀ k v m, e.coding = some k → Tab.find e.sessions k.session = some v → m = minimalRow k.obj k.key →
        (k.rows ≤ k.row → exec (.guardRowCounted j bits) s = .next s) ∧
        (k.row < k.rows → k.minimal = true → ∃ (t : State) (y : Coding), exec (.guardRowCounted j bits) s = .next t ∧
          (t.dev.engine j).coding = some y ∧ y.c = k.c + minimalBits k.obj k.key k.row bits ∧ y.row = k.row + 1 ∧
          y.minRows = k.minRows ∧ y.reenc = k.reenc) ∧
        (k.row < k.rows → k.minimal = false → k.tries = 3 → ∃ (t : State) (y : Coding), exec (.guardRowCounted j bits) s = .next t ∧
          (t.dev.engine j).coding = some y ∧ y.c = k.c + minimalBits k.obj k.key k.row bits ∧ y.row = k.row + 1 ∧ y.tries = 0 ∧
          y.minRows = k.minRows + 1 ∧ y.reenc = k.reenc) ∧
        (k.row < k.rows → k.minimal = false → k.tries ≠ 3 → k.c + bits + m * (k.rows - k.row - 1) + k.header ≤ k.fmax →
          ∃ (t : State) (y : Coding), exec (.guardRowCounted j bits) s = .next t ∧
            (t.dev.engine j).coding = some y ∧ y.c = k.c + bits ∧ y.row = k.row + 1 ∧ y.tries = 0 ∧
            y.minRows = k.minRows ∧ y.reenc = k.reenc) ∧
        (k.row < k.rows → k.row < (guardList k.obj).length → k.minimal = false → k.tries ≠ 3 →
          k.fmax < k.c + bits + m * (k.rows - k.row - 1) + k.header →
          ∃ (t : State) (y : Coding), exec (.guardRowCounted j bits) s = .next t ∧
            (t.dev.engine j).coding = some y ∧ y.c = k.c ∧ y.row = k.row ∧ y.tries = k.tries + 1 ∧
            y.minRows = k.minRows ∧ k.reenc + 1 ≤ y.reenc) ∧
        (k.row < k.rows → e.ends = [] → exec (.videoFrameComplete j r) s = .next s) ∧
        (k.rows ≤ k.row → e.ends = [] → r.poisoned = false → k.lost = false → (r.unsupported = false ∨ voDecode v.obj = false) →
          (s.dev.engineWay j v.part (endExtents k.obj k.frame.obj (k.bytes v)) true).1 = 0 → s.dev.doneWay k.frame.obj = 0 →
          ∀ t, t = s.dev.finishFrame j k v (r.concealed && voDecode v.obj) → s.dev.affords t = true →
          exec (.videoFrameComplete j r) s = .next { s with dev := t }) ∧
        (k.rows ≤ k.row → e.ends = [] → r.poisoned = false → k.lost = false → r.unsupported = true → voDecode v.obj = true →
          exec (.videoFrameComplete j r) s = .next (s.onDev (fun d => d.dropCoding j stUnsupported))) ∧
        (k.rows ≤ k.row → e.ends = [] → (r.poisoned = true ∨ k.lost = true) →
          exec (.videoFrameComplete j r) s = .next (s.onDev (fun d => d.dropCoding j stDeviceFault)))) ∧
      (e.failed = true → exec (.agateEngineFailure j) s = .next s) ∧
      (e.failed = false → exec (.agateEngineFailure j) s = .next { s with
        dev := s.dev.failEngine j
        plat := { s.plat with mgmt := s.plat.mgmt ++ [⟨3, j⟩] } }))

/-! ## Data -/

/-- A memory read back after a write gives what was written, and every byte outside it is as before. Fields of several
bytes are little-endian: the byte at the lowest offset holds the least significant bits. -/
def Obligations.MemoryAndFieldsHoldBytes : Prop :=
  (∀ (m : Mem) (a : Nat) (bs : Bytes),
      Mem.read (Mem.write m a bs) a bs.length = bs ∧
      (∀ b, b < a ∨ a + bs.length ≤ b → Mem.byte (Mem.write m a bs) b = Mem.byte m b) ∧
      (∀ b n, Mem.byte (Mem.clear m a n) b = if a ≤ b ∧ b < a + n then 0 else Mem.byte m b)) ∧
  ((∀ n v, leNat (natLE n v) = v % 256 ^ n ∧ (natLE n v).length = n) ∧
    (∀ bs : Bytes, natLE bs.length (leNat bs) = bs) ∧
    (∀ (bs : Bytes) (b : BitVec 8), leNat (b :: bs) = b.toNat + 256 * leNat bs))

/-- A handle holds its slot in bits [19:0], its generation in [43:20] and its partition in [45:44], nothing above; the
generation that follows 2^24 − 1 is 1, and no generation is 0. -/
def Obligations.HandlesHoldTheirFields : Prop :=
  (∀ h g p, h < 2 ^ 20 → g < 2 ^ 24 → p < 4 →
    bitsOf (handleOf h g p) 19 0 = h ∧ bitsOf (handleOf h g p) 43 20 = g ∧ bitsOf (handleOf h g p) 45 44 = p ∧
    handleOf h g p < 2 ^ 46) ∧
  nextGen (2 ^ 24 - 1) = 1 ∧ (∀ g, g < 2 ^ 24 - 1 → nextGen g = g + 1) ∧ (∀ g, g < 2 ^ 24 → nextGen g ≠ 0 ∧ nextGen g < 2 ^ 24)

/-- An event ring numbers its records from where it stands, keeps their order and never holds more than 4,096: a full
ring loses its oldest record, and the loss is reported. -/
def Obligations.EventRingsHold4096 : Prop :=
  ∀ (r : EventRing) (e : EventRec), r.recs.length ≤ 4096 →
    (r.post e).1.recs.length ≤ 4096 ∧ (r.post e).1.nextSeq = r.nextSeq + 1 ∧
    (r.post e).1.recs.getLast? = some { e with seq := r.nextSeq } ∧
    (r.recs.length < 4096 → (r.post e).2 = 0 ∧ (r.post e).1.recs = r.recs ++ [{ e with seq := r.nextSeq }]) ∧
    (r.recs.length = 4096 → (r.post e).2 = 1 ∧ (r.post e).1.recs = r.recs.tail ++ [{ e with seq := r.nextSeq }])

/-! ## The sequencer -/

/-- When the word at a core's program counter issues as an operation, and when its guard takes it off instead: the core
runs, the word is of the class and op, no operation of the window still has to write its guard; it is not
predicated off; the window has room (ctl. takes none), its fence and the hazards of R59 let it go, no sync.wait is
waiting, the core has not failed, it reads no word that ECC cannot correct, and the word passes its checks. Every
operation command, whatever its class: a word predicated off only moves the program counter past it; a word that
fails a check faults its core; and a word that does not issue yet leaves the whole machine as it is. -/
def Obligations.WordsIssueOrAreTakenOff : Prop :=
  (∀ (d : Dev) (c cls op : Nat) (w : Bytes),
      (d.issuing c cls op = .go w ↔
        (d.core c).phase = .running ∧ (d.core c).pc < (d.core c).words ∧ w = (d.core c).wordAt (d.core c).pc ∧
        opClass w = cls ∧ opCode w = op ∧ guardPending (d.core c) w = false ∧ (d.core c).guardOn w = true ∧
        (cls = 12 ∨ (d.core c).window.length < 32) ∧ (opFence w = true → (d.core c).window = []) ∧
        (∀ e ∈ (d.core c).window, hazard (footOf (d.core c).aregs w) e.foot = false ∧ e.wait.isSync = false) ∧
        (d.core c).faulted = false ∧ (∀ x ∈ (d.core c).bad, inSpans (footOf (d.core c).aregs w).rd x = false) ∧ checkWord (d.checkEnv c) w = none) ∧
      (d.issuing c cls op = .off ↔
        (d.core c).phase = .running ∧ (d.core c).pc < (d.core c).words ∧
        opClass ((d.core c).wordAt (d.core c).pc) = cls ∧ opCode ((d.core c).wordAt (d.core c).pc) = op ∧
        guardPending (d.core c) ((d.core c).wordAt (d.core c).pc) = false ∧
        (d.core c).guardOn ((d.core c).wordAt (d.core c).pc) = false)) ∧
  (∀ (i : Instr) (s : State) (c cls op : Nat), (i, cls, op) ∈ operationsOf c → CoreUp s c →
      (s.dev.issuing c cls op = .off →
        exec i s = .next (s.onDev (fun d => d.setCore c { s.dev.core c with pc := (s.dev.core c).pc + 1 }))) ∧
      (∀ w st, s.dev.issuing c cls op = .bad w st →
        exec i s = .next (s.onDev (fun d => d.faultCore c st (s.dev.core c).pc (opDebugTag w)))) ∧
      (s.dev.issuing c cls op = .no → (s.dev.core c).pc < (s.dev.core c).words → exec i s = .next s))

/-- What a fault of an operation does to a core that runs for a stage of a pipeline. While operations of its window are
still to complete, the core stops and keeps the fault, the first it had; no record changes. With an empty window
its status record holds the first fault's status, word, debug tag and stamp on its replica; the core's cluster is
marked suspect (DEDUCED, log 20), and every core of the pipeline that is not idle stops. No other core's record, no
scratchpad and no program counter changes. -/
def Obligations.FaultsFillTheStatusRecord : Prop :=
  ∀ (d e : Dev) (c st word tag p slot stage : Nat), (d.core c).run = some (p, slot, stage) → e = d.faultCore c st word tag →
    (∀ c', c' ≠ c → (e.core c').stat = (d.core c').stat) ∧
    (∀ c', (e.core c').sp = (d.core c').sp ∧ (e.core c').pc = (d.core c').pc) ∧
    ((d.core c).window ≠ [] → (e.core c).stat = (d.core c).stat ∧
      (e.core c).fault = some ((d.core c).fault.getD ⟨st, word, tag, d.coreTc c⟩) ∧
      ((d.core c).phase ≠ .idle → (e.core c).phase = .stopping)) ∧
    ((d.core c).window = [] →
      (e.core c).stat = (d.core c).fault.getD ⟨st, word, tag, d.coreTc c⟩ ∧ (e.cluster (clusterOfCore c)).suspect = true ∧
      (∀ x, Tab.find (d.part p).pipes slot = some x → ∀ c' ∈ x.cores, (d.core c').phase ≠ .idle →
        (e.core c').phase = .stopping))

/-- CTL_LI to CTL_NOP: each executes at issue, takes no window slot, and changes nothing but its core; of the core it
changes the program counter and what the row names: a register, a predicate, or a word of the scratchpad; a load
corrects single-bit errors in what it reads (R52). -/
def Obligations.ControlWordsRun : Prop :=
  ∀ (s : State) (c : Nat) (w : Bytes) (k : Core), k = { s.dev.core c with pc := (s.dev.core c).pc + 1 } →
    (Issues s c 12 1 w → exec (.ctlLi c) s = .next (s.onDev (fun d => d.setCore c (k.setReg (fieldOf w 16 1) (fieldOf w 20 4))))) ∧
    (Issues s c 12 2 w → exec (.ctlAlu c) s = .next (s.onDev (fun d => d.setCore c
      (k.setReg (fieldOf w 16 1) (aluFn (fieldOf w 19 1) (k.reg (fieldOf w 17 1)) (k.src2 w)))))) ∧
    (Issues s c 12 3 w → exec (.ctlCmp c) s = .next (s.onDev (fun d => d.setCore c
      (k.storeCond w (cmpFn (fieldOf w 19 1) (k.reg (fieldOf w 17 1)) (k.src2 w)))))) ∧
    (Issues s c 12 4 w → exec (.ctlPset c) s = .next (s.onDev (fun d => d.setCore c (k.storeCond w
      (psetFn (fieldOf w 19 1) (k.pred (bitsOf (fieldOf w 17 1) 4 0)) (k.pred (bitsOf (fieldOf w 18 1) 4 0))))))) ∧
    (Issues s c 12 5 w → exec (.ctlBr c) s = .next (s.onDev (fun d => d.setCore c { k with pc := fieldOf w 16 2 }))) ∧
    (Issues s c 12 6 w → ∀ r, r = 16 + bitsOf (fieldOf w 16 1) 2 0 →
      (k.reg r = 0 → exec (.ctlLoop c) s = .next (s.onDev (fun d => d.setCore c k))) ∧
      (k.reg r ≠ 0 → exec (.ctlLoop c) s =
        .next (s.onDev (fun d => d.setCore c { k.setReg r (k.reg r - 1) with pc := fieldOf w 18 2 })))) ∧
    (Issues s c 12 7 w → exec (.ctlLdr c) s = .next (s.onDev (fun d => d.setCore c ((k.setReg (fieldOf w 16 1)
      (Mem.nat k.sp (spAt k.aregs (fieldOf w 20 4) + 4 * bitsOf (fieldOf w 24 1) 4 0) 4)).corrected (footOf k.aregs w).rd)))) ∧
    (Issues s c 12 8 w → exec (.ctlStr c) s = .next (s.onDev (fun d => d.setCore c { k with
      sp := Mem.putNat k.sp (spAt k.aregs (fieldOf w 20 4) + 4 * bitsOf (fieldOf w 24 1) 4 0) 4 (k.reg (fieldOf w 17 1)) }))) ∧
    (Issues s c 12 9 w → exec (.ctlNop c) s = .next (s.onDev (fun d => d.setCore c k)))

/-- ctl.alu and ctl.cmp are the 32-bit operations of their tables: wrapping add, subtract and multiply, the bitwise
functions, shifts by the low five bits, unsigned and signed comparisons. The reduction units: integer sums wrap at
32 bits, maxima and minima are signed, and and or are bitwise; the fold of one contribution is that contribution. -/
def Obligations.IntegerArithmeticIs32Bit : Prop :=
  (∀ x y : BitVec 32,
      aluFn 0 x.toNat y.toNat = (x + y).toNat ∧ aluFn 1 x.toNat y.toNat = (x - y).toNat ∧
      aluFn 2 x.toNat y.toNat = (x &&& y).toNat ∧ aluFn 3 x.toNat y.toNat = (x ||| y).toNat ∧
      aluFn 4 x.toNat y.toNat = (x ^^^ y).toNat ∧ aluFn 5 x.toNat y.toNat = (x <<< (y.toNat % 32)).toNat ∧
      aluFn 6 x.toNat y.toNat = (x >>> (y.toNat % 32)).toNat ∧ aluFn 7 x.toNat y.toNat = (x * y).toNat ∧
      cmpFn 0 x.toNat y.toNat = (x == y) ∧ cmpFn 1 x.toNat y.toNat = (x != y) ∧ cmpFn 2 x.toNat y.toNat = x.ult y ∧
      cmpFn 3 x.toNat y.toNat = y.ule x ∧ cmpFn 4 x.toNat y.toNat = x.slt y ∧ cmpFn 5 x.toNat y.toNat = y.sle x) ∧
  (∀ (x y : BitVec 32) (op type : Nat) (l : List Nat),
      usneaFn 0 0 x.toNat y.toNat = (x + y).toNat ∧
      usneaFn 1 0 x.toNat y.toNat = (if x.slt y then y else x).toNat ∧
      usneaFn 2 0 x.toNat y.toNat = (if y.slt x then y else x).toNat ∧
      usneaFn 3 0 x.toNat y.toNat = (x &&& y).toNat ∧ usneaFn 4 0 x.toNat y.toNat = (x ||| y).toNat ∧
      foldElems op type [l] = l)

/-- A write of a register sets that register modulo 2^32 and no other; loop counters and address registers do not
alias; the program counter, predicates, scratchpad and window are as before. A predicate written holds its value,
and the others theirs; a word without set_en stores nothing. -/
def Obligations.RegistersAndPredicatesAreIndependent : Prop :=
  (∀ (k : Core) (r v j : Nat),
      (k.setReg r v).reg r = v % 2 ^ 32 ∧ (j ≠ r → (k.setReg r v).reg j = k.reg j) ∧ (k.setReg r v).pc = k.pc ∧
      (k.setReg r v).preds = k.preds ∧ (k.setReg r v).sp = k.sp ∧ (k.setReg r v).window = k.window) ∧
  (∀ (k : Core) (w : Bytes) (cond : Bool) (i j : Nat) (v : Bool),
      (k.setPred i v).pred i = v ∧ (j ≠ i → (k.setPred i v).pred j = k.pred j) ∧
      (opSetEn w = true → k.storeCond w cond = k.setPred (opSetPred w) (cond != opSetNeg w)) ∧
      (opSetEn w = false → k.storeCond w cond = k))

/-! ## Operations of the array and the units -/

/-- Every qz., vx., sf. and rs. operation runs at issue: it reads and writes the scratchpad as its row says, enters the
window with its condition, and changes nothing but its core. An empty one writes nothing. qz. waits while a climb
holds the quantize unit, and sf.prog needs a loaded micro-program. sf.prog whose slot holds no loaded micro-program
faults with INVALID. -/
def Obligations.UnitOperationsComplete : Prop :=
  (∀ (s : State) (c : Nat) (w : Bytes) (k : Core) (n : Nat), k = s.dev.core c → n = s.dev.now →
      (Issues s c 2 1 w → k.climb = none →
        exec (.qzQuant c) s = .next (s.withCore c (k.ran w (emptyRows w) (quantArea k w) n))) ∧
      (Issues s c 2 2 w → k.climb = none →
        exec (.qzDequant c) s = .next (s.withCore c (k.ran w (emptyRows w) (dequantArea k w) n))) ∧
      (Issues s c 2 1 w → k.climb.isSome = true → exec (.qzQuant c) s = .next s) ∧
      (Issues s c 3 1 w → exec (.vxEw c) s = .next (s.withCore c (k.ran w (emptyVx w) (vxArea 1 k w) n))) ∧
      (Issues s c 3 2 w → exec (.vxRow c) s = .next (s.withCore c (k.ran w (emptyVx w) (vxArea 2 k w) n))) ∧
      (Issues s c 3 3 w → exec (.vxCol c) s = .next (s.withCore c (k.ran w (emptyVx w) (vxArea 3 k w) n))) ∧
      (Issues s c 3 4 w → exec (.vxFill c) s = .next (s.withCore c (k.ran w (emptyVx w) (vxArea 4 k w) n))) ∧
      (Issues s c 4 1 w → exec (.sfFn c) s =
        .next (s.withCore c (k.ran w (emptyRows w) (sfArea k w (builtin (fieldOf w 38 1))) n))) ∧
      (Issues s c 4 2 w → ∀ img, img = s.dev.microImage c (fieldOf w 38 1) → fieldOf img 1 1 ≠ 0 → exec (.sfProg c) s =
        .next (s.withCore c (k.ran w (emptyRows w) (sfArea k w (microFn img)) n))) ∧
      (Issues s c 5 1 w → exec (.rsSum c) s = .next (s.withCore c (k.ran w (emptyRows w) (sumArea k w) n))) ∧
      (Issues s c 5 2 w → exec (.rsMax c) s = .next (s.withCore c (k.ran w (emptyRows w) (maxArea k w) n))) ∧
      (Issues s c 5 3 w → exec (.rsSmax c) s = .next (s.withCore c (k.ran w (emptyRows w) (smaxArea k w) n))) ∧
      (Issues s c 5 4 w → exec (.rsGap c) s = .next (s.withCore c (k.ran w (emptyRows w) (gapArea k w) n))) ∧
      (∀ r, (k.ran w true r n).sp = k.sp)) ∧
  (∀ (s : State) (c : Nat) (w : Bytes), Issues s c 4 2 w → fieldOf (s.dev.microImage c (fieldOf w 38 1)) 1 1 = 0 →
      exec (.sfProg c) s = .next (s.onDev (fun d => d.faultCore c stInvalid (s.dev.core c).pc (opDebugTag w))))

/-- FRAME of vx.: a byte of the scratchpad outside the destination rows is as before. vx.fill: every element of every
destination row is imm rounded to FP32 and then to d_fmt, and the condition is false. -/
def Obligations.VectorsStayInTheirRows : Prop :=
  (∀ (op : Nat) (k : Core) (w : Bytes) (a rows n : Nat), rows = fieldOf w 32 2 → n = fieldOf w 34 2 →
      (∀ r, r < rows → a < k.ref w 28 + r * fieldOf w 38 2 * 128 ∨
        k.ref w 28 + r * fieldOf w 38 2 * 128 + ceilDiv (n * fmtBits (fieldOf w 43 1)) 8 ≤ a) →
      Mem.byte (vxArea op k w).1 a = Mem.byte k.sp a) ∧
  (∀ (k : Core) (w : Bytes) (n rows pitch : Nat), n = fieldOf w 34 2 → rows = fieldOf w 32 2 → pitch = fieldOf w 38 2 * 128 →
      ceilDiv (n * fmtBits (fieldOf w 43 1)) 8 ≤ pitch →
      (vxArea 4 k w).2 = false ∧
      ∀ r, r < rows → Mem.read (vxArea 4 k w).1 (k.ref w 28 + r * pitch) (ceilDiv (n * fmtBits (fieldOf w 43 1)) 8) =
        packCodes (fmtBits (fieldOf w 43 1))
          (List.replicate n (vxRound (fieldOf w 43 1) (bitOf (fieldOf w 45 1) 0) (d32 (fieldOf w 48 4)))))

/-- mm.tile and mm.conv whose first attempt is not flagged: the accumulator holds the attempt's result, the drain
writes it when the word names an area, the operation ends OK with a false condition, and the other accumulator, the
platform, clusters, stacks and other cores are as before. -/
def Obligations.MatrixProductsRun : Prop :=
  ∀ (s : State) (c : Nat) (w : Bytes) (k : Core) (j : MmJob) (a : Attempt) (i : Instr),
    k = s.dev.core c → j = mmJob k.aregs w →
    (i = .mmTile c ∧ Issues s c 1 1 w ∧ opCode w = 1 ∨ i = .mmConv c ∧ Issues s c 1 2 w ∧ opCode w = 2) →
    k.climb = none → j.kTotal ≠ 0 →
    (bitOf (fieldOf w (if opCode w = 1 then 45 else 51) 1) 1 &&
      (k.acc j.accSel).isInt != fmtInt (fieldOf w (if opCode w = 1 then 42 else 48) 1)) = false →
    a = j.attempt j.startRung k.sp (k.acc j.accSel) (Config.freeNat s.dev.free) →
    (j.bounded = false ∨ a.exceeding ≤ j.flagCount) →
    ∃ t : State, exec i s = .next t ∧ ((t.dev.core c).acc j.accSel = a.acc ∧ t.plat = s.plat ∧
      (t.dev.core c).pc = k.pc + 1 ∧ (t.dev.core c).window.length = k.window.length + 1 ∧
      ((t.dev.core c).newest.map (fun e => (e.word, e.status, e.cond, e.wait))) = some (k.pc, stOK, false, .ready) ∧
      (t.dev.core c).sp = (if spAbsent (fieldOf w 24 4) then k.sp
        else Mem.write k.sp (spAt k.aregs (fieldOf w 24 4)) (drainBytes a.acc j.outFmt j.outScale)) ∧
      (∀ x, (x = 0) ≠ (j.accSel = 0) → (t.dev.core c).acc x = k.acc x) ∧
      (t.dev.core c).preds = k.preds ∧ (t.dev.core c).aregs = k.aregs ∧
      (∀ c', c' ≠ c → t.dev.core c' = s.dev.core c') ∧ t.dev.clusters = s.dev.clusters ∧ t.dev.beryl = s.dev.beryl)

/-- An mm.tile of no K columns, or an mm.conv of no taps or channels, is empty: it completes OK and writes nothing.
mm.drain writes the accumulator it names in the format and scale of the word, and changes nothing but its core; an
FP32 accumulator has no INT32 form, which faults with INVALID. While a climb holds the array its words wait:
mm.tile, mm.conv and mm.drain change nothing. -/
def Obligations.ArrayWordsDrainAndWait : Prop :=
  (∀ (s : State) (c : Nat) (w : Bytes), (s.dev.core c).climb = none →
      (Issues s c 1 1 w → opCode w = 1 → fieldOf w 40 2 = 0 →
        exec (.mmTile c) s = .next (s.withCore c ((s.dev.core c).entered w stOK false .ready s.dev.now))) ∧
      (Issues s c 1 2 w → opCode w = 2 → (fieldOf w 32 2 = 0 ∨ (convGeo w).taps = 0) → exec (.mmConv c) s =
        .next (s.withCore c (((s.dev.core c).noteStrides w).entered w stOK false .ready s.dev.now)))) ∧
  (∀ (s : State) (c : Nat) (w : Bytes) (k : Core) (x : Acc), k = s.dev.core c → Issues s c 1 3 w → k.climb = none →
      x = k.acc (bitsOf (fieldOf w 20 1) 0 0) →
      ((fieldOf w 21 1 ≠ 0x11 ∨ x.isInt = true) → exec (.mmDrain c) s = .next (s.withCore c
        (k.ran w false (Mem.write k.sp (spAt k.aregs (fieldOf w 16 4)) (drainBytes x (fieldOf w 21 1) (fieldOf w 24 4)), false)
          s.dev.now))) ∧
      (fieldOf w 21 1 = 0x11 → x.isInt = false →
        exec (.mmDrain c) s = .next (s.onDev (fun d => d.faultCore c stInvalid k.pc (opDebugTag w))))) ∧
  (∀ (s : State) (c : Nat) (w : Bytes), (s.dev.core c).climb.isSome = true →
      (Issues s c 1 1 w → exec (.mmTile c) s = .next s) ∧ (Issues s c 1 2 w → exec (.mmConv c) s = .next s) ∧
      (Issues s c 1 3 w → exec (.mmDrain c) s = .next s))

/-- mm.tile and mm.conv whose first attempt is flagged: the word enters the window and holds the array with its climb
until the attempt ends; accumulators and scratchpad are as before. OPERATION_COMPLETE of a flagged attempt (R125,
R127): a finding that is not finite and the last rung end it at the ceiling; a stage that no longer runs abandons
it, its record holding the budget of the window; a repeat takes one count of the stage's budget, and a budget
already used up takes it all the same. RESIDUAL_FETCH_LANDED (R87, R127): without a climb nothing changes; of a
stage that no longer runs the climb is abandoned; with places and atoms of core DMA free, the plane's pages there,
its ways up, its atoms free and affordable and no poison read, the landing area holds the bytes read and the climb
goes on with the next rung. -/
def Obligations.ClimbsFollowTheBudget : Prop :=
  (∀ (s : State) (c : Nat) (w : Bytes) (k : Core) (j : MmJob) (a : Attempt) (i : Instr),
      k = s.dev.core c → j = mmJob k.aregs w →
      (i = .mmTile c ∧ Issues s c 1 1 w ∧ opCode w = 1 ∨ i = .mmConv c ∧ Issues s c 1 2 w ∧ opCode w = 2) →
      k.climb = none → j.kTotal ≠ 0 →
      (bitOf (fieldOf w (if opCode w = 1 then 45 else 51) 1) 1 &&
        (k.acc j.accSel).isInt != fmtInt (fieldOf w (if opCode w = 1 then 42 else 48) 1)) = false →
      a = j.attempt j.startRung k.sp (k.acc j.accSel) (Config.freeNat s.dev.free) → j.flagged a = true →
      ∃ t : State, exec i s = .next t ∧
        ((t.dev.core c).climb = some (climbOf k.nextId j.startRung 0 false (k.acc j.accSel) a) ∧
        ((t.dev.core c).newest.map (fun e => (e.id, e.word, e.wait))) = some (k.nextId, k.pc, .climb) ∧
        (t.dev.core c).sp = k.sp ∧ (t.dev.core c).acc0 = k.acc0 ∧ (t.dev.core c).acc1 = k.acc1)) ∧
  (∀ (s : State) (c i : Nat) (k : Core) (e : Issued) (j : MmJob) (cl : Climb) (p slot st : Nat) (x : Pipe) (y : Stage) (b v : Nat),
      CoreUp s c → k = s.dev.core c → k.window[i]? = some e → e.wait = .climb → k.climb = some cl → j = mmJob k.aregs e.bytes →
      s.dev.coreRun c = some (p, slot, st, x, y) → b = stageBudget y ((x.run.map (fun r => r.stageOf st)).getD StageRun.zero) →
      v = Tab.getD (s.dev.cluster y.firstCluster).budget (64 * slot + st) 0 →
      (∀ z, ceilingOf j y.layer cl = some z → exec (.operationComplete c i) s =
        .next (s.onDev (fun d => d.mmFinish c cl.op e.word e.bytes j cl.rung cl.repeats cl.last z))) ∧
      (ceilingOf j y.layer cl = none → k.phase ≠ .running → exec (.operationComplete c i) s =
        .next (s.onDev (fun d => d.mmFinish c cl.op e.word e.bytes j cl.rung cl.repeats cl.last (.narrow b 0 true)))) ∧
      (ceilingOf j y.layer cl = none → k.phase = .running → ∃ t : State, exec (.operationComplete c i) s = .next t ∧
        Tab.getD (t.dev.cluster y.firstCluster).budget (64 * slot + st) 0 = v + 1) ∧
      (cl.nonfinite = true → ceilingOf j y.layer cl = some (.ceiling true)) ∧
      (cl.nonfinite = false → (j.escMax ≤ cl.rung ∨ (if y.layer then j.startRung + 1 else 3) < cl.rung + 1) →
        ceilingOf j y.layer cl = some (.ceiling false))) ∧
  (∀ (s : State) (c p : Nat) (k : Core) (cl : Climb) (e : Issued) (x : Xfer) (r : PBytes × Dev), CoreUp s c → k = s.dev.core c →
      (k.climb = none → exec (.residualFetchLanded c) s = .next s) ∧
      (p = s.dev.corePart c → k.climb = some cl → k.window.find? (fun e => e.id == cl.op && e.wait == .residual) = some e →
        k.phase = .running → x = ⟨2, fieldOf e.bytes 32 8, 0, 0, residBytes (fieldOf e.bytes 40 2), 1, 0, 0, 0, 0⟩ →
        k.descrs.length < 64 → k.atomsOut + min atomLimit (ceilDiv x.rowBytes 32) ≤ atomLimit →
        ((s.dev.part p).coldPages x.src x.rowBytes).filter (fun g => !cl.lent.contains g) = [] →
        s.dev.xferWay p c x = 0 → s.dev.xferWaits p x = false →
        r = (s.dev.xferCarried p c x).devRead p x.src x.rowBytes 0 → s.dev.affords r.2 = true → poisoned r.1 = false →
        exec (.residualFetchLanded c) s = .next (s.onDev (fun _ =>
          ((r.2.modPart p (fun y => y.letGo cl.lent none)).modCore c (fun k =>
            { k with sp := Mem.write k.sp (spAt k.aregs (fieldOf e.bytes 60 4)) (plain r.1) })).mmRepeat
              c e.word e.bytes (mmJob k.aregs e.bytes) { cl with lent := [] } true))))

/-! ## Core DMA, halos, pages -/

/-- dma.copy, dma.seq, dma.prefetch and dma.ring answer a next state once their word issues: the operation is in the
window with what it waits for. A copy that finds core DMA's 64 places taken waits in the window for one (R53); a
walk needs a sequence that is ACTIVE and an extent within its tokens; a ring needs every descriptor to pass, and
names their streams. A dma.copy of one row from the core's scratchpad to its own cluster's memory, with core DMA
empty: the cluster memory holds the row's bytes, and the scratchpad is as before; the operation waits for its one
descriptor. -/
def Obligations.TransfersMoveBytes : Prop :=
  (∀ (s : State) (c p : Nat) (w : Bytes), p = s.dev.corePart c →
      (Issues s c 6 1 w → (copyXfer (s.dev.core c).aregs w).rowBytes ≠ 0 → (copyXfer (s.dev.core c).aregs w).rows ≠ 0 →
        exec (.dmaCopy c) s =
          .next (s.onDev (fun d => d.oneDescr c w false (copyXfer (d.core c).aregs w) (some (fieldOf w 56 4))))) ∧
      (Issues s c 6 1 w → (copyXfer (s.dev.core c).aregs w).rowBytes ≠ 0 → (copyXfer (s.dev.core c).aregs w).rows ≠ 0 →
        64 ≤ (s.dev.core c).places → ∃ t : State, exec (.dmaCopy c) s = .next t ∧
          ((t.dev.core c).newest.map (·.wait) = some (.descr 1) ∧ (t.dev.core c).pc = (s.dev.core c).pc + 1 ∧
            (t.dev.core c).descrs.length = (s.dev.core c).descrs.length ∧
            (t.dev.core c).dmaQ.length = (s.dev.core c).dmaQ.length + 1)) ∧
      (Issues s c 6 2 w → ∀ slot q, fieldOf w 32 4 ≠ 0 → fieldOf w 36 4 ≠ 0 →
        (s.dev.cluster (clusterOfCore c)).failed = false → (s.dev.part p).seqOf (fieldOf w 16 4) = some (slot, q) →
        q.hold = none → q.state = .active → q.walkFail (fieldOf w 24 8) (fieldOf w 32 4) (fieldOf w 36 4) (fieldOf w 40 4) = none →
        ∃ t : State, exec (.dmaSeq c) s = .next t ∧ ((t.dev.core c).pc = (s.dev.core c).pc + 1 ∧
          (t.dev.core c).newest.map (·.wait) =
            some (.descr (walkPages (fieldOf w 24 8) (fieldOf w 32 4) (fieldOf w 36 4) (fieldOf w 40 4)).length) ∧
          (t.dev.cluster (clusterOfCore c)).walks.length = (s.dev.cluster (clusterOfCore c)).walks.length + 1 ∧
          ((t.dev.cluster (clusterOfCore c)).walks.getLast?).map (·.pages) =
            some (walkPages (fieldOf w 24 8) (fieldOf w 32 4) (fieldOf w 36 4) (fieldOf w 40 4)) ∧
          ((t.dev.cluster (clusterOfCore c)).walks.getLast?).map (·.frozen) = some none)) ∧
      (Issues s c 6 3 w → fieldOf w 24 8 ≠ 0 → ∀ cold, cold = (s.dev.part p).coldPages (fieldOf w 16 8) (fieldOf w 24 8) →
        exec (.dmaPrefetch c) s = .next (s.onDev (fun d =>
          (d.startMigrs p cold (dieOfCore c) true).pushOp c w stOK (!cold.isEmpty) .ready))) ∧
      (Issues s c 6 4 w → ∀ r : Ring, r = ⟨(s.dev.core c).nextId, (endpoint 1 (fieldOf w 16 8) 0).addr,
          (endpoint 1 (fieldOf w 16 8) 0).cluster, fieldOf w 24 4, fieldOf w 28 4, fieldOf w 32 4⟩ → r.left ≠ 0 →
        (∀ i, i < r.left → checkDescr (s.dev.part p) (s.dev.ringEntry r (r.next + i)) = none) →
        exec (.dmaRing c) s = .next (s.withCore c
          { (List.range r.left).foldl (fun (k : Core) i => k.nameStream (fieldOf (s.dev.ringEntry r (r.next + i)) 7 1) none
              (s.dev.coreTc c)) ((s.dev.core c).entered w stOK false (.descr r.left) s.dev.now) with
            rings := (s.dev.core c).rings ++ [r] }))) ∧
  (∀ (s : State) (c cl : Nat) (w : Bytes) (x : Xfer) (k : Core), Issues s c 6 1 w → k = s.dev.core c → x = copyXfer k.aregs w →
      k.descrs = [] → k.dmaQ = [] → k.fetchBuf = [] → (∀ e ∈ k.window, k.forming e = false) → cl = clusterOfCore c →
      ((s.dev.cluster cl).descQ.filter (fun e => e.1 == c)) = [] →
      x.srcSpace = 0 → x.dstSpace = 1 → x.dst / 2 ^ 25 = cl → x.rows = 1 → x.rowBytes ≠ 0 →
      ∃ t : State, exec (.dmaCopy c) s = .next t ∧
        ((t.dev.cluster cl).mem = Mem.write (s.dev.cluster cl).mem (x.dst % 2 ^ 25) (Mem.read k.sp x.src x.rowBytes) ∧
          (t.dev.core c).sp = k.sp ∧ (t.dev.core c).pc = k.pc + 1 ∧ (t.dev.core c).newest.map (·.wait) = some (.descr 1)))

/-- RING_BURST_FETCH, DESCRIPTOR_COMPLETE and WALKER_DESCRIPTOR_EMIT act where there is something to do, and change
nothing where there is not: no ring with entries left, no started descriptor at that place, no walk with pages
left. The last descriptor of an operation: when it completes its place is free, and the operation that waited for
one descriptor is ready. -/
def Obligations.DescriptorsComplete : Prop :=
  (∀ (s : State) (c i cl : Nat), s.plat.up = true →
      (c < 256 → exec (.ringBurstFetch c) s = .next (s.onDev (fun d => d.ringBurst c))) ∧
      (c < 256 → (∀ r ∈ (s.dev.core c).rings, r.left = 0) → exec (.ringBurstFetch c) s = .next s) ∧
      (c < 256 → exec (.descriptorComplete c i) s = .next (s.onDev (fun d => d.endDescr c i))) ∧
      (c < 256 → (∀ y, (s.dev.core c).descrs[i]? = some y → y.started = false) → exec (.descriptorComplete c i) s = .next s) ∧
      (cl < 32 → exec (.walkerDescriptorEmit cl) s = .next (s.onDev (fun d => d.walkerEmit cl))) ∧
      (cl < 32 → (∀ v ∈ (s.dev.cluster cl).walks, v.pages = []) → exec (.walkerDescriptorEmit cl) s = .next s)) ∧
  (∀ (s : State) (c : Nat) (k : Core) (y : Descr) (e : Issued), CoreUp s c → k = s.dev.core c → k.descrs = [y] →
      k.dmaQ = [] → k.fetchBuf = [] → (s.dev.cluster (clusterOfCore c)).descQ = [] → y.started = true →
      k.window = [e] → e.id = y.op → e.wait = .descr 1 → opClass e.bytes = 6 →
      ∃ t : State, exec (.descriptorComplete c 0) s = .next t ∧
        ((t.dev.core c).descrs = [] ∧ (t.dev.core c).window = [{ e with wait := .ready }]))

/-- hx.put and hx.get whose flag and used words allow it go at once, over a link that is up and behind no earlier
access of the core to cluster memory; those that must wait poll, and their condition is true. Epoch 2^32 − 1, an
epoch that the flag of its buffer rules out, and a core outside the stage fault with INVALID; a link that is down
and a control word that ECC cannot correct give DEVICE_FAULT; with no bytes the operation is empty, and so it is on
an edge stripe. hx.free returns the credit: over a link that is up, and behind no earlier access of the core to
cluster memory, the used word of the epoch's parity in the consumer's control line is the epoch, and the operation
is ready with a false condition; otherwise it waits for its way. Over a link that is down it ends with
DEVICE_FAULT; epoch 2^32 − 1 and a core outside the consumer stage fault with INVALID; on an edge stripe it is
empty. HALO_WAIT_SATISFIED: with no hx. operation polling nothing changes; a lone hx.put or hx.get whose word is
ready and whose way is free goes, and its wait counts in halo_tc. -/
def Obligations.HalosExchangeByEpoch : Prop :=
  (∀ (s : State) (c cl base slot ep : Nat) (w : Bytes) (put : Bool) (i : Instr),
      (put = true ∧ i = .hxPut c ∧ Issues s c 8 1 w ∨ put = false ∧ i = .hxGet c ∧ Issues s c 8 2 w) → ep = fieldOf w 24 4 →
      (s.dev.haloAt c (fieldOf w 20 2) put = .area cl base slot → epochLegal put ep (s.dev.haloWord cl base (ep % 2)) = true →
        fieldOf w 28 4 ≠ 0 → s.dev.haloBad cl base = false →
        (s.dev.wayState (dieOfCore c) (cl / 8) = 0 → (s.dev.core c).clusterPending = false →
          s.dev.haloMet put cl base ep = true → exec i s = .next (s.onDev (fun d =>
            (d.pushOp c w stOK false (.descr 1)).haloGo c (s.dev.core c).nextId put w cl base slot))) ∧
        (s.dev.wayState (dieOfCore c) (cl / 8) = 1 ∨ s.dev.wayState (dieOfCore c) (cl / 8) = 0 ∧
            ((s.dev.core c).clusterPending = true ∨ s.dev.haloMet put cl base ep = false) →
          exec i s = .next (s.withCore c ((s.dev.core c).entered w stOK true .halo s.dev.now)))) ∧
      (s.dev.haloAt c (fieldOf w 20 2) put = .area cl base slot → epochLegal put ep (s.dev.haloWord cl base (ep % 2)) = true →
        fieldOf w 28 4 ≠ 0 → (s.dev.wayState (dieOfCore c) (cl / 8) = 2 ∨ s.dev.haloBad cl base = true) →
        exec i s = .next (s.withCore c ((s.dev.core c).entered w stDeviceFault false .ready s.dev.now))) ∧
      (s.dev.haloAt c (fieldOf w 20 2) put = .area cl base slot → epochLegal put ep (s.dev.haloWord cl base (ep % 2)) = true →
        fieldOf w 28 4 = 0 → exec i s = .next (s.withCore c ((s.dev.core c).entered w stOK false .ready s.dev.now))) ∧
      (s.dev.haloAt c (fieldOf w 20 2) put = .area cl base slot → epochLegal put ep (s.dev.haloWord cl base (ep % 2)) = false →
        exec i s = .next (s.onDev (fun d => d.faultCore c stInvalid (s.dev.core c).pc (opDebugTag w)))) ∧
      (s.dev.haloAt c (fieldOf w 20 2) put = .outside →
        exec i s = .next (s.onDev (fun d => d.faultCore c stInvalid (s.dev.core c).pc (opDebugTag w)))) ∧
      (s.dev.haloAt c (fieldOf w 20 2) put = .edge →
        (ep ≠ ones32 → exec i s = .next (s.withCore c ((s.dev.core c).entered w stOK false .ready s.dev.now))) ∧
        (ep = ones32 → exec i s = .next (s.onDev (fun d => d.faultCore c stInvalid (s.dev.core c).pc (opDebugTag w))))) ∧
      (∀ flag, epochLegal put ep flag = true ↔
        ep ≠ ones32 ∧ (flag = ones64 ∨ if put then flag < ep else flag ≤ ep))) ∧
  (∀ (s : State) (c cl base slot ep : Nat) (w : Bytes), Issues s c 8 3 w → ep = fieldOf w 24 4 →
      ((ep = ones32 ∨ s.dev.haloAt c (fieldOf w 20 2) false = .outside) →
        exec (.hxFree c) s = .next (s.onDev (fun d => d.faultCore c stInvalid (s.dev.core c).pc (opDebugTag w)))) ∧
      (ep ≠ ones32 → s.dev.haloAt c (fieldOf w 20 2) false = .edge →
        exec (.hxFree c) s = .next (s.withCore c ((s.dev.core c).entered w stOK false .ready s.dev.now))) ∧
      (ep ≠ ones32 → s.dev.haloAt c (fieldOf w 20 2) false = .area cl base slot →
      (s.dev.wayState (dieOfCore c) (cl / 8) = 0 → (s.dev.core c).clusterPending = false →
        ∃ t : State, exec (.hxFree c) s = .next t ∧
          (t.dev.haloWord cl base (2 + ep % 2) = ep ∧
            t.dev.core c = (s.dev.core c).entered w stOK false .ready s.dev.now ∧
            (∀ cl', cl' ≠ cl → t.dev.cluster cl' = s.dev.cluster cl'))) ∧
      ((s.dev.wayState (dieOfCore c) (cl / 8) = 1 ∨ s.dev.wayState (dieOfCore c) (cl / 8) = 0 ∧ (s.dev.core c).clusterPending = true) →
        exec (.hxFree c) s = .next (s.withCore c ((s.dev.core c).entered w stOK false .halo s.dev.now))) ∧
      (s.dev.wayState (dieOfCore c) (cl / 8) = 2 →
        exec (.hxFree c) s = .next (s.withCore c ((s.dev.core c).entered w stDeviceFault false .ready s.dev.now))))) ∧
  (∀ (s : State) (c cl base slot : Nat) (e : Issued) (k : Core), CoreUp s c → k = s.dev.core c →
      ((∀ e ∈ k.window, e.wait ≠ .halo) → exec (.haloWaitSatisfied c) s = .next s) ∧
      (k.window = [e] → e.wait = .halo → opCode e.bytes ≠ 3 → k.clusterPending = false →
        s.dev.haloAt c (fieldOf e.bytes 20 2) (opCode e.bytes == 1) = .area cl base slot →
        s.dev.wayState (dieOfCore c) (cl / 8) = 0 → s.dev.haloBad cl base = false →
        s.dev.haloMet (opCode e.bytes == 1) cl base (fieldOf e.bytes 24 4) = true →
        exec (.haloWaitSatisfied c) s = .next (s.onDev (fun d =>
          (d.setCore c { k with causes := { k.causes with halo := k.causes.halo + (d.now - e.at_) } }).haloGo c e.id
            (opCode e.bytes == 1) e.bytes cl base slot))))

/-- pg. operations whose cluster's request queue is empty (R73): each takes its place, is served at once, and leaves
the queue; only a pg.append may have to wait at its front. What serving a pg. operation on a sequence that is there
comes to. pg.info writes the 32-byte record and tells whether the sequence accepts appends; pg.publish stages a
batch that passes, and is BUSY while the sequence is on its way to or from the store; pg.prefetch of a sequence
that is not ACTIVE is SUSPENDED, and a pg.append to one too, or NO_SPACE once after a hold that ran out. An append
is checked before any byte moves: beyond the region or before the token count it is BOUNDS, beyond max_tokens
LENGTH; one that passes writes at or after the token count and keeps within max_tokens. The token count of a
sequence after an append is the old count and the append's; the pages of the blocks it completes or extends count
their tokens anew, every other page's entry is as before. -/
def Obligations.PageOperationsAndAppends : Prop :=
  (∀ (s : State) (c cl : Nat) (w : Bytes) (e : Issued), cl = clusterOfCore c → PgQuiet s.dev cl →
      (∀ x ∈ (s.dev.core c).window, x.id ≠ (s.dev.core c).nextId) → (s.dev.cluster cl).failed = false →
      ((s.dev.core c).entered w stOK false .pgq s.dev.now).newest = some e →
      (Issues s c 9 1 w → opCode w = 1 → fieldOf w 32 8 ≠ 0 → ∀ r, r = (s.dev.pgAsked c w).pgAppend c e →
        exec (.pgAppend c) s = .next (s.onDev (fun _ =>
          if r.1 then r.2.modCluster cl (fun x => { x with pgQ := x.pgQ.drop 1 }) else r.2))) ∧
      (Issues s c 9 2 w → opCode w = 2 → fieldOf w 40 4 ≠ 0 → exec (.pgPublish c) s = .next (s.onDev (fun d =>
        ((d.pgAsked c w).pgPublish c e).modCluster cl (fun x => { x with pgQ := x.pgQ.drop 1 })))) ∧
      (Issues s c 9 3 w → opCode w = 3 → fieldOf w 32 8 ≠ 0 → exec (.pgPrefetch c) s = .next (s.onDev (fun d =>
        ((d.pgAsked c w).pgPrefetch c e).modCluster cl (fun x => { x with pgQ := x.pgQ.drop 1 })))) ∧
      (Issues s c 9 4 w → opCode w = 4 → exec (.pgInfo c) s = .next (s.onDev (fun d =>
        ((d.pgAsked c w).pgInfo c e).modCluster cl (fun x => { x with pgQ := x.pgQ.drop 1 }))))) ∧
  (∀ (d : Dev) (c p slot : Nat) (e : Issued) (q : Seq), p = d.corePart c →
      (d.part p).seqOf (fieldOf e.bytes 16 4) = some (slot, q) →
      (d.pgInfo c e = (d.modCore c (fun k => { k with
        sp := Mem.write k.sp (k.ref e.bytes 20) (q.info (d.part p).gen) })).settle c e.id stOK (q.state == .active)) ∧
      ((q.state = .active ∨ q.state = .suspended) → ∀ recs, recs = recsOf (Mem.read (d.core c).sp ((d.core c).ref e.bytes 20)
          (32 * fieldOf e.bytes 40 4)) (fieldOf e.bytes 40 4) → batchFail (d.part p) q recs = none →
        d.pgPublish c e = ((d.acceptBatch p slot none recs).2).settle c e.id stOK false) ∧
      ((q.state = .parking ∨ q.state = .parked ∨ q.state = .resuming) → d.pgPublish c e = d.settle c e.id stBusy false) ∧
      (q.state ≠ .active → d.pgPrefetch c e = d.settle c e.id stSuspended false) ∧
      (q.state ≠ .active → d.pgAppend c e = (true, (d.modPart p (fun x => x.setSeq slot q.refuse.2)).settle c e.id q.refuse.1 false) ∧
        q.refuse.1 = (if q.state = .suspended ∧ q.noSpaceOnce = true then stNoSpace else stSuspended)) ∧
      (q.state = .active → ∀ st, q.appendFail (fieldOf e.bytes 24 8) (fieldOf e.bytes 32 8) (fieldOf e.bytes 40 4) = some st →
        d.pgAppend c e = (true, d.settle c e.id st false))) ∧
  (∀ (q : Seq) (off n count : Nat),
      (q.regionBytes < off + n → q.appendFail off n count = some stBounds) ∧
      (q.appendFail off n count = none → off + n ≤ q.regionBytes ∧ q.tokens + count ≤ q.maxTokens ∧
        ∀ e ∈ piecesOf off n, q.tokens ≤ q.tokenAt (e.1 * 65536 + e.2.1) ∧
          q.tokenAt (e.1 * 65536 + e.2.1 + e.2.2.1 - 1) < q.maxTokens)) ∧
  (∀ (q : Seq) (n g : Nat), (q.advance (q.tokens + n)).tokens = q.tokens + n ∧
      Tab.find (q.advance (q.tokens + n)).entries g = (Tab.find q.entries g).map (fun e =>
        if n ≠ 0 ∧ q.tokens / q.pageTokens ≤ q.blockOf g ∧ q.blockOf g * q.pageTokens < q.tokens + n then
          { e with tokens := q.tokensOf g (q.tokens + n) } else e))

/-! ## Counters, channels, groups -/

/-- cnt. operations over a link that is up: the old value is returned where the word names an area, the counter takes
its new value modulo 2^64, the condition is the row's, and other clusters are as before. A link that retrains holds
the word back, a link that is down gives DEVICE_FAULT. -/
def Obligations.CountersRun : Prop :=
  ∀ (s : State) (c op cl i v : Nat) (w : Bytes) (x : Cluster) (n : Instr),
    (n = .cntClaim c ∧ op = 1 ∨ n = .cntAdd c ∧ op = 2 ∨ n = .cntCas c ∧ op = 3 ∨ n = .cntRead c ∧ op = 4 ∨
      n = .cntSteal c ∧ op = 5 ∨ n = .cntCommit c ∧ op = 6 ∨ n = .cntCredit c ∧ op = 7) →
    Issues s c 7 op w → cl = cntCluster c w → x = s.dev.cluster cl → i = fieldOf w 16 2 → v = fieldOf w 24 8 →
    (s.dev.wayState (dieOfCore c) (cl / 8) = 1 → exec n s = .next s) ∧
    (s.dev.wayState (dieOfCore c) (cl / 8) = 0 → ∃ t : State, exec n s = .next t ∧
      ((t.dev.cluster cl).work = (match op with
        | 1 => Tab.put x.work i ((Tab.getD x.work i 0 + 1) % 2 ^ 64)
        | 2 => Tab.put x.work i ((Tab.getD x.work i 0 + v) % 2 ^ 64)
        | 3 => if Tab.getD x.work i 0 = v then Tab.put x.work i (fieldOf w 32 8) else x.work
        | _ => x.work) ∧
      (t.dev.cluster cl).credit = (if op = 7 then Tab.put x.credit i ((Tab.getD x.credit i 0 + v) % 2 ^ 64) else x.credit) ∧
      (t.dev.cluster cl).bits = (match op with
        | 5 => if Tab.getD x.bits i 0 % 4 = 0 then Tab.put x.bits i 2 else x.bits
        | 6 => if Tab.getD x.bits i 0 % 2 = 0 then Tab.put x.bits i (Tab.getD x.bits i 0 % 4 + 1) else x.bits
        | _ => x.bits) ∧
      (t.dev.core c).newest.map (fun e => (e.status, e.cond)) = some (stOK, (match op with
        | 1 => decide (Tab.getD x.work i 0 < v)
        | 3 => Tab.getD x.work i 0 == v
        | 5 => Tab.getD x.bits i 0 % 4 == 0
        | 6 => Tab.getD x.bits i 0 % 2 == 0
        | _ => false)) ∧
      (t.dev.core c).sp = (if hasRef w 20 then Mem.putNat (s.dev.core c).sp ((s.dev.core c).ref w 20) 8
          (if op = 7 then Tab.getD x.credit i 0 else if op = 5 ∨ op = 6 then x.bitWord i else Tab.getD x.work i 0)
        else (s.dev.core c).sp) ∧
      (t.dev.core c).pc = (s.dev.core c).pc + 1 ∧ (∀ cl', cl' ≠ cl → t.dev.cluster cl' = s.dev.cluster cl'))) ∧
    (s.dev.wayState (dieOfCore c) (cl / 8) = 2 → ∃ t : State, exec n s = .next t ∧
      ((t.dev.core c).newest.map (fun e => (e.status, e.cond, e.wait)) = some (stDeviceFault, false, .ready) ∧
        (t.dev.core c).sp = (s.dev.core c).sp ∧ (t.dev.core c).pc = (s.dev.core c).pc + 1 ∧ t.dev.clusters = s.dev.clusters))

/-- A commit that loses on a duplicated tile adds a DUP_LOST record to the ledger, and completes once it is placed: it
waits while the ledger holds no free entry, or others wait for one. LEDGER_STAGING_PLACE: the oldest staged record
takes a free entry that is not reserved, the rest move up, and the oldest held record whose cluster then has room
comes into staging; with nothing staged, or only reserved entries free, nothing changes. -/
def Obligations.LedgerRecordsArePlaced : Prop :=
  (∀ (s : State) (c cl i p slot st : Nat) (w : Bytes), Issues s c 7 6 w → cl = cntCluster c w → i = fieldOf w 16 2 →
      s.dev.wayState (dieOfCore c) (cl / 8) = 0 → Tab.getD (s.dev.cluster cl).bits i 0 % 4 = 3 →
      (s.dev.core c).run = some (p, slot, st) →
      (((s.dev.part p).ledger.staged ≠ [] ∨ 1044480 ≤ (s.dev.part p).ledger.recs.length) →
        ∃ t : State, exec (.cntCommit c) s = .next t ∧ ((t.dev.core c).newest.map (·.wait) = some .ledger ∧
          (t.dev.part p).ledger.recs = (s.dev.part p).ledger.recs)) ∧
      ((s.dev.part p).ledger.staged = [] → (s.dev.part p).ledger.recs.length < 1044480 → ∃ t : State, exec (.cntCommit c) s = .next t ∧
        (((t.dev.part p).ledger.recs.getLast?).map (fun r => (r.kind, r.core, r.word)) = some (5, c, (s.dev.core c).pc) ∧
          (t.dev.part p).ledger.recs.length = (s.dev.part p).ledger.recs.length + 1))) ∧
  (∀ (s : State) (p : Nat) (r : LedgerRec) (rest : List LedgerRec), PartUp s p →
      ((s.dev.part p).ledger.staged = [] → exec (.ledgerStagingPlace p) s = .next s) ∧
      ((s.dev.part p).ledger.staged = r :: rest → 1044480 ≤ (s.dev.part p).ledger.recs.length →
        exec (.ledgerStagingPlace p) s = .next s) ∧
      ((s.dev.part p).ledger.staged = r :: rest → (s.dev.part p).ledger.recs.length < 1044480 →
        ∃ t : State, exec (.ledgerStagingPlace p) s = .next t ∧
          (t.dev.part p).ledger.recs = (s.dev.part p).ledger.recs ++ [r] ∧
          ((s.dev.part p).ledger.held = [] → (t.dev.part p).ledger.staged = rest) ∧
          (∀ h, (s.dev.part p).ledger.held.find? { (s.dev.part p).ledger with staged := rest }.stagingRoom = some h →
            (t.dev.part p).ledger.staged = rest ++ [h] ∧ (t.dev.part p).ledger.held = (s.dev.part p).ledger.held.erase h)))

/-- col.send and col.recv: a send behind no earlier access of its core to cluster memory lands its bytes in the memory
it names and its channel counts them; the bytes come from the scratchpad or from a cluster's memory. One behind
such an access or over a link that retrains stays at issue; over a link that is down, or from a word that ECC
cannot correct, it ends with DEVICE_FAULT. A receive takes its bytes from its own cluster's channel once they are
there, and waits until they are. Without bytes both are empty. COL_RECV_SATISFIED: a lone waiting col.recv whose
count is reached takes its bytes and is ready; a window without one changes nothing. -/
def Obligations.ChannelsDeliver : Prop :=
  (∀ (s : State) (c n ch : Nat) (w : Bytes) (src dst : Endpoint), n = fieldOf w 32 4 → ch = fieldOf w 36 2 →
      src = endpoint (bitsOf (fieldOf w 38 1) 1 0) (fieldOf w 16 8) 0 → dst = endpoint 1 (fieldOf w 24 8) 0 →
      (n = 0 → (Issues s c 10 1 w → exec (.colSend c) s =
          .next (s.withCore c ((s.dev.core c).entered w stOK false .ready s.dev.now))) ∧
        (Issues s c 10 2 w → exec (.colRecv c) s =
          .next (s.withCore c ((s.dev.core c).entered w stOK false .ready s.dev.now)))) ∧
      (n ≠ 0 →
      (Issues s c 10 1 w → ∀ way, way = max (s.dev.wayState (dieOfCore c) (dst.cluster / 8))
          (s.dev.wayState (if src.space = 0 then dieOfCore c else src.cluster / 8) (dieOfCore c)) →
        ((way = 1 ∨ (s.dev.core c).clusterPending = true) → exec (.colSend c) s = .next s) ∧
        ((s.dev.core c).clusterPending = false → (way = 2 ∨ way = 0 ∧ src.space = 1 ∧
            wordsIn (s.dev.cluster src.cluster).bad src.addr n ≠ []) →
          exec (.colSend c) s = .next (s.withCore c ((s.dev.core c).entered w stDeviceFault false .ready s.dev.now))) ∧
        ((s.dev.core c).clusterPending = false → way = 0 →
        (src.space = 1 → wordsIn (s.dev.cluster src.cluster).bad src.addr n = []) → ∀ bs,
        bs = (if src.space = 0 then Mem.read (s.dev.core c).sp src.addr n else Mem.read (s.dev.cluster src.cluster).mem src.addr n) →
        ∃ t : State, exec (.colSend c) s = .next t ∧
          ((t.dev.cluster dst.cluster).mem = Mem.write (s.dev.cluster dst.cluster).mem dst.addr bs ∧
            Tab.getD (t.dev.cluster dst.cluster).chan ch 0 = (Tab.getD (s.dev.cluster dst.cluster).chan ch 0 + n) % 2 ^ 64 ∧
            t.dev.core c = (s.dev.core c).entered w stOK false .ready s.dev.now))) ∧
      (Issues s c 10 2 w → n ≤ s.dev.chanOf c ch →
        ∃ t : State, exec (.colRecv c) s = .next t ∧ (t.dev.chanOf c ch = s.dev.chanOf c ch - n ∧
          t.dev.core c = (s.dev.core c).entered w stOK false .ready s.dev.now)) ∧
      (Issues s c 10 2 w → s.dev.chanOf c ch < n → exec (.colRecv c) s =
        .next (s.withCore c ((s.dev.core c).entered w stOK false (.recv ch n) s.dev.now))))) ∧
  (∀ (s : State) (c ch n : Nat) (e : Issued), CoreUp s c →
      ((s.dev.core c).window = [e] → e.wait = .recv ch n → n ≤ s.dev.chanOf c ch →
        ∃ t : State, exec (.colRecvSatisfied c) s = .next t ∧ (t.dev.chanOf c ch = s.dev.chanOf c ch - n ∧
          (t.dev.core c).window = [{ e with status := stOK, cond := false, wait := .ready }])) ∧
      ((∀ e ∈ (s.dev.core c).window, ∀ a b, e.wait ≠ .recv a b) → exec (.colRecvSatisfied c) s = .next s))

/-- col.reduce and col.barrier join the next operation of their group: the contribution is the core's, and the
operation waits for the group while the path works. Of an operation of the group that has been ended it has that
status. A core outside the group faults with INVALID; a col.reduce of no elements is empty. USNEA_GROUP_COMPLETE:
in a group of one core the oldest contribution completes with its own elements as the result, written where the
word says; with nothing to complete nothing changes. In any group it completes once every member's contribution is
in flight, at all of them: with the reduction of them by ascending core where they agree, with INVALID where they
do not. -/
def Obligations.GroupsRun : Prop :=
  (∀ (s : State) (c p slot st g k : Nat) (w : Bytes) (x : Pipe) (y : Stage) (r : Run) (i : Instr) (reduce : Bool),
      (i = .colReduce c ∧ reduce = true ∧ Issues s c 10 3 w ∨
        i = .colBarrier c ∧ reduce = false ∧ Issues s c 10 4 w) →
      s.dev.coreRun c = some (p, slot, st, x, y) → g = fieldOf w 40 1 → k = Tab.getD (s.dev.core c).groupCnt g 0 →
      (c ∈ x.members st g → reduce = true → fieldOf w 43 1 = 0 →
        exec i s = .next (s.withCore c ((s.dev.core c).entered w stOK false .ready s.dev.now))) ∧
      (c ∈ x.members st g → (reduce = true → fieldOf w 43 1 ≠ 0) → x.run = some r → ∀ ended,
        Tab.find r.aborted (groupKey st g k) = some ended → ∃ t : State, exec i s = .next t ∧
          ((t.dev.core c).newest.map (fun e => (e.status, e.wait)) = some (ended, .ready) ∧
            Tab.getD (t.dev.core c).groupCnt g 0 = k + 1 ∧ (t.dev.core c).usnea = (s.dev.core c).usnea)) ∧
      (c ∈ x.members st g → (reduce = true → fieldOf w 43 1 ≠ 0) → x.run = some r → Tab.find r.aborted (groupKey st g k) = none →
        s.dev.groupPath (x.members st g) = true →
        ∃ t : State, exec i s = .next t ∧ (Tab.getD (t.dev.core c).groupCnt g 0 = k + 1 ∧
          (t.dev.core c).newest.map (·.wait) = some .group ∧ (t.dev.core c).pc = (s.dev.core c).pc + 1 ∧
          ((t.dev.core c).usnea.getLast?).map (fun u => (u.group, u.k, u.reduce, u.done)) = some (g, k, reduce, false) ∧
          (∀ c', c' ≠ c → t.dev.core c' = s.dev.core c'))) ∧
      (c ∉ x.members st g →
        exec i s = .next (s.onDev (fun d => d.faultCore c stInvalid (s.dev.core c).pc (opDebugTag w))))) ∧
  (∀ (s : State) (c p slot st : Nat) (x : Pipe) (y : Stage) (u : UsneaReq), CoreUp s c →
      s.dev.coreRun c = some (p, slot, st, x, y) →
      ((∀ v ∈ (s.dev.core c).usnea, v.done = true) → exec (.usneaGroupComplete c) s = .next s) ∧
      ((s.dev.core c).usnea = [u] → u.done = false → u.reduce = true → x.members st u.group = [c] →
        ∃ t : State, exec (.usneaGroupComplete c) s = .next t ∧
          ((t.dev.core c).sp = Mem.write (s.dev.core c).sp u.dst (u.elems.flatMap (natLE 4)) ∧
            (t.dev.core c).usnea = [{ u with done := true }])) ∧
      (∀ (us : List UsneaReq) (got : List (Nat × UsneaReq)), (s.dev.core c).usnea = u :: us → u.done = false →
        got = ((List.range 256).filter (fun m => (x.members st u.group).contains m)).filterMap
          (fun m => ((s.dev.core m).inFlight u.group u.k).map (fun v => (m, v))) →
        ((List.range 256).filter (fun m => (x.members st u.group).contains m)).length = got.length →
        ∀ same res, same = got.all (fun e => e.2.reduce == u.reduce && e.2.op == u.op && e.2.type == u.type && e.2.count == u.count) →
          res = (if u.reduce then usneaResult u.op u.type (got.map (fun e => (e.1, e.2.elems))) else []) →
          exec (.usneaGroupComplete c) s = .next (s.onDev (fun d => got.foldl (fun (d : Dev) e =>
            d.groupLand e.1 e.2 (if same then stOK else stInvalid) res) (d.hubsDelivered p (got.map (·.1)))))))

/-! ## Synchronisation, completion, windows -/

/-- sync.done, sync.tick, sync.wait and sync.time. The done stamp is taken once, with an empty window; the layer end
counts with the first report in drain mode; sync.tick then waits for the release; sync.wait is ready when its test
is met, waits while the link on its way retrains, and ends with DEVICE_FAULT where the link is down or ECC cannot
correct the word; sync.time writes the tick replica's stamp and the window index. A window that is not empty holds
sync.done and sync.tick back. Past its last word a core acts as on sync.tick, and its program counter is at
window_entry. -/
def Obligations.SynchronisationOperationsRun : Prop :=
  (∀ (s : State) (c : Nat) (w : Bytes) (k : Core) (p slot st : Nat) (x : Pipe) (y : Stage), k = s.dev.core c →
      s.dev.coreRun c = some (p, slot, st, x, y) →
      (Issues s c 11 1 w → k.window = [] → exec (.syncDone c) s = .next (s.withCore c { k with
        done := some (k.done.getD (s.dev.coreTc c))
        reported := k.done.isSome && k.reported
        layerEnd := k.layerEnd || (k.done.isNone && x.drain && bitOf (fieldOf w 16 1) 0)
        pc := k.pc + 1 })) ∧
      (Issues s c 11 1 w → k.window ≠ [] → exec (.syncDone c) s = .next s) ∧
      (Issues s c 11 2 w → k.window = [] → exec (.syncTick c) s = .next (s.withCore c { k with
        done := some (k.done.getD (s.dev.coreTc c))
        reported := k.done.isSome && k.reported
        phase := .atTick
        pc := k.pc + 1 })) ∧
      (Issues s c 11 2 w → k.window ≠ [] → exec (.syncTick c) s = .next s) ∧
      (Issues s c 11 3 w → k.waitOf w = none → exec (.syncWait c) s = .next (s.withCore c (k.entered w stOK false .ready s.dev.now))) ∧
      (Issues s c 11 3 w → ∀ m i v, k.waitOf w = some (m, i, v) →
        (s.dev.waitWay c m i = 2 → exec (.syncWait c) s = .next (s.withCore c (k.entered w stDeviceFault false .ready s.dev.now))) ∧
        (s.dev.waitWay c m i ≠ 2 → exec (.syncWait c) s = .next (s.withCore c
          (k.entered w stOK false (if s.dev.waitWay c m i = 0 ∧ s.dev.waitMet c m i v then .ready else .sync m i v) s.dev.now)))) ∧
      (Issues s c 11 4 w → exec (.syncTime c) s = .next (s.withCore c (k.ran w false
        (Mem.write k.sp (k.ref w 16) (natLE 8 (s.dev.coreTc c) ++ natLE 8 (s.dev.part p).tick.index), false) s.dev.now)))) ∧
  (∀ (s : State) (c p slot st : Nat) (k : Core), CoreUp s c → k = s.dev.core c → k.phase = .running → k.words ≤ k.pc →
      k.run = some (p, slot, st) →
      (k.window = [] → exec (.syncTick c) s = .next (s.withCore c { k with
        done := some (k.done.getD (s.dev.coreTc c))
        reported := k.done.isSome && k.reported
        phase := .atTick
        pc := k.windowEntry })) ∧
      (k.window ≠ [] → exec (.syncTick c) s = .next s))

/-- SYNC_WAIT_SATISFIED and DONE_REPORT: a lone sync.wait whose test is met over a link that is up is ready, one whose
link is down or whose word ECC cannot correct ends with DEVICE_FAULT, any other waits on; a stamp taken and not yet
reported reaches the generator where the hubs on its way work; else nothing changes. OPERATION_COMPLETE: an
operation that is ready, and is the oldest of its class where its class works in order, leaves the window; a result
stores its condition, a fault stores none and fills the status record; one that waits stays, but for the end of an
attempt that was flagged. A completion corrects the single-bit errors of the words that the operation read and
counts them; of the counted causes it adds to stream_tc alone, and that for an operation of core DMA which held the
sequencer; the bytes of a col.send that completes after its issue may be late. -/
def Obligations.WaitsReportsAndOperationsEnd : Prop :=
  (∀ (s : State) (c m i v : Nat) (e : Issued) (k : Core), CoreUp s c → k = s.dev.core c →
      (k.window = [e] → e.wait = .sync m i v →
        (s.dev.waitWay c m i = 0 → s.dev.waitMet c m i v = true → exec (.syncWaitSatisfied c) s =
          .next (s.withCore c { k with window := [{ e with status := stOK, cond := false, wait := .ready }] })) ∧
        (s.dev.waitWay c m i = 2 → exec (.syncWaitSatisfied c) s =
          .next (s.withCore c { k with window := [{ e with status := stDeviceFault, cond := false, wait := .ready }] })) ∧
        (s.dev.waitWay c m i ≠ 2 → (s.dev.waitWay c m i ≠ 0 ∨ s.dev.waitMet c m i v = false) → exec (.syncWaitSatisfied c) s = .next s)) ∧
      ((∀ e ∈ k.window, e.wait.isSync = false) → exec (.syncWaitSatisfied c) s = .next s) ∧
      (k.done.isSome = true → k.reported = false → s.dev.donePath c = true →
        exec (.doneReport c) s = .next (s.withCore c { k with reported := true })) ∧
      ((k.done = none ∨ k.reported = true ∨ s.dev.donePath c = false) → exec (.doneReport c) s = .next s)) ∧
  (∀ (s : State) (c i : Nat) (k : Core) (e : Issued), CoreUp s c → k = s.dev.core c → k.window[i]? = some e →
      k.phase = .running →
      (e.wait ≠ .ready → e.wait ≠ .climb → exec (.operationComplete c i) s = .next s) ∧
      (e.wait = .ready → inOrderClass (opClass e.bytes) = true → (∃ x ∈ k.window.take i, opClass x.bytes = opClass e.bytes) →
        exec (.operationComplete c i) s = .next s) ∧
      (e.wait = .ready → (∀ x ∈ k.window.take i, opClass x.bytes ≠ opClass e.bytes ∨ inOrderClass (opClass e.bytes) = false) →
        isResult (opClass e.bytes) (opCode e.bytes) e.status = true → k.fault = none →
        exec (.operationComplete c i) s = .next (s.onDev (fun d => (d.setCore c (({ k.unstalled e d.now with
          window := k.window.eraseIdx i
          usnea := k.usnea.filter (fun u => u.id != e.id) }.eccAfter e).storeCond e.bytes e.cond)).lateBytes c 254 (e.sendLate d.now)))) ∧
      (e.wait = .ready → (∀ x ∈ k.window.take i, opClass x.bytes ≠ opClass e.bytes ∨ inOrderClass (opClass e.bytes) = false) →
        isResult (opClass e.bytes) (opCode e.bytes) e.status = false →
        exec (.operationComplete c i) s = .next (s.onDev (fun d => (d.setCore c { k.unstalled e d.now with
          window := k.window.eraseIdx i
          usnea := k.usnea.filter (fun u => u.id != e.id) }).faultCore c e.status e.word (opDebugTag e.bytes)))) ∧
      (∀ (x : Core) (now : Nat), (e.isDma = false → x.unstalled e now = x) ∧
        (∃ stream from_, x.unstalled e now = { x with causes := { x.causes with stream := x.causes.stream + stream }, stallFrom := from_ }) ∧
        (∃ bad soft, x.eccAfter e = { x with
          bad := bad, soft := soft, eccFixed := satAdd x.eccFixed (x.soft.filter (inSpans e.foot.rd)).length } ∧
          ∀ y ∈ soft, inSpans e.foot.rd y = false)) ∧
      (∀ now, (opClass e.bytes ≠ 10 ∨ opCode e.bytes ≠ 1 ∨ now ≤ e.at_ → e.sendLate now = 0) ∧ e.sendLate now ≤ fieldOf e.bytes 32 4))

/-- The boundary instant of a partition that is configured: with no late stage, or under a policy that does not
stretch, window k+1 begins at t_k + P_k and its decision is to come; under STRETCH with a late stage the stretch
begins. A partition without a layout has no boundaries. In the low-power state the first boundary holds the tick
counter at its instant, and no window begins. STRETCH_LIMIT: while a late stage is not done, the boundary falls at
t_k + P_k + max_stretch; outside a stretch nothing changes. -/
def Obligations.BoundariesKeepTheirInstants : Prop :=
  (∀ (s : State) (p : Nat) (t : Tick) (late : List Late), PartUp s p → t = (s.dev.part p).tick → s.plat.lowPower = false →
      late = (s.dev.reach (t.origin + t.nominal)).lateStages p t.nominal →
      ((s.dev.part p).layout = none → exec (.tickBoundary p) s = .next s) ∧
      ((s.dev.part p).layout.isSome = true → t.boundary = none → t.held = none → t.inStretch = false →
        (t.par.policy ≠ 0 ∨ late = []) → ∃ n : State, exec (.tickBoundary p) s = .next n ∧
          ((n.dev.part p).tick = { t with
              index := t.index + 1
              start := t.nominal
              inStretch := false
              boundary := some ⟨t.nominal, 0⟩
              late := late } ∧ n.dev.now = max s.dev.now (t.origin + t.nominal) ∧
            n.dev.cores = s.dev.cores ∧ n.dev.clusters = s.dev.clusters)) ∧
      ((s.dev.part p).layout.isSome = true → t.boundary = none → t.held = none → t.inStretch = false →
        t.par.policy = 0 → late ≠ [] → ∃ n : State, exec (.tickBoundary p) s = .next n ∧
          ((n.dev.part p).tick = { t with inStretch := true, late := late }))) ∧
  (∀ (s : State) (p : Nat) (t : Tick), PartUp s p → t = (s.dev.part p).tick → s.plat.lowPower = true →
      (s.dev.part p).layout.isSome = true → t.boundary = none → t.held = none →
      ∃ n : State, exec (.tickBoundary p) s = .next n ∧
        ((n.dev.part p).tick = { t with held := some t.nominal } ∧ n.dev.tc p = t.nominal)) ∧
  (∀ (s : State) (p : Nat) (t : Tick), PartUp s p → t = (s.dev.part p).tick →
      (t.inStretch = false → exec (.stretchLimit p) s = .next s) ∧
      (t.inStretch = true → t.boundary = none → allCome (t.late.map (s.dev.lateInstant p)) = none →
        ∃ n : State, exec (.stretchLimit p) s = .next n ∧ ((n.dev.part p).tick.index = t.index + 1 ∧
          (n.dev.part p).tick.start = t.nominal + t.par.stretch ∧
          (n.dev.part p).tick.boundary = some ⟨t.nominal + t.par.stretch, t.par.stretch⟩ ∧
          (n.dev.part p).tick.inStretch = false)))

/-- BOUNDARY_DECISION: without a boundary to decide nothing changes; with one, it answers a next state in which no
boundary is open and no stage is late. -/
def Obligations.DecisionsCloseTheWindow : Prop :=
  ∀ (s : State) (p : Nat) (b : Boundary), PartUp s p →
    ((s.dev.part p).tick.boundary = none → exec (.boundaryDecision p) s = .next s) ∧
    ((s.dev.part p).tick.boundary = some b →
      ∃ n : State, exec (.boundaryDecision p) s = .next n ∧ ((n.dev.part p).tick.boundary = none ∧
        (n.dev.part p).tick.late = []))

/-- What a commit does to a cluster and to a window's records: counters of the window are zero, credit, memory and
channels stay; an open record stamped before the boundary takes the window's index, every other keeps its own. The
release sets the hardware predicates and keeps the program's: p0 is 1, then stale_in, prologue, first_window. The
overrun policy a late stage meets: a stage done before the boundary was only stretched; STRETCH falls back to the
fallback; SKIP and FAULT apply as they are. The status of a run's DONE ranks a fault of an operation first, then a
failed unit, NO_SPACE, TIMEOUT, OVERRUN, ABORTED, STALE, QUALITY; a run with none of them is OK. -/
def Obligations.WindowsBeginAndEndByTheRules : Prop :=
  (∀ (x : Cluster) (y : Part) (window at_ i : Nat) (r : LedgerRec),
      x.newWindow.work = [] ∧ x.newWindow.bits = [] ∧ x.newWindow.budget = [] ∧ x.newWindow.credit = x.credit ∧
      x.newWindow.mem = x.mem ∧ x.newWindow.chan = x.chan ∧
      (y.ledger.recs[i]? = some r → (y.closeWindow window at_).ledger.recs[i]? =
        some (if r.window = none ∧ r.stamp < at_ then { r with window := some window } else r)) ∧
      (y.closeWindow window at_).ledger.recs.length = y.ledger.recs.length ∧
      (y.closeWindow window at_).ledger.counters = y.ledger.counters) ∧
  (∀ (k e : Core) (skipped stale prologue first : Bool) (now i : Nat), e = k.enter skipped stale prologue first now →
      e.pred 0 = true ∧ e.pred 1 = stale ∧ e.pred 2 = prologue ∧ e.pred 3 = first ∧ (8 ≤ i → e.pred i = k.pred i) ∧
      (k.phase = .stopping → e.phase = .stopping) ∧ (k.window = [] → k.phase ≠ .stopping → e.phase = .running) ∧
      e.done = none ∧ e.pc = (if skipped then k.windowEntry else k.pc) ∧ e.sp = k.sp ∧ e.acc0 = k.acc0) ∧
  (∀ (par : TickPar) (at_ t : Nat),
      (t < at_ → appliedPolicy par at_ (some t) = (0, 0)) ∧
      (at_ ≤ t → appliedPolicy par at_ (some t) = appliedPolicy par at_ none) ∧
      (par.policy = 0 → appliedPolicy par at_ none = (par.fallback, 1)) ∧
      (par.policy ≠ 0 → appliedPolicy par at_ none = (par.policy, 0))) ∧
  (∀ r : Run,
      (∀ f, r.stop.fault = some f → ∀ b, r.status b = f.2.1) ∧
      (r.stop.fault = none → r.stop.device = true → ∀ b, r.status b = 0x10) ∧
      (r.stop.fault = none → r.stop.device = false → r.stop.noSpace = true → ∀ b, r.status b = 0x07) ∧
      (r.stop.fault = none → r.stop.device = false → r.stop.noSpace = false → r.stop.timeout = true → ∀ b, r.status b = 0x0B) ∧
      (r.stop.fault = none → r.stop.device = false → r.stop.noSpace = false → r.stop.timeout = false →
        (r.stop.overrun = true → ∀ b, r.status b = 0x0E) ∧
        (r.stop.overrun = false →
          (r.stop.aborted = true → r.status false = 0x0C) ∧
          (r.stop.aborted = false → r.stale = true → r.status false = 0x0D) ∧
          (r.stop.aborted = false → r.stale = false → r.quality = true → r.status false = 0x0F) ∧
          (r.stop.aborted = false → r.stale = false → r.quality = false → ∀ b, r.status b = 0x00))))

/-- A run that has just been given its cores: it has begun no window, every core of the pipeline knows its partition,
slot and stage, and the cores of no other pipeline change. RUN_WINDOW_COUNT_REACHED and PIPELINE_STOP_DRAINED end a
run whose cores' windows are empty: every core is idle, and the pipeline is submitted again. A run that is not
over, or has operations in flight, goes on. -/
def Obligations.RunsHoldTheirCores : Prop :=
  (∀ (d : Dev) (p slot h count c : Nat) (y : Pipe), y.cores.Nodup →
      (Tab.find ((d.startRun p slot h count y).part p).pipes slot).bind (·.run) = some (Run.fresh h count y.stages.length) ∧
      (c ∉ y.cores → (d.startRun p slot h count y).core c = d.core c) ∧
      (∀ i z, y.stages[i]? = some z → c ∈ z.cores → ((d.startRun p slot h count y).core c).run = some (p, slot, i) ∧
        ((d.startRun p slot h count y).core c).progMem = Tab.getD (d.part p).programs z.program [])) ∧
  (∀ (s : State) (p slot : Nat) (x : Pipe) (r : Run), PartUp s p → Tab.find (s.dev.part p).pipes slot = some x → x.run = some r →
      ((r.done < r.count ∨ r.stopping = true ∨ s.dev.pipeIdle x = false) → exec (.runWindowCountReached p slot) s = .next s) ∧
      ((r.stopping = false ∨ s.dev.pipeIdle x = false) → exec (.pipelineStopDrained p slot) s = .next s) ∧
      (r.started = true → r.stopping = false → r.count ≤ r.done → s.dev.pipeIdle x = true → r.handle = none → r.stoppers = [] →
        x.launched = false → r.removeAfter = false →
        ∃ t : State, exec (.runWindowCountReached p slot) s = .next t ∧
          ((∀ c ∈ x.cores, (t.dev.core c).phase = .idle ∧ (t.dev.core c).run = none) ∧
            (Tab.find (t.dev.part p).pipes slot).map (·.run) = some none ∧
            (∀ c, c ∉ x.cores → t.dev.core c = s.dev.core c))) ∧
      (r.stopping = true → s.dev.pipeIdle x = true → r.handle = none → r.stoppers = [] → x.launched = false → r.removeAfter = true →
        ∃ t : State, exec (.pipelineStopDrained p slot) s = .next t ∧
          ((∀ c ∈ x.cores, (t.dev.core c).phase = .idle) ∧ Tab.find (t.dev.part p).pipes slot = none)))

/-! ## Sequences and pages -/

/-- HOLD_EXPIRY: a hold at its limit without a page ends, and its sequence is SUSPENDED with NO_SPACE to answer once; a
hold that is not due, or no hold, changes nothing. EDIT_BATCH_EXPIRY: a batch of pg.publish that has waited its
time and still lacks a frame is dropped and counted; a partition with no staged batch keeps what it has staged.
RESUME_EXPIRY: an eager resume whose frames have not come by its window goes back to PARKED; one that lacks
nothing, or still has time, goes on. PARK_COMPLETE and RESUME_COMPLETE end the writes or migrations of a PARKING or
RESUMING sequence: nothing is pending, and the commit that follows makes it PARKED or ACTIVE; a sequence in another
state is as before. DEMOTION_COMPLETE: the page's store write is no longer running; a page that is not being
written changes nothing. -/
def Obligations.SequencesMoveAndExpire : Prop :=
  (∀ (s : State) (p slot : Nat) (q : Seq) (h : Hold), PartUp s p → (s.dev.part p).seq slot = some q →
      (q.hold = none → exec (.holdExpiry p slot) s = .next s) ∧
      (q.hold = some h → (s.dev.part p).holdDue h = false → exec (.holdExpiry p slot) s = .next s) ∧
      (q.hold = some h → (s.dev.part p).holdDue h = true → s.dev.heldAppends p (q.ident slot) = [] →
        ∃ t : State, exec (.holdExpiry p slot) s = .next t ∧
          (t.dev.part p).seq slot = some { q with hold := none, state := .suspended, noSpaceOnce := true })) ∧
  (∀ (s : State) (p id w slot : Nat) (recs : List Bytes) (q : Seq), PartUp s p →
      ((∀ i ∈ (s.dev.part p).staged, ∀ h id recs w, i ≠ .edits h id recs w) →
        ∃ t : State, exec (.editBatchExpiry p) s = .next t ∧ (t.dev.part p = s.dev.part p)) ∧
      ((s.dev.part p).staged = [.edits none id recs w] → w + (s.dev.part p).holdLimit ≤ (s.dev.part p).tick.index →
        (s.dev.part p).seqOf id = some (slot, q) → (s.dev.part p).batchLacks slot recs = true →
        ∃ t : State, exec (.editBatchExpiry p) s = .next t ∧ ((t.dev.part p).staged = [] ∧
          Tab.getD (t.dev.part p).counters 14 0 = satAdd (Tab.getD (s.dev.part p).counters 14 0) 1))) ∧
  (∀ (s : State) (p slot : Nat) (q : Seq), PartUp s p → (s.dev.part p).seq slot = some q →
      ((s.dev.part p).tick.index < q.resumeBy → exec (.resumeExpiry p slot) s = .next s) ∧
      (q.state ≠ .resuming → exec (.resumeExpiry p slot) s = .next s) ∧
      (q.state = .resuming → q.resumeBy ≤ (s.dev.part p).tick.index → q.parkHandle = none →
        (∃ e ∈ q.entries, e.2.tier = 1 ∧ Tab.has (s.dev.part p).storeMigr (pageKey slot e.1) = false) →
        ∃ t : State, exec (.resumeExpiry p slot) s = .next t ∧
          (((t.dev.part p).seq slot).map (fun q => (q.state, q.pending, q.leaves))) = some (.parked, [], []))) ∧
  (∀ (s : State) (p slot : Nat) (q : Seq), PartUp s p → (s.dev.part p).seq slot = some q →
      (q.state ≠ .parking → exec (.parkComplete p slot) s = .next s) ∧
      (q.state ≠ .resuming → exec (.resumeComplete p slot) s = .next s) ∧
      (q.state = .parking → q.pending ≠ [] → q.durable = false → ∃ t : State, exec (.parkComplete p slot) s = .next t ∧
        (((t.dev.part p).seq slot).map (fun q => (q.state, q.pending, q.leaves))) = some (.parking, [], [])) ∧
      (q.state = .resuming → (∀ e ∈ q.entries, e.2.tier ≠ 1) → exec (.resumeComplete p slot) s =
        .next (s.onDev (fun d => d.modPart p (fun x => x.setSeq slot { q with pending := [] }))))) ∧
  (∀ (s : State) (p slot page : Nat), PartUp s p →
      ((s.dev.part p).demoting.find? (fun y => y.1 == slot && y.2.1 == page) = none →
        exec (.demotionComplete p slot page) s = .next s) ∧
      ((s.dev.part p).demoting.find? (fun y => y.1 == slot && y.2.1 == page) ≠ none → (s.dev.part p).entryOf slot page = none →
        ∃ t : State, exec (.demotionComplete p slot page) s = .next t ∧
          (t.dev.part p).demoting = (s.dev.part p).demoting.filter (fun z => !(z.1 == slot && z.2.1 == page))))

/-- SEQ_CREATE: field checks in ascending offset; then the fork checks; no tokens complete at once; then a table block
and a slot; a sequence with no fork is ACTIVE at once, its identity in result 0, and a fork waits for the commit.
Without a slot it is COUNT, without a block NO_SPACE. -/
def Obligations.SequencesAreCreated : Prop :=
  ∀ (s : State) (h p : Nat) (c : Cmd) (cs : List (Nat × Nat × Bool)), p = c.part →
    cs = pageTokensFail 16 (c.field 16 2) ++
      [(18, stCount, c.field 18 2 == 0 || decide (4096 < c.field 18 2)), (20, stPartition, !(s.dev.part p).hasDie (c.field 20 1)),
       (21, stInvalid, decide (1 < c.field 21 1)),
       (24, stBounds, decide (2 ^ 40 < c.field 18 2 * ceilDiv (c.field 24 8) (c.field 16 2) * 65536))] ++ rsvBytes c [(22, 2), (40, 24)] →
    Starts s h 0x40 c →
    (∀ f, firstFail cs = some f → exec (.seqCreate h) s = .next (s.onDev (fun d => d.failAt h f.1 f.2))) ∧
    (firstFail cs = none → ∀ f, forkFail (s.dev.part p) c = some f →
      exec (.seqCreate h) s = .next (s.onDev (fun d => d.failAt h f.1 f.2))) ∧
    (firstFail cs = none → forkFail (s.dev.part p) c = none → c.field 24 8 ≠ 0 → ∀ slot b, (s.dev.part p).freeSlot = some slot →
      (s.dev.part p).pickBlock (c.field 20 1) = some b → ∀ q, q = newSeq c (Tab.getD (s.dev.part p).seqGens slot 1) b s.dev.now →
      (c.field 36 4 = 0 → exec (.seqCreate h) s = .next (s.onDev (fun d =>
        (d.setPart p (((d.part p).takeBlock b).setSeq slot q)).complete h stOK (q.ident slot) 0))) ∧
      (c.field 36 4 ≠ 0 → exec (.seqCreate h) s = .next (s.onDev (fun d =>
        d.stage p h (fun w => .fork h (c.field 36 4) w))))) ∧
    (firstFail cs = none → forkFail (s.dev.part p) c = none → c.field 24 8 ≠ 0 → (s.dev.part p).freeSlot.isSome = true →
      (s.dev.part p).pickBlock (c.field 20 1) = none →
      exec (.seqCreate h) s = .next (s.onDev (fun d => d.complete h stNoSpace 0 0))) ∧
    (firstFail cs = none → forkFail (s.dev.part p) c = none → c.field 24 8 ≠ 0 → (s.dev.part p).freeSlot = none →
      exec (.seqCreate h) s = .next (s.onDev (fun d => d.failAt h stCount 0))) ∧
    (firstFail cs = none → forkFail (s.dev.part p) c = none → c.field 24 8 = 0 →
      exec (.seqCreate h) s = .next (s.onDev (fun d => d.complete h stOK 0 0)))

/-- SEQ_APPEND with its data in host memory: a length that is no multiple of 128 is ALIGN at byte 24, no bytes complete
at once with the token count, and a sequence that is there takes the bytes by the rules of R218 to R222. PAGE_EDIT
with its records in host memory: a batch is accepted whole or completes with the first failing record and its
offset in the object; a sequence on its way to or from the store is BUSY; a batch of no records completes at once;
a field that fails, a sequence that is not there among them, is reported at its offset. -/
def Obligations.AppendsAndEditsAreChecked : Prop :=
  (∀ (s : State) (h : Nat) (c : Cmd) (data : Bytes) (cs : List (Nat × Nat × Bool)),
      cs = [(24, stAlign, c.field 24 4 % 128 != 0), (28, stInvalid, ((s.dev.part c.part).seqOf (c.field 28 4)).isNone)] ++
        rsvBytes c [(44, 20)] → Starts s h 0x41 c →
      (∀ f, firstFail cs = some f → exec (.seqAppend h data) s = .next (s.onDev (fun d => d.failAt h f.1 f.2))) ∧
      (firstFail cs = none → c.field 24 4 ≠ 0 → HostObject c (c.field 24 4) →
        exec (.seqAppend h data) s = .next (s.onDev (fun d => d.seqAppend h c (objectOf data (c.field 24 4))))) ∧
      (firstFail cs = none → ∀ slot q, (s.dev.part c.part).seqOf (c.field 28 4) = some (slot, q) → c.field 24 4 = 0 →
        exec (.seqAppend h data) s = .next (s.onDev (fun d => d.complete h stOK q.tokens 0)))) ∧
  (∀ (s : State) (h p slot n : Nat) (c : Cmd) (q : Seq) (data : Bytes) (recs : List Bytes), p = c.part → n = c.field 24 4 →
      Starts s h 0x46 c →
      (∀ f, firstFail ((28, stInvalid, ((s.dev.part p).seqOf (c.field 28 4)).isNone) :: (24, stCount, decide (4096 < n)) ::
        rsvBytes c [(32, 32)]) = some f → exec (.pageEdit h data) s = .next (s.onDev (fun d => d.failAt h f.1 f.2))) ∧
      ((s.dev.part p).seqOf (c.field 28 4) = some (slot, q) →
        firstFail ((28, stInvalid, false) :: (24, stCount, decide (4096 < n)) :: rsvBytes c [(32, 32)]) = none →
        (n = 0 → exec (.pageEdit h data) s = .next (s.onDev (fun d => d.complete h stOK 0 0))) ∧
        (n ≠ 0 → HostObject c (32 * n) → recs = recsOf (objectOf data (32 * n)) n →
          ((q.state = .parking ∨ q.state = .parked ∨ q.state = .resuming) →
            exec (.pageEdit h data) s = .next (s.onDev (fun d => d.failAt h stBusy 28))) ∧
          ((q.state = .active ∨ q.state = .suspended) →
            (∀ f, batchFail (s.dev.part p) q recs = some f →
              exec (.pageEdit h data) s = .next (s.onDev (fun d => d.failObj h f.1 (32 * f.2.1 + f.2.2)))) ∧
            (batchFail (s.dev.part p) q recs = none → ∀ r, r = s.dev.acceptBatch p slot (some h) recs →
              exec (.pageEdit h data) s = .next (s.onDev (fun _ =>
                if r.1 then r.2.complete h stOK (r.2.part p).tick.index 0 else r.2.running h)))))))

/-- SEQ_SUSPEND, SEQ_RESUME and SEQ_DESTROY on a sequence that is there: what the state allows is staged for the
commit; PARKING and RESUMING answer BUSY, any other state OK; evict_only sets the field in every state; durable
parking is NO_SPACE in read-only mode. A sequence that is not there is INVALID at the field that names it. -/
def Obligations.StateCommandsAreStaged : Prop :=
  (∀ (s : State) (h p slot : Nat) (c : Cmd) (q : Seq), p = c.part → (s.dev.part p).seqOf (c.field 16 4) = some (slot, q) →
    (Starts s h 0x42 c → firstFail ((16, stInvalid, false) :: suspendRsv c) = none → ∀ b, b = c.field 20 1 →
      (bitOf b 2 = false → bitOf b 0 = false → q.state = .active →
        exec (.seqSuspend h) s = .next (s.onDev (fun d => d.stage p h (fun w => .suspend h (c.field 16 4) w)))) ∧
      (bitOf b 2 = false → bitOf b 0 = false → q.state ≠ .active →
        exec (.seqSuspend h) s = .next (s.onDev (fun d =>
          d.complete h (if q.state = .parking ∨ q.state = .resuming then stBusy else stOK) 0 0))) ∧
      (bitOf b 2 = false → bitOf b 0 = true → (q.state = .active ∨ q.state = .suspended) →
        exec (.seqSuspendPark h) s = .next (s.onDev (fun d => if bitOf b 1 && s.dev.tier.readOnly then d.complete h stNoSpace 0 0
          else d.stage p h (fun w => .park h (c.field 16 4) (bitOf b 1) w)))) ∧
      (bitOf b 2 = false → bitOf b 0 = true → q.state ≠ .active → q.state ≠ .suspended →
        exec (.seqSuspendPark h) s = .next (s.onDev (fun d =>
          d.complete h (if q.state = .parking ∨ q.state = .resuming then stBusy else stOK) 0 0))) ∧
      (bitOf b 2 = true → exec (.seqSuspendEvictOnly h) s = .next (s.onDev (fun d =>
        (d.modPart p (fun x => x.modSeq slot (fun q => { q with evictable := bitOf b 3 }))).complete h stOK 0 0)))) ∧
    (Starts s h 0x43 c → firstFail ((16, stInvalid, false) :: resumeRsv c) = none → (q.state = .suspended ∨ q.state = .parked) →
      (bitOf (c.field 20 1) 0 = true →
        exec (.seqResumeLazy h) s = .next (s.onDev (fun d => d.stage p h (fun w => .resumeLazy h (c.field 16 4) w)))) ∧
      (bitOf (c.field 20 1) 0 = false →
        exec (.seqResumeEager h) s = .next (s.onDev (fun d => d.stage p h (fun w => .resumeEager h (c.field 16 4) w))))) ∧
    (Starts s h 0x43 c → firstFail ((16, stInvalid, false) :: resumeRsv c) = none → q.state ≠ .suspended → q.state ≠ .parked →
      ∀ i, i = (if bitOf (c.field 20 1) 0 then Instr.seqResumeLazy h else .seqResumeEager h) →
      exec i s = .next (s.onDev (fun d =>
        d.complete h (if q.state = .parking ∨ q.state = .resuming then stBusy else stOK) 0 0))) ∧
    (Starts s h 0x44 c → firstFail ((16, stInvalid, false) :: rsvBytes c [(20, 44)]) = none →
      exec (.seqDestroy h) s = .next (s.onDev (fun d => if q.state = .parking ∨ q.state = .resuming then d.complete h stBusy 0 0
        else d.stage p h (fun w => .destroy h (c.field 16 4) w))))) ∧
  (∀ (s : State) (h op : Nat) (c : Cmd) (i : Instr), Starts s h op c → (s.dev.part c.part).seqOf (c.field 16 4) = none →
    ((i = .seqSuspend h ∧ op = 0x42 ∧ bitOf (c.field 20 1) 2 = false ∧ bitOf (c.field 20 1) 0 = false) ∨
      (i = .seqSuspendPark h ∧ op = 0x42 ∧ bitOf (c.field 20 1) 2 = false ∧ bitOf (c.field 20 1) 0 = true) ∨
      (i = .seqSuspendEvictOnly h ∧ op = 0x42 ∧ bitOf (c.field 20 1) 2 = true) ∨
      (i = .seqResumeLazy h ∧ op = 0x43 ∧ bitOf (c.field 20 1) 0 = true) ∨
      (i = .seqResumeEager h ∧ op = 0x43 ∧ bitOf (c.field 20 1) 0 = false) ∨ (i = .seqDestroy h ∧ op = 0x44)) →
    exec i s = .next (s.onDev (fun d => d.failAt h stInvalid 16)))

/-- PREFIX_LOOKUP with its token ids in host memory: LOOKUP answers the matched tokens, MAP pins the nodes it found and
is staged, INSERT answers how many nodes it added, DROP removes every node of a namespace. MAP and INSERT with a
sequence of another namespace or geometry are INVALID, and so is INSERT of more tokens than the sequence has.
MEM_ALLOC takes the next region number where the extent is aligned, lies in the partition's memory and meets no
region; MEM_FREE of a region no running pipeline names removes it, and waits for the migrations of its pages. -/
def Obligations.PrefixesAndRegionsAreServed : Prop :=
  (∀ (s : State) (h p n : Nat) (c : Cmd) (data o : Bytes), p = c.part → n = c.field 24 4 → Starts s h 0x45 c →
      o = objectOf data (4 * n) → HostObject c (4 * n) →
      (c.field 28 1 = 0 → firstFail (prefixChecks c) = none → n ≠ 0 → ∀ found,
        found = (s.dev.part p).lookup (c.field 32 4) (c.field 36 2) (c.field 38 2) (prefixBlocks c o) 0 none →
        exec (.prefixLookupLookup h data) s = .next (s.onDev (fun d =>
          (d.setPart p ((d.part p).matchedNow d.now found 0)).complete h stOK (found.length * c.field 36 2) 0))) ∧
      (c.field 28 1 = 1 → ∀ slot q, (s.dev.part p).seqOf (c.field 40 4) = some (slot, q) →
        firstFail ((40, stInvalid, false) :: prefixChecks c) = none → n ≠ 0 →
        q.fitFor (c.field 32 4) (c.field 36 2) (c.field 38 2) = true → ∀ found,
        found = (s.dev.part p).lookup (c.field 32 4) (c.field 36 2) (c.field 38 2)
          ((prefixBlocks c o).take (q.maxTokens / q.pageTokens)) 0 none →
        exec (.prefixLookupMap h data) s = .next (s.onDev (fun d =>
          (d.setPart p ((d.part p).matchedNow d.now found 1)).stage p h (fun w => .mapPages h (c.field 40 4) found w)))) ∧
      (c.field 28 1 = 1 → ∀ slot q, (s.dev.part p).seqOf (c.field 40 4) = some (slot, q) →
        firstFail ((40, stInvalid, false) :: prefixChecks c) = none → q.fitFor (c.field 32 4) (c.field 36 2) (c.field 38 2) = false →
        exec (.prefixLookupMap h data) s = .next (s.onDev (fun d => d.failAt h stInvalid 40))) ∧
      (c.field 28 1 = 2 → ∀ slot q, (s.dev.part p).seqOf (c.field 40 4) = some (slot, q) →
        firstFail ((40, stInvalid, false) :: prefixChecks c) = none →
        (q.tokens < n → exec (.prefixLookupInsert h data) s = .next (s.onDev (fun d => d.failAt h stInvalid 24))) ∧
        (n ≤ q.tokens → (q.ns ≠ c.field 32 4 ∨ q.pageTokens ≠ c.field 36 2 ∨ q.planes ≠ c.field 38 2) →
          exec (.prefixLookupInsert h data) s = .next (s.onDev (fun d => d.failAt h stInvalid 40)))) ∧
      (c.field 28 1 = 2 → ∀ slot q, (s.dev.part p).seqOf (c.field 40 4) = some (slot, q) →
        firstFail ((40, stInvalid, false) :: prefixChecks c) = none → n ≠ 0 → n ≤ q.tokens → q.ns = c.field 32 4 →
        q.pageTokens = c.field 36 2 → q.planes = c.field 38 2 → ∀ r,
        r = (s.dev.part p).insertFrom slot s.dev.now (prefixBlocks c o) 0 0 none 0 →
        exec (.prefixLookupInsert h data) s = .next (s.onDev (fun d =>
          (d.setPart p r.2.2).complete h (if r.2.1 then stNoSpace else stOK) r.1 0))) ∧
      (c.field 28 1 = 3 → firstFail (rsvBytes c [(29, 3), (44, 20)]) = none →
        exec (.prefixLookupDrop h) s = .next (s.onDev (fun d => (d.modPart p (fun x =>
          ((x.nodes.filter (fun e => e.2.ns == c.field 32 4)).map (·.1)).foldl (fun x i => x.removeNode i x.tick.index) x)).complete
            h stOK 0 0)))) ∧
  (∀ (s : State) (h p a n : Nat) (c : Cmd) (x : Part), p = c.part → x = s.dev.part p →
      (Starts s h 0x11 c → a = c.field 16 8 → n = c.field 24 8 → n ≠ 0 →
        firstFail ([(16, stInvalid, wideAddr a), (16, stAlign, a % 65536 != 0), (24, stAlign, n % 65536 != 0)] ++ rsvBytes c [(32, 32)]) = none →
        (x.extent a n = .outside → exec (.memAlloc h) s = .next (s.onDev (fun d => d.failAt h stPartition 16))) ∧
        (x.extent a n ≠ .outside → (x.regions.any (fun e => e.2.meets a n)) = true →
          exec (.memAlloc h) s = .next (s.onDev (fun d => d.failAt h stBounds 16))) ∧
        (x.extent a n ≠ .outside → (x.regions.any (fun e => e.2.meets a n)) = false →
          exec (.memAlloc h) s = .next (s.onDev (fun d => (d.modPart p (fun x => { x with
            regions := Tab.put x.regions x.nextRegion ⟨a, n, none⟩
            nextRegion := x.nextRegion + 1 })).complete h stOK x.nextRegion 0)))) ∧
      (Starts s h 0x12 c → ∀ r, Tab.find x.regions (c.field 16 4) = some r → firstFail (rsvBytes c [(20, 44)]) = none →
        (x.namesRegion r = true → exec (.memFree h) s = .next (s.onDev (fun d => d.failAt h stBusy 16))) ∧
        (x.namesRegion r = false → (x.extent r.addr r.bytes ≠ .unified ∨ ∀ g ∈ pagesOf r.addr r.bytes, Tab.has x.migr g = false) →
          ∀ e : Dev, e = (s.dev.unkeepExtent p r.addr r.bytes).modPart p (fun x => { x with regions := Tab.del x.regions (c.field 16 4) }) →
          exec (.memFree h) s = .next (s.onDev (fun _ =>
            (if r.key.isSome = true ∨ x.extent r.addr r.bytes = .unified then e.zeroExtent p r.addr r.bytes else e).complete
              h stOK 0 0))) ∧
        (x.namesRegion r = false → x.extent r.addr r.bytes = .unified → ∀ (gs : List Nat) (e : Dev),
          gs = (pagesOf r.addr r.bytes).filter (fun g => Tab.has x.migr g) → gs ≠ [] →
          e = (s.dev.unkeepExtent p r.addr r.bytes).modPart p (fun x => { x with regions := Tab.del x.regions (c.field 16 4) }) →
          exec (.memFree h) s = .next (s.onDev (fun _ => (e.zeroExtent p r.addr r.bytes).modCmd h (fun c => { c with
            phase := .running
            work := gs }))))))

/-! ## Programs, pipelines, collectives -/

/-- PROGRAM_LOAD, MICROPROG_LOAD and TICK_SET with their objects in host memory: a program whose length its header
gives and that no pipeline uses is kept under its id; an image that passes its checks, or a shipped one, joins the
shadow copies of its slot with its stamp; tick parameters wait for their boundary; a failing field is reported at
its offset, a failing field of an image at its offset in the object. -/
def Obligations.ProgramsAreLoaded : Prop :=
  ∀ (s : State) (h p n : Nat) (c : Cmd) (data b : Bytes), p = c.part → n = c.field 24 4 → b = objectOf data n →
    (Starts s h 0x20 c → ∀ cs, cs = [(24, stCount, n != 0 && (n % 64 != 0 || decide (64 * 65536 < n)))] ++ rsvBytes c [(29, 35)] →
      (∀ f, firstFail cs = some f → exec (.programLoad h data) s = .next (s.onDev (fun d => d.failAt h f.1 f.2))) ∧
      (firstFail cs = none → n ≠ 0 → HostObject c n →
        (n ≠ 64 * (fieldOf b 2 2 + 1) → exec (.programLoad h data) s = .next (s.onDev (fun d => d.failAt h stCount 24))) ∧
        (n = 64 * (fieldOf b 2 2 + 1) → (s.dev.part p).sealed = false → (s.dev.part p).usesProgram (c.field 28 1) = true →
          exec (.programLoad h data) s = .next (s.onDev (fun d => d.failAt h stBusy 28))) ∧
        (n = 64 * (fieldOf b 2 2 + 1) → (s.dev.part p).sealed = false → (s.dev.part p).usesProgram (c.field 28 1) = false →
          exec (.programLoad h data) s = .next (s.onDev (fun d =>
            (d.modPart p (fun x => { x with programs := Tab.put x.programs (c.field 28 1) b })).complete h stOK 0 0))))) ∧
    (Starts s h 0x21 c → ∀ f, firstFail (microChecks c) = some f →
      ∀ i, i = (if c.field 29 1 = 1 then Instr.microprogRestore h else .microprogLoad h data) →
      exec i s = .next (s.onDev (fun d => d.failAt h f.1 f.2))) ∧
    (Starts s h 0x21 c → firstFail (microChecks c) = none →
      (c.field 29 1 ≠ 1 → n ≠ 0 → HostObject c n → (s.dev.part p).sealed = false → checkImage b = none →
        exec (.microprogLoad h data) s = .next (s.onDev (fun d =>
          (d.modPart p (fun x => { x with microNext := Tab.put x.microNext (c.field 28 1) (Tab.getD x.microNext (c.field 28 1) [] ++ [(s.dev.tc p, b)]) })).complete h stOK 0 0))) ∧
      (c.field 29 1 ≠ 1 → n ≠ 0 → HostObject c n → (s.dev.part p).sealed = false → ∀ f, checkImage b = some f →
        exec (.microprogLoad h data) s = .next (s.onDev (fun d => d.failObj h f.1 f.2))) ∧
      (c.field 29 1 = 1 → exec (.microprogRestore h) s = .next (s.onDev (fun d => (d.modPart p (fun x => { x with
        microNext := Tab.put x.microNext (c.field 28 1) (Tab.getD x.microNext (c.field 28 1) [] ++ [(s.dev.tc p, shippedImage (c.field 30 1))]) })).complete h stOK 0 0)))) ∧
    (Starts s h 0x25 c →
      (∀ f, firstFail (tickChecks (s.dev.part p) c) = some f →
        exec (.tickSet h) s = .next (s.onDev (fun d => d.failAt h f.1 f.2))) ∧
      (firstFail (tickChecks (s.dev.part p) c) = none → exec (.tickSet h) s = .next (s.onDev (fun d =>
        (d.modTick p (fun t => { t with next := t.next ++ [(h, tickParOf c)] })).running h))))

/-- The tick parameters of TICK_SET (R25): each field's legal values, and the status and offset of the first that is
not legal; the lower fields pass, and the allowance is enough for what runs, where a later field is refused. The
values after PARTITION_SET are the defaults. -/
def Obligations.TickParametersAreBounded : Prop :=
  (∀ (x : Part) (c : Cmd) (period stretch : Nat), period = c.field 16 4 → stretch = c.field 20 4 →
    ((period < 10000 ∨ 100000000 < period) → firstFail (tickChecks x c) = some (stBounds, 16)) ∧
    (10000 ≤ period → period ≤ 100000000 →
      (period % 10 ≠ 0 → firstFail (tickChecks x c) = some (stAlign, 16)) ∧
      (period % 10 = 0 → (∀ y ∈ x.runningPipes, x.recoveryBound y ≤ (tickParOf c).allowance) →
        (period < stretch → firstFail (tickChecks x c) = some (stBounds, 20)) ∧
        (stretch ≤ period → stretch % 10 ≠ 0 → firstFail (tickChecks x c) = some (stAlign, 20)) ∧
        (stretch ≤ period → stretch % 10 = 0 → 2 < c.field 24 1 → firstFail (tickChecks x c) = some (stInvalid, 24)) ∧
        (stretch ≤ period → stretch % 10 = 0 → c.field 24 1 ≤ 2 → c.field 25 1 ≠ 1 → c.field 25 1 ≠ 2 →
          firstFail (tickChecks x c) = some (stInvalid, 25)) ∧
        (stretch ≤ period → stretch % 10 = 0 → c.field 24 1 ≤ 2 → (c.field 25 1 = 1 ∨ c.field 25 1 = 2) →
          firstFail (rsvBytes c [(26, 38)]) = none → firstFail (tickChecks x c) = none)))) ∧
  (∀ (d : Dev) (ep p : Nat) (y : Layout), ((d.configure ep p y).part p).tick.par.period = 1000000 ∧
    ((d.configure ep p y).part p).tick.par.policy = 0 ∧ ((d.configure ep p y).part p).tick.par.stretch = 250000 ∧
    ((d.configure ep p y).part p).tick.par.fallback = 2)

/-- PIPELINE_SUBMIT with its object in host memory: the loader's steps in order, the first failure with its locus; an
explicit list whose pages are not there asks for them, one that cannot be read is a DEVICE_FAULT, one behind a link
that retrains waits; an object that passes every step is the pipeline of its slot, once the stacks can serve what
its lists read. COLLECTIVE_LAUNCH with its record in host memory: a record that fails is reported in the object;
one that moves nothing completes at once; a launch that finds its cores held is BUSY; otherwise a run begins, its
window count a free value of at least 1. -/
def Obligations.PipelinesAndCollectivesAreChecked : Prop :=
  (∀ (s : State) (h p n : Nat) (c : Cmd) (data o : Bytes), p = c.part → n = c.field 24 4 → o = objectOf data n → Starts s h 0x22 c →
      (n < 64 → exec (.pipelineSubmit h data) s = .next (s.onDev (fun d => d.failAt h stBounds 24))) ∧
      (64 ≤ n → HostObject c n → ∀ f, (s.dev.part p).submitSteps c o = some f →
        exec (.pipelineSubmit h data) s = .next (s.onDev (fun d => d.complete h f.1 0 f.2))) ∧
      (64 ≤ n → HostObject c n → (s.dev.part p).submitSteps c o = none →
        ∀ (cold : List Nat) (lost : Bool), cold = ((s.dev.part p).lists o).flatMap (fun e => (s.dev.part p).lacking h e.1 e.2) →
        lost = ((s.dev.part p).lists o).any (fun e => s.dev.ioWay p e.1 e.2 == 2 || poisoned (s.dev.devRead p e.1 e.2 0).1) →
        (cold ≠ [] → exec (.pipelineSubmit h data) s = .next (s.onDev (fun d => d.ask p h cold.dedup ((d.part p).dieList.headD 0)))) ∧
        (cold = [] → lost = true → exec (.pipelineSubmit h data) s = .next (s.onDev (fun d =>
          (d.modPart p (fun x => x.unask h)).complete h stDeviceFault 0 0))) ∧
        (cold = [] → lost = false → (∃ e ∈ (s.dev.part p).lists o, s.dev.ioWay p e.1 e.2 = 1 ∨ s.dev.extentHeld p e.1 e.2 = true) →
          exec (.pipelineSubmit h data) s = .next s) ∧
        (cold = [] → lost = false → (∀ e ∈ (s.dev.part p).lists o, s.dev.ioWay p e.1 e.2 = 0 ∧ s.dev.extentHeld p e.1 e.2 = false) →
          ∀ r e t, r = s.dev.listStep p o → e = r.2.2.modPart p (fun x => x.unask h) →
          ((∃ f, r.1 = some f ∧ t = e.complete h f.1 0 f.2) ∨
            (∃ f, r.1 = none ∧ (e.part p).areaSteps o = some f ∧ t = e.complete h f.1 0 f.2) ∨
            (r.1 = none ∧ (e.part p).areaSteps o = none ∧
              t = (e.storePipe p (c.field 28 1) (c.field 29 1 == 1) o r.2.1).complete h stOK 0 0)) →
          exec (.pipelineSubmit h data) s = .next (if s.dev.affords t then s.onDev (fun _ => t) else s)))) ∧
  (∀ (s : State) (h p : Nat) (c : Cmd) (data o : Bytes), p = c.part → Starts s h 0x70 c → c.field 24 4 = 256 →
      firstFail (rsvBytes c [(28, 36)]) = none → HostObject c 256 → o = objectOf data 256 →
      (∀ f, coFail (s.dev.part p) o = some f →
        exec (.collectiveLaunch h data) s = .next (s.onDev (fun d => d.complete h f.1 0 (locus 8 0 f.2)))) ∧
      (coFail (s.dev.part p) o = none → coEmpty o = true →
        exec (.collectiveLaunch h data) s = .next (s.onDev (fun d => d.complete h stOK ones64 ones64))) ∧
      (coFail (s.dev.part p) o = none → coEmpty o = false → (s.dev.part p).launchBusy o = true →
        exec (.collectiveLaunch h data) s = .next (s.onDev (fun d => d.complete h stBusy 0 0))) ∧
      (coFail (s.dev.part p) o = none → coEmpty o = false → (s.dev.part p).launchBusy o = false →
        ∃ slot n, 16 ≤ slot ∧ slot < 32 ∧ 1 ≤ n ∧ exec (.collectiveLaunch h data) s = .next (s.onDev (fun d =>
          (d.draw.2.startRun p slot h n (launchedPipe o)).running h))))

/-- PIPELINE_RUN and PIPELINE_STOP: a run takes its cores and waits for the next boundary; a pipeline that runs, or
whose cores, areas or credit counters another run holds, or a fifth one, is BUSY; count 0 completes at once; a stop
waits for the run's end, in a stretch it stops the run's late stages at once, and a stop with delete of a pipeline
that does not run empties its slot at once. -/
def Obligations.RunsAreStartedAndStopped : Prop :=
  ∀ (s : State) (h p slot n : Nat) (c : Cmd) (y : Pipe) (r : Run), p = c.part → slot = c.field 28 1 → n = c.field 32 8 → slot < 16 →
    Tab.find (s.dev.part p).pipes slot = some y →
    (Starts s h 0x23 c → firstFail (rsvBytes c [(16, 12), (29, 3), (40, 24)]) = none →
      (n = 0 → exec (.pipelineRun h) s = .next (s.onDev (fun d => d.complete h stOK ones64 ones64))) ∧
      (n ≠ 0 → (s.dev.part p).runBusy y = true → exec (.pipelineRun h) s = .next (s.onDev (fun d => d.failAt h stBusy 28))) ∧
      (n ≠ 0 → (s.dev.part p).runBusy y = false → (s.dev.part p).tick.par.allowance < (s.dev.part p).recoveryBound y →
        exec (.pipelineRun h) s = .next (s.onDev (fun d => d.failAt h stBounds 28))) ∧
      (n ≠ 0 → (s.dev.part p).runBusy y = false → (s.dev.part p).recoveryBound y ≤ (s.dev.part p).tick.par.allowance →
        exec (.pipelineRun h) s = .next (s.onDev (fun d => (d.startRun p slot h n y).running h)))) ∧
    (Starts s h 0x24 c → c.field 29 1 = 0 → firstFail (rsvBytes c [(16, 12), (30, 34)]) = none →
      (y.run = none → exec (.pipelineStop h) s = .next (s.onDev (fun d => d.failAt h stInvalid 28))) ∧
      (y.run = some r → (s.dev.part p).tick.inStretch = false →
        exec (.pipelineStop h) s = .next (s.onDev (fun d => (d.modPart p (fun x => { x with
          pipes := Tab.put x.pipes slot { y with run := some { r with
            stopAtBoundary := true
            stoppers := r.stoppers ++ [h] } } })).running h))) ∧
      (y.run = some r → (s.dev.part p).tick.inStretch = true → ∃ t : State, exec (.pipelineStop h) s = .next t ∧
        (Tab.find (t.dev.part p).pipes slot).bind (·.run) = some { r with
          stopAtBoundary := true
          stoppers := r.stoppers ++ [h] } ∧
        ∀ l ∈ (s.dev.part p).tick.late, l.slot = slot → ∀ z, y.stages[l.stage]? = some z → ∀ k ∈ z.cores,
          (s.dev.core k).phase ≠ .idle → (t.dev.core k).phase = .stopping)) ∧
    (Starts s h 0x24 c → c.field 29 1 = 1 → firstFail (rsvBytes c [(16, 12), (30, 34)]) = none →
      (y.run = none → exec (.pipelineStopDelete h) s = .next (s.onDev (fun d =>
        (d.modPart p (fun x => { x with pipes := Tab.del x.pipes slot })).complete h stOK 0 0))) ∧
      (y.run = some r → (s.dev.part p).tick.inStretch = false →
        exec (.pipelineStopDelete h) s = .next (s.onDev (fun d => (d.modPart p (fun x => { x with
        pipes := Tab.put x.pipes slot { y with run := some { r with
          stopAtBoundary := true
          stoppers := r.stoppers ++ [h]
          removeAfter := true } } })).running h))) ∧
      (y.run = some r → (s.dev.part p).tick.inStretch = true → ∃ t : State, exec (.pipelineStopDelete h) s = .next t ∧
        (Tab.find (t.dev.part p).pipes slot).bind (·.run) = some { r with
          stopAtBoundary := true
          stoppers := r.stoppers ++ [h]
          removeAfter := true } ∧
        ∀ l ∈ (s.dev.part p).tick.late, l.slot = slot → ∀ z, y.stages[l.stage]? = some z → ∀ k ∈ z.cores,
          (s.dev.core k).phase ≠ .idle → (t.dev.core k).phase = .stopping))

/-! ## Partitions -/

/-- PARTITION_SET with its object in host memory. CONFIGURE: an object that fails is reported at its offset, a
partition in use is BUSY, an object that passes is in force and stored. DELETE of a partition that holds no admin
function waits for the scrub, END GRACE of one that has departed starts it; both are INVALID elsewhere. A commit of
firmware in progress makes all three BUSY. The object of PARTITION_SET: version 1, dies a non-empty mask of four,
and the defaults of its default codes. -/
def Obligations.PartitionsAreSet : Prop :=
  (∀ (s : State) (h p : Nat) (c : Cmd) (data o : Bytes) (d : Dev) (bad : Bool), p = c.field 28 1 → Starts s h 0x10 c → o = objectOf data 256 →
      (c.field 29 1 = 0 → c.field 24 4 = 256 → firstFail (setChecks c) = none →
        (s.plat.committing.isSome = true → d = s.dev.complete h stBusy 0 0 → exec (.partitionSetConfigure h data) s =
          .next { s with dev := d, plat := { s.plat with layouts := d.layouts } }) ∧
        (s.plat.committing = none → HostObject c 256 → ∀ f, s.dev.layoutFail s.plat.portNow p o = some f →
          d = s.dev.failObj h f.1 f.2 → exec (.partitionSetConfigure h data) s =
            .next { s with dev := d, plat := { s.plat with layouts := d.layouts } }) ∧
        (s.plat.committing = none → HostObject c 256 → s.dev.layoutFail s.plat.portNow p o = none →
          s.dev.layoutBusy p h (layoutOf o) = true → d = s.dev.failAt h stBusy 28 → exec (.partitionSetConfigure h data) s =
            .next { s with dev := d, plat := { s.plat with layouts := d.layouts } }) ∧
        (s.plat.committing = none → HostObject c 256 → s.dev.layoutFail s.plat.portNow p o = none →
          s.dev.layoutBusy p h (layoutOf o) = false →
          d = (s.dev.complete h stOK 0 0).moving (s.dev.movedFns p (layoutOf o))
            (fun d => d.layDown s.plat.fuseEpoch p (layoutOf o)) → exec (.partitionSetConfigure h data) s =
            .next { s with dev := d, plat := { s.plat with layouts := d.layouts } })) ∧
      (c.field 29 1 = 1 → firstFail (noObject c ++ setChecks c) = none → s.plat.committing = none → s.dev.idle p h = true →
        (s.dev.part p).layout.isSome = true → adminFn ∉ (s.dev.part p).fnList →
        d = (s.dev.running h).scrub s.plat.fuseEpoch p (some h) true → exec (.partitionSetDelete h) s =
          .next { s with dev := d, plat := { s.plat with layouts := d.layouts } }) ∧
      (c.field 29 1 = 2 → firstFail (noObject c ++ setChecks c) = none → s.plat.committing = none → s.dev.idle p h = true →
        (s.dev.part p).state.isDeparted = true →
        d = (s.dev.complete h stOK 0 0).scrub s.plat.fuseEpoch p none false → exec (.partitionSetEndGrace h) s =
          .next { s with dev := d, plat := { s.plat with layouts := d.layouts } }) ∧
      (firstFail (noObject c ++ setChecks c) = none → ∀ i, ((i = .partitionSetDelete h ∧ c.field 29 1 = 1 ∧ bad =
          ((s.dev.part p).layout.isNone || (s.dev.part p).fnList.contains adminFn)) ∨
          (i = .partitionSetEndGrace h ∧ c.field 29 1 = 2 ∧ bad = !(s.dev.part p).state.isDeparted)) →
        ((bad = true ∧ d = s.dev.failAt h stInvalid 28) ∨
          (bad = false ∧ s.plat.committing.isSome = true ∧ d = s.dev.complete h stBusy 0 0) ∨
          (bad = false ∧ s.plat.committing = none ∧ s.dev.idle p h = false ∧ d = s.dev.failAt h stBusy 28)) →
        exec i s = .next { s with dev := d, plat := { s.plat with layouts := d.layouts } })) ∧
  (∀ (code : Nat) (o : Bytes),
      (fieldOf o 0 1 ≠ 1 → firstFail (layoutChecks code o) = some (stUnsupported, 0)) ∧
      (fieldOf o 0 1 = 1 → (fieldOf o 1 1 = 0 ∨ 16 ≤ fieldOf o 1 1) → firstFail (layoutChecks code o) = some (stInvalid, 1)) ∧
      (fieldOf o 2 1 = 0 → (layoutOf o).holdLimit = 2) ∧ (fieldOf o 3 1 = 0 → (layoutOf o).dirtyPct = 25) ∧
      (fieldOf o 4 2 = 0xFFFF → (layoutOf o).graceS = 30) ∧ (fieldOf o 6 1 = 0xFF → (layoutOf o).keepQuota = 16) ∧
      (fieldOf o 8 4 = 0 → (layoutOf o).handleQuota = 262144))

/-- A scrub zeroes every core, cluster and stack of the partition's dies, and touches no other. GRACE_EXPIRY and
MANAGEMENT_END_GRACE scrub a departed partition: its instance and generation advance, it keeps its layout, and
nothing of its programs, sequences, regions or keys is left. A partition that is not departed stays. SCRUB_COMPLETE
ends a scrub: the partition is attached again and no host of it has yet attached, or it leaves the layout; the
stored layout is the one in force. A partition that is not being scrubbed stays as it is. -/
def Obligations.PartitionsAreScrubbed : Prop :=
  (∀ (d : Dev) (dies : List Nat) (n : Nat),
      (n / 64 ∈ dies → (d.zeroDies dies).core n = (d.core n).zeroed) ∧ (n / 64 ∉ dies → (d.zeroDies dies).core n = d.core n) ∧
      (n / 8 ∈ dies → (d.zeroDies dies).cluster n = (d.cluster n).zeroed) ∧
      (n / 8 ∉ dies → (d.zeroDies dies).cluster n = d.cluster n) ∧
      (n / 4 ∈ dies → (d.zeroDies dies).stack n = (d.stack n).zeroed) ∧ (n / 4 ∉ dies → (d.zeroDies dies).stack n = d.stack n) ∧
      (d.core n).zeroed.sp = [] ∧ (d.cluster n).zeroed.mem = [] ∧ (d.stack n).zeroed.dram = []) ∧
  (∀ (s : State) (p at_ : Nat) (y : Layout) (i : Instr), PartUp s p → (i = .graceExpiry p ∨ i = .managementEndGrace p) →
      ((s.dev.part p).state.isDeparted = false → exec i s = .next s) ∧
      ((s.dev.part p).state = .departed at_ → (s.dev.part p).layout = some y → s.dev.host.live = [] →
        ∃ t : State, exec i s = .next t ∧ ((t.dev.part p).state = .scrubbing none false ∧
          (t.dev.part p).inst = (s.dev.part p).inst + 1 ∧ (t.dev.part p).gen = ((s.dev.part p).gen + 1) % 256 ∧
          (t.dev.part p).layout = some y ∧ (t.dev.part p).programs = [] ∧ (t.dev.part p).seqs = [] ∧
          (t.dev.part p).regions = [] ∧ (t.dev.part p).sectors = [] ∧ (∀ e ∈ (t.dev.part p).keys, e.2.live = false)))) ∧
  (∀ (s : State) (p : Nat) (x : Part), PartUp s p → x = s.dev.part p →
      ((∀ h d, x.state ≠ .scrubbing h d) → exec (.scrubComplete p) s =
        .next { s with plat := { s.plat with layouts := s.dev.layouts } }) ∧
      (x.state = .scrubbing none false → (∀ f ∈ x.fnList, (s.dev.fn f).awaiting = false) →
        ∃ t : State, exec (.scrubComplete p) s = .next t ∧ ((t.dev.part p).state = .attached ∧
          (t.dev.part p).everAttached = false ∧ (t.dev.part p).layout = x.layout ∧ t.plat.layouts = t.dev.layouts)) ∧
      (x.state = .scrubbing none true → x.fnList = [] →
        ∃ t : State, exec (.scrubComplete p) s = .next t ∧ ((t.dev.part p).layout = none ∧ (t.dev.part p).inst = x.inst ∧
          t.plat.layouts = t.dev.layouts)))

/-! ## Keys, attestation, sessions, firmware -/

/-- ATTEST with its out area in host memory, ATTEST draws an import key, writes the report with its signature, and
answers its size; a smaller area is BOUNDS with the size. SESSION_OPEN, with its request and its response area in
host memory: the response and its length are free values; a response that does not fit is BOUNDS with its length. -/
def Obligations.AttestationAndSessions : Prop :=
  (∀ (s : State) (h p n : Nat) (c : Cmd) (d : Dev) (body : Bytes), p = c.part → n = c.field 24 4 → Starts s h 0x80 c →
      firstFail (rsvBytes c [(28, 4)]) = none → n ≠ 0 →
      (s.dev.carnelian = false → exec (.attest h) s = .next (s.onDev (fun d => d.complete h stDeviceFault 0 0))) ∧
      (s.dev.carnelian = true → HostOut c 16 n → n < reportBytes →
        exec (.attest h) s = .next (s.onDev (fun d => d.complete h stBounds reportBytes (locus 0 0 24)))) ∧
      (s.dev.carnelian = true → HostOut c 16 n → reportBytes ≤ n →
        d = s.dev.draw.2.modPart p (fun x => x.addImport s.dev.draw.1) →
        body = d.report s.plat p (d.part p).importCount s.dev.draw.1 ((c.bytes.drop 32).take 32) →
        exec (.attest h) s = .next (s.onDev (fun _ => (d.hostWrite c.fn (c.field 16 8)
          (body ++ sliceOf (Config.mlDsaSign s.plat.aliasSeed (signedPart body) 1) 0 4627)).complete h stOK reportBytes 0)))) ∧
  (∀ (s : State) (h n m : Nat) (c : Cmd) (data : Bytes) (b : Bytes × Dev), n = c.field 24 4 → m = c.field 28 4 → Starts s h 0x81 c →
      firstFail (rsvBytes c [(40, 24)]) = none → n ≠ 0 → m ≠ 0 → s.dev.carnelian = true → HostObject c n → HostOut c 32 m →
      (m < s.dev.draw.1 → exec (.sessionOpen h data) s = .next (s.onDev (fun d =>
        d.draw.2.complete h stBounds d.draw.1 (locus 0 0 28)))) ∧
      (s.dev.draw.1 ≤ m → b = s.dev.draw.2.freeBytes s.dev.draw.1 → exec (.sessionOpen h data) s = .next (s.onDev (fun _ =>
        (b.2.hostWrite c.fn (c.field 32 8) b.1).complete h stOK s.dev.draw.1 0))))

/-- The SPDM requests that ask for something answer it: version, capabilities, the algorithms when the requester can
use them all, the digest, the chain, the twelve measurements signed with the alias key. With Carnelian failed all
answer ERROR. KEY_EXCHANGE, FINISH, PSK_EXCHANGE and PSK_FINISH: a session begins, and is secure under a fresh tag
once its finish checks; the eight newest sessions of a partition stay; a wrong check, a missing record, or the end
of the grace time answers ERROR. IDE_KM through the mailbox of the function's port, within a secure session, makes
the stream secure: a selective stream of a function, or the link stream of the port; a stream that leaves Secure is
secure no more, on any function of the port. -/
def Obligations.SpdmSessionsAreSetUp : Prop :=
  (∀ (s : State) (src : SpdmSrc) (algs : Nat) (nonce : Bytes), SpdmUp s src →
      exec (.getVersion src) s = .next (s.onDev (fun d => d.answer .version)) ∧
      exec (.getCapabilities src) s = .next (s.onDev (fun d => d.answer .capabilities)) ∧
      exec (.negotiateAlgorithms src algs) s =
        .next (s.onDev (fun d => d.answer (if algs % 16 = 15 then .algorithms 15 else .error))) ∧
      exec (.getDigests src) s = .next (s.onDev (fun d => d.answer (.digests (Config.sha3 Config.certChain)))) ∧
      exec (.getCertificate src) s = .next (s.onDev (fun d => d.answer (.certificate Config.certChain))) ∧
      exec (.getMeasurements src nonce) s = .next (s.onDev (fun d => d.answer (.measurements (d.measurements s.plat src)
        (Config.mlDsaSign s.plat.aliasSeed ((d.measurements s.plat src).flatMap id ++ nonce) 0)))) ∧
      (s.dev.measurements s.plat src).length = 12) ∧
  (∀ (s : State) (src : SpdmSrc) (ek psk : Bytes) (p tag : Nat) (v : Spdm) (e : Resume), SpdmUp s src →
      (s.dev.spdmPart src = some p → ∃ t : State, exec (.keyExchange src ek) s = .next t ∧
        ((∃ a b, t.dev.spdmReply = some (.keyExchange a b)) ∧ (∃ k, (t.dev.part p).sessions =
          (s.dev.part p).sessions.drop ((s.dev.part p).sessions.length - 7) ++ [⟨0, (spdmFn src).getD noFn, false, k, false⟩]))) ∧
      (src ≠ .mctp → s.dev.spdmPart src = none →
        exec (.keyExchange src ek) s = .next (s.onDev (fun d => d.answer .error))) ∧
      (exec (.finish src false) s = .next (s.onDev (fun d => d.answer .error))) ∧
      (s.dev.spdmPart src = some p → s.dev.opening src false = some v → ∃ (t : State) (g : Nat), exec (.finish src true) s = .next t ∧
        (t.dev.spdmReply = some (.finished g) ∧ (t.dev.part p).sessions =
          (s.dev.part p).sessions.erase v ++ [{ v with tag := g, secure := true, resuming := false }])) ∧
      (s.dev.spdmPart src = some p → (s.dev.part p).resumeRec ((spdmFn src).getD noFn) tag = some e →
        (e.secret = psk → s.dev.graceOpen p = true → ∃ t : State, exec (.pskExchange src tag psk) s = .next t ∧
          (t.dev.spdmReply = some .pskExchange)) ∧
        ((e.secret ≠ psk ∨ s.dev.graceOpen p = false) →
          exec (.pskExchange src tag psk) s = .next (s.onDev (fun d => d.answer .error)))) ∧
      (s.dev.spdmPart src = some p → s.dev.opening src true = some v → s.dev.graceOpen p = true →
        ((s.dev.part p).resumeRec ((spdmFn src).getD noFn) v.tag).isSome = true → ∃ (t : State) (g : Nat),
        exec (.pskFinish src true) s = .next t ∧ t.dev.spdmReply = some (.finished g)) ∧
      (s.dev.spdmPart src = some p → s.dev.opening src true = some v → ∃ t : State, exec (.pskFinish src false) s = .next t ∧
        (t.dev.spdmReply = some .error ∧ (t.dev.part p).sessions = (s.dev.part p).sessions.erase v))) ∧
  (∀ (s : State) (f stream port : Nat),
      (SpdmUp s (.doe (portOf f)) → s.dev.secureOf (.doe (portOf f)) = true → (s.dev.fn f).present = true → stream < 8 →
        ∃ t : State, exec (.ideKm (.doe (portOf f)) f stream) s = .next t ∧
          (stream ∈ (t.dev.fn f).ide ∧ t.dev.spdmReply = some .accepted)) ∧
      (SpdmUp s (.doe (portOf f)) → s.dev.secureOf (.doe (portOf f)) = true → (s.dev.fn f).present = true → stream = 8 →
        ∃ t : State, exec (.ideKm (.doe (portOf f)) f stream) s = .next t ∧
          ((t.dev.port (portOf f)).linkIde = true ∧ t.dev.spdmReply = some .accepted)) ∧
      (SpdmUp s (.doe (portOf f)) → s.dev.secureOf (.doe (portOf f)) = false →
        exec (.ideKm (.doe (portOf f)) f stream) s = .next (s.onDev (fun d => d.answer .error))) ∧
      (s.plat.up = true → port < 4 → stream = 8 → ∃ t : State, exec (.ideStreamLeavesSecure port stream) s = .next t ∧
        (t.dev.port port).linkIde = false) ∧
      (s.plat.up = true → port < 4 → stream ≠ 8 → f ∈ s.dev.presentOn port →
        ∃ t : State, exec (.ideStreamLeavesSecure port stream) s = .next t ∧ stream ∉ (t.dev.fn f).ide))

/-- KEY_IMPORT with its object in host memory: IMPORT keeps the unwrapped key in the first free slot under a handle of
slot and reuse count, a tag or key that fails is AUTH, no free slot COUNT; ERASE makes the handle invalid. An
object of another length is BOUNDS, and a field of it that fails is reported at its offset in the object.
WEIGHTS_BIND reads ciphertext and tag and runs; WEIGHTS_BIND_COMPLETE makes its region a weight region when the tag
checks, and zeroes the region and answers AUTH when it does not; a region that is gone is INVALID. Pages of the
region that are not resident are brought in first; a link that is down is a DEVICE_FAULT. KEY_ROTATE waits for the
commit unless a sweep still runs; SWEEP_COMPLETE ends the sweep: everything is under the new generation, and no old
one is left. -/
def Obligations.KeysWeightsAndGenerations : Prop :=
  (∀ (s : State) (h p n k : Nat) (c : Cmd) (data o : Bytes), p = c.part → n = c.field 24 4 → Starts s h 0x82 c →
      firstFail (rsvBytes c [(28, 36)]) = none → s.dev.carnelian = true → HostObject c n → o = objectOf data n →
      (n ≠ 0 → n ≠ 1664 → fieldOf o 1 1 ≠ 1 →
        exec (.keyImport h data) s = .next (s.onDev (fun d => d.failAt h stBounds 24))) ∧
      (n = 1664 → fieldOf o 1 1 ≠ 1 → ∀ f, firstFail (importChecks o) = some f →
        exec (.keyImport h data) s = .next (s.onDev (fun d => d.failObj h f.1 f.2))) ∧
      (n = 1664 → firstFail (importChecks o) = none →
        ((s.dev.part p).unwrap p o = none → exec (.keyImport h data) s = .next (s.onDev (fun d => d.failObj h stAuth 4))) ∧
        (∀ key, (s.dev.part p).unwrap p o = some key → (s.dev.part p).freeKey = none →
          exec (.keyImport h data) s = .next (s.onDev (fun d => d.complete h stCount 0 0))) ∧
        (∀ key i, (s.dev.part p).unwrap p o = some key → (s.dev.part p).freeKey = some i → ∀ reuse,
          reuse = (match Tab.find (s.dev.part p).keys i with
            | some k => (k.reuse + 1) % 2 ^ 24
            | none => 0) →
          exec (.keyImport h data) s = .next (s.onDev (fun d => (d.modPart p (fun x => { x with
            keys := Tab.put x.keys i ⟨key, bitOf (fieldOf o 2 1) 0, reuse, true⟩ })).complete h stOK (i + 256 * reuse) 0)))) ∧
      (16 ≤ n → n ≤ 1664 → k = fieldOf o 4 4 → fieldOf o 0 1 = 1 → fieldOf o 1 1 = 1 → fieldOf o 2 1 < 2 → fieldOf o 3 1 = 0 →
        (∀ i, i < n - 16 → fieldOf o (16 + i) 1 = 0) → ((s.dev.part p).keyOf k).isSome = true →
        ((s.dev.part p).regions.any (fun e => e.2.key == some k) = true →
          exec (.keyImportErase h data) s = .next (s.onDev (fun d => d.failObj h stAuth 4))) ∧
        ((s.dev.part p).regions.any (fun e => e.2.key == some k) = false → ∃ d : Dev,
          exec (.keyImportErase h data) s = .next (s.onDev (fun _ => d.complete h stOK 0 0)) ∧ (d.part p).keyOf k = none))) ∧
  (∀ (s : State) (h p n i : Nat) (c : Cmd) (data text : Bytes) (r : MemRegion), p = c.part → n = c.field 24 8 → i = c.field 32 4 →
      (Starts s h 0x30 c → Tab.find (s.dev.part p).regions i = some r → firstFail (rsvBytes c [(52, 12)]) = none → 16 ≤ n →
        n ≤ r.bytes + 16 → ((s.dev.part p).keyOf (c.field 36 4)).isSome = true → s.dev.carnelian = true → HostObject c n →
        exec (.weightsBind h data) s = .next (s.onDev (fun d =>
          d.setCmd h { c with phase := .running, data := objectOf data n }))) ∧
      (s.plat.up = true → s.dev.cmd h = some c → c.op = 0x30 → c.phase = .running →
        (Tab.find (s.dev.part p).regions i = none →
          exec (.weightsBindComplete h) s = .next (s.onDev (fun d => d.failAt h stInvalid 32))) ∧
        (Tab.find (s.dev.part p).regions i = some r → (s.dev.part p).decrypt c = none → exec (.weightsBindComplete h) s =
          .next (s.onDev (fun d => (d.zeroExtent p r.addr r.bytes).complete h stAuth 0 0))) ∧
        (Tab.find (s.dev.part p).regions i = some r → (s.dev.part p).decrypt c = some text → ∀ (b : Bytes) (n : Nat) (cold : List Nat),
          b = text.take r.bytes → n = b.length → cold = (s.dev.part p).coldPages r.addr r.bytes →
          (cold ≠ [] → ∀ die, die = (s.dev.part p).dieList.headD 0 → exec (.weightsBindComplete h) s = .next (s.onDev (fun d =>
            cold.foldl (fun (d : Dev) g => d.startMigrOn p g die true true (fun x => x.pickFrame die)) d))) ∧
          (cold = [] → n ≠ 0 → s.dev.ioWay p r.addr n = 2 → exec (.weightsBindComplete h) s =
            .next (s.onDev (fun d => (d.zeroExtent p r.addr r.bytes).complete h stDeviceFault 0 0))) ∧
          (cold = [] → (n = 0 ∨ s.dev.ioWay p r.addr n = 0 ∧ s.dev.extentHeld p r.addr n = false ∧ s.dev.staleExtent p r.addr n = false) →
            ∀ t, t = ((s.dev.engineWrite p r.addr b).modPart p (fun x => { x with
              regions := Tab.put x.regions i { r with key := some (c.field 36 4) } })).complete h stOK 0 0 →
            exec (.weightsBindComplete h) s = .next (if s.dev.affords t then s.onDev (fun _ => t) else s))))) ∧
  (∀ (s : State) (h p : Nat) (c : Cmd), p = c.part →
      (Starts s h 0x83 c → firstFail (rsvBytes c [(16, 48)]) = none → s.dev.carnelian = true →
        ((s.dev.part p).oldGen.isSome = true → exec (.keyRotate h) s = .next (s.onDev (fun d => d.complete h stBusy 0 0))) ∧
        ((s.dev.part p).oldGen = none → exec (.keyRotate h) s = .next (s.onDev (fun d =>
          (d.modPart p (fun x => { x with staged := x.staged ++ [.rotate h c.window] })).running h)))) ∧
      (PartUp s p → (s.dev.part p).oldGen = none → exec (.sweepComplete p) s = .next s) ∧
      (PartUp s p → (s.dev.part p).oldGen.isSome = true → (∀ t, (s.dev.stack t).conv = []) →
        ∃ t : State, exec (.sweepComplete p) s = .next t ∧ ((t.dev.part p).oldGen = none ∧
          (∀ e ∈ (t.dev.part p).sectors, e.2.gen = (s.dev.part p).gen) ∧
          (∀ e ∈ (t.dev.part p).storeSectors, e.2.gen = (s.dev.part p).gen) ∧ (t.dev.part p).gen = (s.dev.part p).gen)))

/-- DEBUG_UNLOCK_TOKEN: a token is recorded only over a secure session of the management controller, with a key and a
signature that check, and for this chip, this boot and the next epoch; any other answers ERROR and records nothing.
The places of the token's fields are the model's (PRESUMED, log 96). FW_UPDATE STAGE with its image in host memory:
an image whose signature and security version check is staged, another is AUTH; during a commit it is BUSY. COMMIT
needs a staged image and runs until the store is written. FW_COMMIT_COMPLETE: a read-back that verifies puts the
staged image in the store and raises the security version to its own, never lower; one that does not leaves no
image. Without a commit nothing changes. PLDM_FIRMWARE_UPDATE: on a running module an accepted image is staged and
its commit begins; in boot ROM recovery the image is written and its verification begins; an image above 32 MiB
changes nothing. The boot ROM's recovery: a chunk write takes the buffer and its number, and lands at its place; an
abort discards what was written; a whole image that verifies is stored and resets the module, one that does not is
AUTH. Only the admin function acts, and only in recovery. -/
def Obligations.FirmwareIsUpdatedAndRecovered : Prop :=
  (∀ (s : State) (body key sig : Bytes), s.plat.up = true →
      ((s.dev.carnelian = true ∧ s.dev.mctp.any (·.secure) = true ∧ s.plat.fuseEpoch < 32 ∧
        Config.sha3 key = Config.fuseDebugAuth ∧ Config.mlDsaVerify key body sig = true ∧ body.length = 64 ∧ fieldOf body 0 1 = 1 ∧
        fieldOf body 8 8 = Config.serial ∧ (body.drop 16).take 32 = natLE 32 s.plat.challenge ∧
        fieldOf body 52 4 = s.plat.fuseEpoch + 1) → exec (.debugUnlockToken body key sig) s =
          .next { s with
            plat := { s.plat with debugToken := some (fieldOf body 48 1 % 16) }
            dev := (s.dev.touchSession .mctp).answer .accepted }) ∧
      ((s.dev.carnelian = false ∨ s.dev.mctp.any (·.secure) = false ∨ 32 ≤ s.plat.fuseEpoch ∨
        Config.mlDsaVerify key body sig = false ∨ fieldOf body 52 4 ≠ s.plat.fuseEpoch + 1) →
        exec (.debugUnlockToken body key sig) s = .next (s.onDev (fun d => d.answer .error)))) ∧
  (∀ (s : State) (h n : Nat) (c : Cmd) (data o : Bytes), n = c.field 24 4 → Starts s h 0x92 c → o = objectOf data n →
      (c.field 28 1 = 0 → firstFail ([(24, stBounds, decide (maxImage < n)), (28, stInvalid, false)] ++ rsvBytes c [(29, 35)]) = none →
        n ≠ 0 → (s.plat.committing.isSome = true → exec (.fwUpdateStage h data) s = .next (s.onDev (fun d =>
          d.complete h stBusy 0 0))) ∧ (HostObject c n → s.plat.committing = none → ∀ d, d = s.dev.setCmd h { c with phase := .running, data := o } →
        (s.plat.accepts o = true → exec (.fwUpdateStage h data) s = .next { s with
          plat := { s.plat with fwStaged := some (imageOf o) }
          dev := d.complete h stOK 0 0 }) ∧
        (s.plat.accepts o = false → exec (.fwUpdateStage h data) s = .next { s with dev := d.complete h stAuth 0 0 }))) ∧
      (c.field 28 1 = 1 → firstFail (rsvBytes c [(29, 35)]) = none →
        (s.plat.fwStaged = none → exec (.fwUpdateCommit h) s = .next (s.onDev (fun d => d.failAt h stInvalid 28))) ∧
        (s.plat.fwStaged.isSome = true → s.plat.committing.isSome = true →
          exec (.fwUpdateCommit h) s = .next (s.onDev (fun d => d.complete h stBusy 0 0))) ∧
        (s.plat.fwStaged.isSome = true → s.plat.committing = none → exec (.fwUpdateCommit h) s = .next { s with
          plat := { s.plat with committing := some (some h) }
          dev := s.dev.running h }))) ∧
  (∀ (s : State) (owner : Option Nat) (image : FwImage), s.plat.up = true →
      (s.plat.committing = none → ∀ ok, exec (.fwCommitComplete ok) s = .next s) ∧
      (s.plat.committing = some owner → s.plat.fwStaged = some image →
        exec (.fwCommitComplete true) s = .next { s with
          plat := { s.plat with
            committing := none
            fwStored := some image
            secVersion := max s.plat.secVersion image.version }
          dev := s.dev.commitDone owner stOK } ∧
        exec (.fwCommitComplete false) s = .next { s with
          plat := { s.plat with committing := none, fwStored := none }
          dev := s.dev.commitDone owner stDeviceFault })) ∧
  (∀ (s : State) (image : Bytes),
      (33554432 < image.length → exec (.pldmFirmwareUpdate image) s = .next s) ∧
      (image.length ≤ 33554432 → s.plat.up = true →
        (s.plat.committing = none → s.plat.accepts image = true → exec (.pldmFirmwareUpdate image) s = .next { s with
          plat := { s.plat with fwStaged := some (imageOf image), committing := some none } }) ∧
        ((s.plat.committing.isSome = true ∨ s.plat.accepts image = false) → exec (.pldmFirmwareUpdate image) s = .next s)) ∧
      (image.length ≤ 33554432 → s.plat.up = false → s.plat.romReady = true → exec (.pldmFirmwareUpdate image) s = .next { s with
        plat := { s.plat with rom := { s.plat.rom with
          image := Mem.write [] 0 image
          chunks := ceilDiv image.length 65536
          busy := 2 } } })) ∧
  (∀ (s : State) (f chunk : Nat), f < 260 →
      ((f ≠ adminFn ∨ s.plat.romReady = false) → exec (.romRecWrite f chunk) s = .next s ∧ exec (.romRecFinish f) s = .next s ∧
        exec (.romRecAbort f) s = .next s) ∧
      (f = adminFn → s.plat.romReady = true →
        exec (.romRecWrite f chunk) s =
          .next { s with plat := { s.plat with rom := { s.plat.rom with chunk := chunk % 512, busy := 1 } } } ∧
        exec (.romRecFinish f) s = .next { s with plat := { s.plat with rom := { s.plat.rom with busy := 2 } } } ∧
        exec (.romRecAbort f) s = .next { s with plat := { s.plat with rom := { s.plat.rom with chunks := 0, image := [] } } }) ∧
      (s.plat.boot ≠ .recovery → ∀ ok, exec (.romRecActionDone ok) s = .next s) ∧
      (s.plat.boot = .recovery → s.plat.powered = true → s.plat.rom.busy = 1 →
        exec (.romRecActionDone true) s = .next { s with plat := { s.plat with rom := { s.plat.rom with
          busy := 0
          result := 0x00
          chunks := s.plat.rom.chunks + 1
          image := Mem.write s.plat.rom.image (s.plat.rom.chunk * 65536) (Mem.read s.plat.rom.buffer 0 65536) } } } ∧
        exec (.romRecActionDone false) s =
          .next { s with plat := { s.plat with rom := { s.plat.rom with busy := 0, result := 0x10 } } }) ∧
      (s.plat.boot = .recovery → s.plat.powered = true → s.plat.rom.busy = 2 → s.plat.accepts s.plat.rom.bytes = false →
        exec (.romRecActionDone true) s =
          .next { s with plat := { s.plat with rom := { s.plat.rom with busy := 0, result := 0x09 } } }) ∧
      (s.plat.boot = .recovery → s.plat.powered = true → s.plat.rom.busy = 2 → exec (.romRecActionDone false) s =
        .next { s with plat := { s.plat with rom := { s.plat.rom with busy := 0, result := 0x10 } } }) ∧
      (s.plat.boot = .recovery → s.plat.powered = true → s.plat.rom.busy = 2 → s.plat.accepts s.plat.rom.bytes = true →
        s.plat.committing = none → ∃ t : State, exec (.romRecActionDone true) s = .next t ∧ (t.plat.boot = .stage 0 ∧
          t.plat.fwStored = some (imageOf s.plat.rom.bytes) ∧
          t.plat.secVersion = max s.plat.secVersion (imageOf s.plat.rom.bytes).version)))

/-! ## Handles, queue pairs, reads -/

/-- COMMAND_FETCH of a ring in host memory: with room for a handle and two completion entries the command at the head
takes the lowest free slot and is fetched, its ACK is written, the head and the round robin move on; without room
for a handle, and where it is another queue's turn, nothing is fetched. A ring in device memory is read through the
stack and over the I/O-die link of its die: outside the volatile allocation the command is PARTITION, over a link
that is down or from a poisoned atom DEVICE_FAULT, over one that retrains it waits. A command that completes, and
that no ABORT waits for: its slot is free under the next generation, other commands are as they were; an open
queue's completion ring gets the DONE with the current phase, a closed one counts the loss. -/
def Obligations.HandlesLiveFromFetchToDone : Prop :=
  (∀ (s : State) (f q slot : Nat) (cmd b : Bytes) (x : Qp) (own : Option Nat), s.plat.up = true → f < fnCount →
      x = (s.dev.fn f).qp q → own = s.dev.ownerOfFn f → b = cmd.take 64 ++ List.replicate (64 - cmd.length) 0 →
      ((s.dev.fn f).attached = true → x.fetchable = true → s.plat.lowPower = false → (s.dev.handleRoom own = false ∨ s.dev.fetchTurnOf own f q = false) →
        exec (.commandFetch f q cmd) s = .next s) ∧
      ((s.dev.fn f).attached = true → x.fetchable = true → s.plat.lowPower = false → s.dev.handleRoom own = true →
        s.dev.fetchTurnOf own f q = true → x.sqInDev = false → x.cqInDev = false → firstGap (Tab.keys s.dev.host.live) 0 maxHandles = some slot →
        headerFail (s.dev.part (own.getD 0)) own f b = none →
        ∃ (t : State) (c : Cmd), exec (.commandFetch f q cmd) s = .next t ∧ t.dev.cmd slot = some c ∧
          (c.bytes = b ∧ c.phase = .fetched ∧ c.fn = f ∧ c.q = q ∧ c.part = own.getD 0 ∧ c.owned = own.isSome ∧
            c.gen = s.dev.host.gen slot ∧ c.order = s.dev.host.order ∧ t.dev.host.order = s.dev.host.order + 1 ∧
            ((t.dev.fn f).qp q).sqHead = (x.sqHead + 1) % x.sqSize ∧ ((t.dev.fn f).qp q).held = x.held + 1 ∧
            t.dev.host.mem = Mem.write s.dev.host.mem (hostPlace f (x.cqBase + 32 * x.cqWrite))
              (BitVec.ofNat 8 (1 + (if x.phase then 0x80 else 0)) ::
                (ackEntry ((x.sqHead + 1) % x.sqSize) (handleOf slot (s.dev.host.gen slot) (own.getD 0)) (fieldOf b 8 8)).drop 1) ∧
            (∀ p e, own = some p → s.dev.nextFetch p = some e →
              (t.dev.part p).fetchTurn = queueKey f q ∧ (t.dev.part p).fetchLeft = e.2) ∧
            (∀ h, h ≠ slot → t.dev.cmd h = s.dev.cmd h))) ∧
      ((s.dev.fn f).attached = true → x.fetchable = true → s.plat.lowPower = false → s.dev.handleRoom own = true →
        s.dev.fetchTurnOf own f q = true → x.sqInDev = true → ∀ p a, p = own.getD 0 → a = x.sqBase + 64 * x.sqHead →
        ((s.dev.part p).extent a 64 ≠ .volatile →
          exec (.commandFetch f q cmd) s = .next (s.onDev (fun d => d.fetchLost f q stPartition))) ∧
        ((s.dev.part p).extent a 64 = .volatile →
          (s.dev.ioWay p a 64 = 1 ∨ s.dev.ioWay p a 64 = 0 ∧ s.dev.extentHeld p a 64 = true → exec (.commandFetch f q cmd) s = .next s) ∧
          (2 ≤ s.dev.ioWay p a 64 → exec (.commandFetch f q cmd) s = .next (s.onDev (fun d => d.fetchLost f q stDeviceFault))) ∧
          (s.dev.ioWay p a 64 = 0 → s.dev.extentHeld p a 64 = false → ∀ r e, r = s.dev.devRead p a 64 0 → e = r.2.ioCarried p a 64 true →
            ∀ t, t = (if poisoned r.1 then e.fetchLost f q stDeviceFault else e.fetch f q (plain r.1)) →
            exec (.commandFetch f q cmd) s = .next (if s.dev.affords t then s.onDev (fun _ => t) else s)))) ∧
      (((s.dev.fn f).attached = false ∨ x.fetchable = false ∨ s.plat.lowPower = true) →
        exec (.commandFetch f q cmd) s = .next s)) ∧
  (∀ (d e : Dev) (h status r0 r1 : Nat) (c : Cmd) (x : Qp), d.cmd h = some c → d.aborters h c.gen = [] →
      x = (d.fn c.fn).qp c.q → e = d.complete h status r0 r1 →
      (e.cmd h = none ∧ e.host.gen h = nextGen c.gen ∧ (∀ j, j ≠ h → e.cmd j = d.cmd j)) ∧
      (c.lost = false → x.open_ = true → x.cqInDev = false →
        e.host.mem = Mem.write d.host.mem (hostPlace c.fn (x.cqBase + 32 * x.cqWrite))
          (BitVec.ofNat 8 (2 + (if x.phase then 0x80 else 0)) ::
            (doneEntry false status 0 0 (handleOf h c.gen c.part) r0 r1).drop 1) ∧
        ((e.fn c.fn).qp c.q).cqWrite = (x.cqWrite + 1) % x.cqSize ∧
        ((e.fn c.fn).qp c.q).phase = (if (x.cqWrite + 1) % x.cqSize = 0 then !x.phase else x.phase)) ∧
      ((c.lost = true ∨ x.open_ = false) → e.host.mem = d.host.mem ∧ (e.fn c.fn).dropped = (d.fn c.fn).dropped + 1 ∧
        (e.fn c.fn).lastHandle = handleOf h c.gen c.part))

/-- NOP completes at once. ABORT names its target's whole handle: another partition's is PARTITION, one that is not
live under that generation STALE; else the ABORT waits for its target's DONE, and the target is ended. LEDGER_READ
and TELEMETRY_READ into host memory: the counter block and as many closed records as fit, which are freed; the
header and as many whole records as fit. An area too small for the fixed part is BOUNDS with its size. A read of
the class of counters first takes in the time its stacks have been throttled. COMMAND_TIMEOUT completes a command
with TIMEOUT where no recovery runs for it, else defers it once to the latest end; TIMEOUT_DEFERRAL_END completes
it; a FW_UPDATE that ends so leaves no staged image; LATE_COMPLETION counts the work of an advanced generation
once. Without a deadline, a deferral or such work nothing changes. -/
def Obligations.HandleCommandsRun : Prop :=
  (∀ (s : State) (h t : Nat) (c : Cmd),
      (Starts s h 0x00 c → firstFail (rsvBytes c [(16, 48)]) = none →
        exec (.nop h) s = .next (s.onDev (fun d => d.complete h stOK 0 0))) ∧
      (Starts s h 0x00 c → ∀ f, firstFail (rsvBytes c [(16, 48)]) = some f →
        exec (.nop h) s = .next (s.onDev (fun d => d.failAt h f.1 f.2))) ∧
      (Starts s h 0x01 c → firstFail (rsvBytes c [(24, 40)]) = none → t = c.field 16 8 →
        (bitsOf t 45 44 ≠ c.part → exec (.abort h) s = .next (s.onDev (fun d => d.failAt h stPartition 16))) ∧
        (bitsOf t 45 44 = c.part → s.dev.cmd (t % 2 ^ 20) = none →
          exec (.abort h) s = .next (s.onDev (fun d => d.failAt h stStale 16))) ∧
        (bitsOf t 45 44 = c.part → ∀ y, s.dev.cmd (t % 2 ^ 20) = some y →
          ((handleOf (t % 2 ^ 20) y.gen y.part ≠ t ∨ y.owned = false) → exec (.abort h) s = .next (s.onDev (fun d => d.failAt h stStale 16))) ∧
          (handleOf (t % 2 ^ 20) y.gen y.part = t → y.owned = true → exec (.abort h) s = .next (s.onDev (fun d =>
            (d.modCmd h (fun c => { c with phase := .abortOf (t % 2 ^ 20) y.gen })).abortCmd (t % 2 ^ 20) y)))))) ∧
  (∀ (s : State) (h p n : Nat) (c : Cmd), p = c.part → n = c.field 24 4 → HostOut c 16 n →
      (Starts s h 0x90 c → firstFail ([(24, stAlign, n % 64 != 0)] ++ rsvBytes c [(28, 36)]) = none →
        ∀ (l : Ledger) (got : List LedgerRec), l = (s.dev.part p).ledger → got = l.returned ((n - 128) / 64) →
        (n < 128 → exec (.ledgerRead h) s = .next (s.onDev (fun d => d.complete h stBounds 128 (locus 0 0 24)))) ∧
        (128 ≤ n → exec (.ledgerRead h) s = .next (s.onDev (fun d =>
          ((d.hostWrite c.fn (c.field 16 8) (l.block ++ got.flatMap LedgerRec.bytes)).modPart p (fun x => { x with
            ledger := x.ledger.freed got.length })).complete h stOK got.length
              ((l.recs.filter (·.window.isSome)).length - got.length))))) ∧
      (Starts s h 0x91 c → ∀ cls sel, cls = c.field 28 1 → sel = c.field 30 2 → cls ≤ 7 → c.field 29 1 = 0 →
        (s.dev.part p).badSelector cls sel = false → (cls = 1 → sel = 1 → c.fn = adminFn) →
        firstFail (rsvBytes c [(32, 32)]) = none →
        (n = 0 → exec (.telemetryRead h) s = .next (s.onDev (fun d => d.complete h stOK 0 0))) ∧
        (0 < n → n < 32 → exec (.telemetryRead h) s = .next (s.onDev (fun d => d.complete h stBounds 32 (locus 0 0 24)))) ∧
        (32 ≤ n → ∀ (e : Dev) (r : Nat × List Bytes) (got : List Bytes) (bs : Bytes),
          e = (if cls = 6 then (s.dev.part p).stackList.foldl (fun (d : Dev) t => d.countThrottle t) s.dev else s.dev) →
          r = e.telemetry p cls sel →
          got = r.2.take ((n - 32) / r.1) →
          bs = telemetryHeader cls r.1 got.length (r.2.length - got.length)
            (if cls = 1 ∧ sel = 1 then e.now else e.tc p) ++ got.flatMap id →
          exec (.telemetryRead h) s = .next (s.onDev (fun _ =>
            ((e.hostWrite c.fn (c.field 16 8) bs).freeEvents p cls sel got.length).complete h stOK bs.length 0))))) ∧
  (∀ (s : State) (h t : Nat) (c : Cmd), s.plat.up = true →
      (s.dev.cmd h = none → exec (.commandTimeout h) s = .next s ∧ exec (.timeoutDeferralEnd h) s = .next s) ∧
      (s.dev.cmd h = some c → c.deadline = none → exec (.commandTimeout h) s = .next s) ∧
      (s.dev.cmd h = some c → c.deferred = none → exec (.timeoutDeferralEnd h) s = .next s) ∧
      (s.dev.cmd h = some c → c.deadline = some t → c.untimed = false → ∀ r, r = (s.dev.reach t).recoveryEnds h c →
        (r.1 = [] → exec (.commandTimeout h) s = .next (s.dropStaged (s.onDev (fun _ => r.2.timeOut h c 0)) h)) ∧
        (r.1 ≠ [] → ∃ u : State, exec (.commandTimeout h) s = .next u ∧
          (u.dev.cmd h = some { c with deadline := none, deferred := some (r.1.foldl max 0) }))) ∧
      (s.dev.cmd h = some c → c.deferred = some t → exec (.timeoutDeferralEnd h) s = .next (s.dropStaged (s.onDev (fun d =>
        (d.reach t).timeOut h c (t - (c.fetched + ((timeoutMs c.bytes).getD 0) * 1000000)))) h)) ∧
      (s.dev.cmd h = some c → ∀ u : State, (c.op ≠ 0x92 → s.dropStaged u h = u) ∧
        (c.op = 0x92 → u.dev.cmd h = none → (s.dropStaged u h).plat.fwStaged = none)) ∧
      (Tab.find s.dev.host.late h = none → exec (.lateCompletion h) s = .next s) ∧
      (∀ p, Tab.find s.dev.host.late h = some p → ∃ u : State, exec (.lateCompletion h) s = .next u ∧
        (Tab.find u.dev.host.late h = none ∧
          Tab.getD (u.dev.part p).counters 0 0 = satAdd (Tab.getD (s.dev.part p).counters 0 0) 1)))

/-- QP_ENABLE, QP_DISABLE, QP_DRAIN_COMPLETE and QP_REARM: a valid configuration of a DISABLED queue makes it ENABLED
with empty rings and phase 1, an invalid one sets cfg_error; a queue with live handles drains first; re-arm takes a
QUIESCED queue of an attached function in D0. Doorbells take an index below the ring's size; a larger one is EVENT
0x0007 and changes no index; a queue that is not ENABLED, or IDE shuts, ignores them, and a completion index beyond
the entries written moves nothing. A fetch that times out twice stalls its queue until the next doorbell. One MSI-X
message covers the entries that ask for one, and a masked vector sends none. -/
def Obligations.QueuePairsAreServed : Prop :=
  (∀ (s : State) (f q v : Nat) (x : Qp), QpUp s f q → x = (s.dev.fn f).qp q →
      (x.state = 0 → bitOf v 31 = true → (x.withCfg v).valid = true → ∃ t : State, exec (.qpEnable f q v) s = .next t ∧
        ((t.dev.fn f).qp q = (x.withCfg v).fresh ∧ ((t.dev.fn f).qp q).sqHead = 0 ∧ ((t.dev.fn f).qp q).cqWrite = 0 ∧
          ((t.dev.fn f).qp q).phase = true ∧ ((t.dev.fn f).qp q).state = 1)) ∧
      (x.state = 0 → bitOf v 31 = true → (x.withCfg v).valid = false → ∃ t : State, exec (.qpEnable f q v) s = .next t ∧
        ((t.dev.fn f).qp q = { x.withCfg v with enable := false, cfgError := true })) ∧
      (x.state ≠ 0 → ∃ t : State, exec (.qpEnable f q v) s = .next t ∧ ((t.dev.fn f).qp q = x)) ∧
      (x.state ≠ 0 → bitOf v 31 = false → ∃ t : State, exec (.qpDisable f q v) s = .next t ∧
        ((t.dev.fn f).qp q = { x with enable := false, state := if s.dev.queueLive f q then 3 else 0 })) ∧
      (x.state = 0 → bitOf v 31 = false → ∃ t : State, exec (.qpDisable f q v) s = .next t ∧
        ((t.dev.fn f).qp q = { x.withCfg v with enable := false })) ∧
      (x.state = 3 → s.dev.queueLive f q = false → ∃ t : State, exec (.qpDrainComplete f q) s = .next t ∧
        ((t.dev.fn f).qp q = { x with state := 0 })) ∧
      ((x.state ≠ 3 ∨ s.dev.queueLive f q = true) → exec (.qpDrainComplete f q) s = .next s) ∧
      (x.state = 2 → bitOf v 0 = true → (s.dev.fn f).attached = true → (s.dev.port (portOf f)).d3 = false →
        ∃ t : State, exec (.qpRearm f q v) s = .next t ∧ ((t.dev.fn f).qp q = x.fresh)) ∧
      ((x.state ≠ 2 ∨ bitOf v 0 = false ∨ (s.dev.fn f).attached = false ∨ (s.dev.port (portOf f)).d3 = true) →
        exec (.qpRearm f q v) s = .next s)) ∧
  (∀ (s : State) (f q v : Nat) (x : Qp), QpUp s f q → x = (s.dev.fn f).qp q →
      (x.state = 1 → s.dev.ideShut f = false → v % 2 ^ 16 < x.sqSize → ∃ t : State, exec (.qpSqDoorbell f q v) s = .next t ∧
        ((t.dev.fn f).qp q = { x with sqTail := v % 2 ^ 16, stalled := false })) ∧
      (x.state = 1 → s.dev.ideShut f = false → x.sqSize ≤ v % 2 ^ 16 →
        exec (.qpSqDoorbell f q v) s = .next (s.onDev (fun d => d.badDoorbell f q v))) ∧
      ((x.state ≠ 1 ∨ s.dev.ideShut f = true) → exec (.qpSqDoorbell f q v) s = .next s) ∧
      (x.open_ = true → s.dev.ideShut f = false → v % 2 ^ 16 < x.cqSize →
        (v % 2 ^ 16 + x.cqSize - x.cqHead) % x.cqSize ≤ x.cqUsed → ∃ t : State, exec (.qpCqDoorbell f q v) s = .next t ∧
        ((t.dev.fn f).qp q = { x with cqHead := v % 2 ^ 16 })) ∧
      (x.open_ = true → s.dev.ideShut f = false → x.cqSize ≤ v % 2 ^ 16 →
        exec (.qpCqDoorbell f q v) s = .next (s.onDev (fun d => d.badDoorbell f q v))) ∧
      ((x.open_ = false ∨ s.dev.ideShut f = true) → exec (.qpCqDoorbell f q v) s = .next s) ∧
      (x.open_ = true → s.dev.ideShut f = false → v % 2 ^ 16 < x.cqSize →
        x.cqUsed < (v % 2 ^ 16 + x.cqSize - x.cqHead) % x.cqSize → exec (.qpCqDoorbell f q v) s = .next s) ∧
      (x.state = 1 → x.sqInDev = false → x.stalled = false → x.sqHead ≠ x.sqTail →
        exec (.requesterCompletionTimeout f q) s = .next (s.onDev (fun d =>
          ((d.modQp f q (fun x => { x with stalled := true })).fnEvent f { EventRec.blank 0x0006 2 9 with
            unit := portOf f, d0 := q }).queueEvent f 0x0006 q 0))) ∧
      ((x.state ≠ 1 ∨ x.sqInDev = true ∨ x.stalled = true ∨ x.sqHead = x.sqTail) → exec (.requesterCompletionTimeout f q) s = .next s) ∧
      (x.uncovered ≠ 0 → bitOf ((s.dev.fn f).msixDword (4 * x.vector + 3)) 0 = false →
        ∃ t : State, exec (.msixMessageSend f q) s = .next t ∧ (((t.dev.fn f).qp q).uncovered = 0 ∧
          Tab.getD (t.dev.fn f).sent x.vector 0 = Tab.getD (s.dev.fn f).sent x.vector 0 + 1)) ∧
      ((x.uncovered = 0 ∨ bitOf ((s.dev.fn f).msixDword (4 * x.vector + 3)) 0 = true) →
        exec (.msixMessageSend f q) s = .next s))

/-! ## The host link and its registers -/

/-- Register writes that have a row: a BAR2 window base takes a multiple of its size and is ignored else; HOST_PORT_CFG
and BERYL_THERM_CFG are the admin function's and the management controller's, take legal values only, and the port
code is refused during a firmware commit. The low read of a 64-bit register latches its high half. REGISTER_WRITE:
a dword write reaches the register at its offset; a 1 clears a W1C bit and a 0 leaves it; a DISABLED queue takes
its ring bases, any other keeps them; in ROM recovery the admin function fills the image buffer. BAR2_REQUEST and
BAR2_RESIZE: beyond the window or empty nothing happens; of a function that may not reach memory a read is answered
with Unsupported Request; an atomic, an extent outside the partition or in a weight region is counted and refused,
a read with Completer Abort; anything else is served. A resize takes 256 MiB to 64 GiB and returns the window to
its reset value. -/
def Obligations.RegistersAndWindowsAreChecked : Prop :=
  (∀ (s : State) (f v : Nat), FnUp s f →
      (v % 2 ^ 48 % 2 ^ (s.dev.fn f).bar2Log2 = 0 → ∃ t : State, exec (.hostBar2WindowWrite f v) s = .next t ∧
        (t.dev.fn f = { s.dev.fn f with bar2Base := v % 2 ^ 48 })) ∧
      (v % 2 ^ 48 % 2 ^ (s.dev.fn f).bar2Log2 ≠ 0 → ∃ t : State, exec (.hostBar2WindowWrite f v) s = .next t ∧
        (t.dev.fn f = s.dev.fn f)) ∧
      (f ≠ adminFn → exec (.hostPortCfgWrite f v) s = .next s ∧ exec (.berylThermCfgWrite f v) s = .next s) ∧
      (f = adminFn → bitOf v 8 = false → v % 4 ≠ s.plat.portNext →
        (s.plat.committing = none →
          exec (.hostPortCfgWrite f v) s = .next { s with plat := { s.plat with portNext := v % 4 } }) ∧
        (s.plat.committing.isSome = true → ∃ t : State, exec (.hostPortCfgWrite f v) s = .next t ∧
          ((t.dev.fn f).writeRefused = true ∧ t.plat = s.plat))) ∧
      (f = adminFn → bitOf v 8 = false → v % 4 = s.plat.portNext → exec (.hostPortCfgWrite f v) s = .next s) ∧
      (f = adminFn → bitOf v 8 = true → v % 4 = s.plat.portNext → ∃ t : State, exec (.hostPortCfgWrite f v) s = .next t ∧
        ((t.dev.fn f).writeRefused = false ∧ t.plat = s.plat)) ∧
      (∀ x y, x = bitsOf v 15 8 → y = bitsOf v 23 16 →
        ((85 ≤ x ∧ x ≤ 100 ∧ 2 ≤ y ∧ y ≤ 10) →
          (f = adminFn → exec (.berylThermCfgWrite f v) s =
            .next { s with plat := { s.plat with throttleC := x, hysteresisC := y } }) ∧
          exec (.pldmThermCfgWrite v) s = .next { s with plat := { s.plat with throttleC := x, hysteresisC := y } }) ∧
        ((x < 85 ∨ 100 < x ∨ y < 2 ∨ 10 < y) →
          exec (.berylThermCfgWrite f v) s = .next s ∧ exec (.pldmThermCfgWrite v) s = .next s)) ∧
      (s.plat.committing = none → v < 4 →
        exec (.pldmPortConfigWrite v) s = .next { s with plat := { s.plat with portNext := v } }) ∧
      ((s.plat.committing.isSome = true ∨ 4 ≤ v) → exec (.pldmPortConfigWrite v) s = .next s) ∧
      (∀ off w, s.dev.reg64 f off = some w → ∃ t : State, exec (.tickRegisterLowRead f off) s = .next t ∧
        (Tab.getD (t.dev.fn f).latches off 0 = w / 2 ^ 32)) ∧
      (∀ off, s.dev.reg64 f off = none → exec (.tickRegisterLowRead f off) s = .next s)) ∧
  (∀ (s : State) (f off v : Nat), f < fnCount →
      (FnUp s f → off % 4 = 0 →
        exec (.registerWrite f off v) s = .next (s.onDev (fun d => d.writeReg f off (v % 2 ^ 32)))) ∧
      (FnUp s f → off % 4 ≠ 0 → exec (.registerWrite f off v) s = .next s) ∧
      (∀ (d : Dev) (p : Nat), d.ownerOfFn f = some p →
        ((d.writeReg f 0x120 v).part p).tick.faultStop = ((d.part p).tick.faultStop && !bitOf v 3) ∧
        ((d.writeReg f 0x120 v).part p).tick.overrunSeen = ((d.part p).tick.overrunSeen && !bitOf v 2)) ∧
      (∀ d : Dev, (d.writeReg f 0x20 v).tier.poisonSeen = (d.tier.poisonSeen && !bitOf v 2)) ∧
      (∀ x : Qp, (x.state ≠ 0 → x.writeBase off v = x) ∧
        (x.state = 0 → (x.writeBase 0 v).sqBase % 2 ^ 32 = v / 4096 * 4096 % 2 ^ 32 ∧ (x.writeBase 0 v).sqInDev = bitOf v 0)) ∧
      (s.plat.boot = .recovery → s.plat.powered = true → f = adminFn → 0x810000 ≤ off → off < 0x820000 →
        ∃ t : State, exec (.registerWrite f off v) s = .next t ∧
          (Mem.nat t.plat.rom.buffer ((off - 0x810000) / 4 * 4) 4 = v % 2 ^ 32 ∧ t.dev = s.dev)) ∧
      (s.plat.serves = true → s.barRead f 0x100 = (((s.dev.ownerOfFn f).map s.dev.tc).getD 0) % 2 ^ 32 ∧
        s.barRead f 0x104 = Tab.getD (s.dev.fn f).latches 0x100 0 ∧ s.barRead f 0x18 = s.dev.portStatus f ∧
        s.barRead f 0x20 = s.dev.tier.status ∧ (s.dev.qpCount f ≤ 65536 → 0x408000 ≤ off → off < 0x408100 →
          s.barRead f off = (s.dev.fn f).pendingDword ((off - 0x408000) / 4))) ∧
      (s.plat.boot = .stage 3 → off ≠ 0 → s.barRead f off = 0)) ∧
  (∀ (s : State) (f off p a : Nat) (req : Bar2Req), FnUp s f → a = (s.dev.fn f).bar2Base + off →
      ((2 ^ (s.dev.fn f).bar2Log2 ≤ off ∨ req.len = 0) → exec (.bar2Request f off req) s = .next s) ∧
      (off < 2 ^ (s.dev.fn f).bar2Log2 → req.len ≠ 0 →
        (s.dev.bar2Part f = none → req.write = none → ∃ t : State, exec (.bar2Request f off req) s = .next t ∧
          ((t.dev.fn f).reply = some .unsupportedRequest ∧ (t.dev.fn f).rejects = (s.dev.fn f).rejects + 1)) ∧
        (s.dev.bar2Part f = none → req.write.isSome = true → exec (.bar2Request f off req) s = .next s) ∧
        (s.dev.bar2Part f = some p → (req.atomic = true ∨ (s.dev.part p).extent a req.len = .outside ∨
            (s.dev.part p).hitsWeights a req.len = true) → ∃ t : State, exec (.bar2Request f off req) s = .next t ∧
          ((t.dev.fn f).bar2Abort = (s.dev.fn f).bar2Abort + 1 ∧
            (req.write = none → (t.dev.fn f).reply = some .completerAbort))) ∧
        (s.dev.bar2Part f = some p → req.atomic = false → (s.dev.part p).extent a req.len ≠ .outside →
          (s.dev.part p).hitsWeights a req.len = false →
          exec (.bar2Request f off req) s = .next (s.onDev (fun d => d.bar2Serve f p a req)))) ∧
      ((28 ≤ off ∧ off ≤ 36) → ∃ t : State, exec (.bar2Resize f off) s = .next t ∧
        (t.dev.fn f = { s.dev.fn f with bar2Log2 := off, bar2Base := 0x3C0000000000 })) ∧
      ((off < 28 ∨ 36 < off) → exec (.bar2Resize f off) s = .next s))

/-- Links, PERST#, resets and VFs of a port the configuration has: a link that comes up attaches hosts once the module
is READY; a link down, PERST#, a hot reset, a function-level reset and a VF disable make functions depart, with
their cause. The admin port's PERST# of a faulted or recovering module resets it whole, and its release boots it. A
departure of an attached function with no live command: it is attached no more, its cause and stamp are kept, its
IDE streams end, every queue that is not DISABLED is QUIESCED, and its partition departs with its last attached
function. D3HOT_ENTRY, D0_RETURN and LOW_POWER_ENTRY: the PF of a port is in D3hot or back in D0; with every PF
there and no command live the module is in the low-power state, which the first return to D0 ends. -/
def Obligations.PortsAndFunctionsComeAndGo : Prop :=
  (∀ (s : State) (n width speed f count : Nat) (flit : Bool),
      (n = Config.adminPort → n < 4 → s.plat.powered = true → s.plat.boot = .held → (s.dev.port n).perst = true →
        ∃ t : State, exec (.perstRelease n) s = .next t ∧ (t.plat.boot = .stage 0 ∧ t.plat.portNow = s.plat.portNext)) ∧
      (PortUp s n →
      (∀ d, d = s.dev.modPort n (fun x => { x with up := true, width := width, speed := speed, flit := flit }) →
        (s.dev.port n).perst = false → exec (.hostLinkUp n width speed flit) s =
          .next { s with dev := if s.plat.up then d.attachPort n else d }) ∧
      ((s.dev.port n).perst = true → exec (.hostLinkUp n width speed flit) s = .next s) ∧
      (exec (.hostLinkDown n) s = .next (s.onDev (fun d =>
        (d.departPort n 0).modPort n (fun x => { x with up := false, linkIde := false })))) ∧
      ((n ≠ Config.adminPort ∨ (s.plat.fault = false ∧ s.plat.boot ≠ .recovery)) → exec (.perstAssert n) s =
        .next (s.onDev (fun d => (d.resetPort n 2).modPort n (fun x => { x with up := false, linkIde := false, perst := true })))) ∧
      (n = Config.adminPort → (s.plat.fault = true ∨ s.plat.boot = .recovery) → ∃ t : State, exec (.perstAssert n) s = .next t ∧
        (t.plat.boot = .held ∧ t.plat.fault = false ∧ (t.dev.port n).perst = true)) ∧
      (s.plat.boot ≠ .held → (s.dev.port n).perst = true → ∃ t : State, exec (.perstRelease n) s = .next t ∧
        ((t.dev.port n).perst = false ∧ t.plat = s.plat)) ∧
      ((s.dev.port n).perst = false → exec (.perstRelease n) s = .next s) ∧
      (exec (.hotReset n) s = .next (s.onDev (fun d => d.resetPort n 1))) ∧
      (f < fnCount → (s.dev.fn f).present = true →
        (f % 65 = 0 → exec (.functionLevelReset f) s = .next (s.onDev (fun d => d.resetPort (f / 65) 3))) ∧
        (f % 65 ≠ 0 → exec (.functionLevelReset f) s = .next (s.onDev (fun d => (d.departFn f 3).resetFn f)))) ∧
      ((64 < count ∨ (s.dev.port n).vfs ≠ 0) → exec (.vfEnable n count) s = .next s) ∧
      (count ≤ 64 → (s.dev.port n).vfs = 0 → ∃ t : State, exec (.vfEnable n count) s = .next t ∧
        ((t.dev.port n).vfs = count ∧ (∀ v, 1 ≤ v → v ≤ count → (t.dev.fn (65 * n + v)).present = true))) ∧
      (∃ t : State, exec (.vfDisable n) s = .next t ∧ (t.dev.port n).vfs = 0))) ∧
  (∀ (d e : Dev) (f cause p : Nat), (d.fn f).attached = true → (∀ y ∈ d.host.live, y.2.fn ≠ f) → e = d.departFn f cause →
      ((e.fn f).attached = false ∧ (e.fn f).cause = cause ∧ (e.fn f).departAt = d.fnStamp f ∧ (e.fn f).ide = [] ∧
        (∀ q x, Tab.find (d.fn f).qps q = some x → ((e.fn f).qp q).state = (if x.state = 0 then 0 else 2)) ∧
        (∀ g, g ≠ f → e.fn g = d.fn g)) ∧
      (d.ownerOfFn f = some p → (d.part p).state = .attached → (d.part p).everAttached = true →
        (∀ g ∈ (d.part p).fnList, g ≠ f → (d.fn g).attached = false) → (e.part p).state = .departed (d.tc p))) ∧
  (∀ (s : State) (n : Nat), PortUp s n → s.plat.up = true →
      ((s.dev.port n).d3 = false → exec (.d3hotEntry n) s = .next (s.onDev (fun d =>
        (d.endFunction (65 * n)).modPort n (fun x => { x with d3 := true })))) ∧
      ((s.dev.port n).d3 = true → exec (.d3hotEntry n) s = .next s) ∧
      ((s.dev.port n).d3 = false → exec (.d0Return n) s = .next s) ∧
      ((s.dev.port n).d3 = true → s.plat.lowPower = false → ∃ t : State, exec (.d0Return n) s = .next t ∧
        ((t.dev.port n).d3 = false ∧ t.plat = s.plat)) ∧
      ((s.dev.port n).d3 = true → s.plat.lowPower = true → (∀ p, (s.dev.part p).tick.held = none) →
        ∃ t : State, exec (.d0Return n) s = .next t ∧ ((t.dev.port n).d3 = false ∧ t.plat.lowPower = false)) ∧
      ((∀ m, m < portsOf s.plat.portNow → (s.dev.port m).d3 = true) → s.dev.host.live = [] →
        exec .lowPowerEntry s = .next { s with plat := { s.plat with lowPower := true } }) ∧
      ((∃ m, m < portsOf s.plat.portNow ∧ (s.dev.port m).d3 = false) → exec .lowPowerEntry s = .next s) ∧
      (s.dev.host.live ≠ [] → exec .lowPowerEntry s = .next s))

/-! ## Power, boot and temperature -/

/-- The input: at 39 V a module without a latch boots; below 37 V it goes down with its cause, and only flash keeps
anything; an overvoltage and an overcurrent latch it off until the input has been away for a second. MOD_RESET_N,
boot and the alert: an assertion of 1 ms holds the module and counts as a clean shutdown, a release boots it; a
stage that passes leads to the next, the last to READY; a failed one is reported as kind 4 with the fault bit; an
image that does not verify leads to ROM recovery. DIE_TEMPERATURE_SAMPLE and THERMAL_SAMPLE: the sample is kept; at
100 °C a die asserts the alert and reports kind 5; a second sample at 105 °C in a row latches the thermal trip; a
stack's step follows the thresholds, and what waits at a stack that is not throttled is tried again. -/
def Obligations.PowerBootAndTemperature : Prop :=
  (∀ (s : State) (mv us : Nat),
      (39000 ≤ mv → s.plat.input = false → s.plat.latch = none → ∃ t : State, exec (.inputPowerOn mv) s = .next t ∧
        (t.plat.boot = .stage 0 ∧ t.plat.input = true ∧ t.plat.pwrgd = true ∧ t.plat.portNow = s.plat.portNext)) ∧
      ((mv < 39000 ∨ s.plat.input = true ∨ s.plat.latch.isSome = true) → exec (.inputPowerOn mv) s = .next s) ∧
      (mv < 37000 → s.plat.input = true → s.plat.latch = none → ∃ t : State, exec (.undervoltage mv) s = .next t ∧
        (t.plat.boot = .off ∧ t.plat.input = false ∧ t.plat.pwrgd = false ∧ t.plat.cause = some .undervoltage ∧
          t.dev.cores = Dev.reset.cores ∧ t.dev.clusters = Dev.reset.clusters ∧ t.dev.beryl = Dev.reset.beryl ∧
          t.dev.host = Dev.reset.host ∧ t.dev.tier.blocks = s.dev.tier.blocks)) ∧
      (mv < 37000 → s.plat.input = true → s.plat.latch.isSome = true → exec (.undervoltage mv) s =
        .next { s with plat := { s.plat with input := false } }) ∧
      ((37000 ≤ mv ∨ s.plat.input = false) → exec (.undervoltage mv) s = .next s) ∧
      (62000 < mv → 100 ≤ us → s.plat.powered = true → ∃ t : State, exec (.overvoltage mv us) s = .next t ∧
        (t.plat.boot = .off ∧ t.plat.latch = some .overvoltage ∧ t.plat.pwrgd = false)) ∧
      ((mv ≤ 62000 ∨ us < 100 ∨ s.plat.powered = false) → exec (.overvoltage mv us) s = .next s) ∧
      (66000 < mv → 1000 ≤ us → s.plat.powered = true → ∃ t : State, exec (.inputOvercurrent mv us) s = .next t ∧
        (t.plat.boot = .off ∧ t.plat.latch = some .overcurrent ∧ t.plat.pwrgd = false)) ∧
      ((mv ≤ 66000 ∨ us < 1000 ∨ s.plat.powered = false) → exec (.inputOvercurrent mv us) s = .next s) ∧
      (mv < 20000 → 1000 ≤ us → s.plat.latch.isSome = true → exec (.latchClear mv us) s =
        .next { s with plat := { s.plat with latch := none, input := false, thermTrip := false } }) ∧
      ((20000 ≤ mv ∨ us < 1000 ∨ s.plat.latch = none) → exec (.latchClear mv us) s = .next s)) ∧
  (∀ (s : State) (us n : Nat) (r : BootResult),
      (1000 ≤ us → s.plat.powered = true → ∃ t : State, exec (.modResetAssert us) s = .next t ∧
        (t.plat.boot = .held ∧ t.plat.pwrgd = false ∧ t.plat.clean = true ∧ t.plat.fault = false)) ∧
      ((us < 1000 ∨ s.plat.powered = false) → exec (.modResetAssert us) s = .next s) ∧
      (s.plat.powered = true → s.plat.boot = .held → ∃ t : State, exec .modResetRelease s = .next t ∧
        (t.plat.boot = .stage 0 ∧ t.plat.pwrgd = true ∧ t.plat.portNow = s.plat.portNext)) ∧
      ((s.plat.powered = false ∨ s.plat.boot ≠ .held) → exec .modResetRelease s = .next s) ∧
      ((∀ n, s.plat.boot ≠ .stage n) → exec (.bootStageComplete r) s = .next s) ∧
      (s.plat.powered = true → s.plat.boot = .stage n →
        (1 ≤ n → n ≤ 2 → r.signed = false → ∃ t : State, exec (.bootStageComplete r) s = .next t ∧ (t.plat.boot = .recovery)) ∧
        (r.ok = false → (n ≠ 1 ∧ n ≠ 2 ∨ r.signed = true) → (n = 1 → s.plat.fwStored.isSome = true) →
          exec (.bootStageComplete r) s = .next { s with plat := { s.plat with
            boot := .failed
            fault := true
            alert := true
            led := true
            mgmt := s.plat.mgmt ++ [⟨4, n⟩] } }) ∧
        (r.ok = true → r.signed = true → s.plat.fwStored.isSome = true → n < 6 → (n = 3 → bootEnough r = true) →
          ∃ t : State, exec (.bootStageComplete r) s = .next t ∧ (t.plat.boot = .stage (n + 1))) ∧
        (r.ok = true → 6 ≤ n → exec (.bootStageComplete r) s =
          .next { s with dev := s.dev.ready, plat := { s.plat with boot := .ready } })) ∧
      (s.plat.powered = true → exec .pldmAlertClear s = .next { s with plat := { s.plat with alert := false } }) ∧
      (s.plat.powered = false → exec .pldmAlertClear s = .next s)) ∧
  (∀ (s : State) (i temp : Nat) (x : DieTemp) (y : Stack), s.plat.up = true → x = Tab.getD s.plat.dies i ⟨0, 0, false⟩ →
      y = s.dev.stack i →
      (i < 4 → temp < 100 → exec (.dieTemperatureSample i temp) s =
        .next { s with plat := { s.plat with dies := Tab.put s.plat.dies i ⟨temp, 0, false⟩ } }) ∧
      (i < 4 → 100 ≤ temp → (temp < 105 ∨ x.hot = 0) → ∃ t : State, exec (.dieTemperatureSample i temp) s = .next t ∧
        (t.plat.alert = true ∧ t.plat.mgmt = s.plat.mgmt ++ [⟨5, i⟩] ∧ t.plat.latch = s.plat.latch ∧
          (Tab.getD t.plat.dies i ⟨0, 0, false⟩).temp = temp)) ∧
      (i < 4 → 105 ≤ temp → 1 ≤ x.hot → ∃ t : State, exec (.dieTemperatureSample i temp) s = .next t ∧
        (t.plat.latch = some .thermal ∧ t.plat.thermTrip = true ∧ t.plat.boot = .off)) ∧
      (i < 16 → ∀ d, d = s.dev.stackSample s.plat.throttleC s.plat.hysteresisC i temp →
        ((d.stack i).temp = temp ∧ (d.stack i).step = nextStep s.plat.throttleC s.plat.hysteresisC y.step temp ∧
          (d.stack i).hot = (if 105 ≤ temp then y.hot + 1 else 0) ∧ (d.stack i).waiting = y.waiting ∧
          ((d.stack i).tripped = true ↔ y.tripped = true ∨ 105 ≤ temp ∧ 1 ≤ y.hot)) ∧
        ((d.stack i).tripped = false → ((d.stack i).step ≠ 0 ∨ d.stackOwner i = none) →
          exec (.thermalSample i temp) s = .next { s with dev := d }) ∧
        (∀ p, (d.stack i).tripped = false → (d.stack i).step = 0 → d.stackOwner i = some p →
          exec (.thermalSample i temp) s = .next { s with dev := d.resumeStacks p [i] })) ∧
      (i < 16 → (y.tripped = true ∨ 105 ≤ temp ∧ 1 ≤ y.hot) → ∃ t : State, exec (.thermalSample i temp) s = .next t ∧
        (t.plat.latch = some .thermal ∧ t.plat.thermTrip = true ∧ t.plat.boot = .off)))

/-! ## Stacks, links, tier -/

/-- A stack's rows: a request that is not of whole atoms in the stack is not one; the base die holds 8,192 requests and
the port the rest; one behind an earlier request to its atoms waits; a write to a tag unit that is not at the write
generation waits for its conversion; one that the stack cannot afford waits; any other is served. Tokens refill to
at most 4,096. A conversion advances the unit's tag, of a page frame on its four stacks. A refresh changes no bit.
A link: a CRC failure counts a replay in its direction, the first of a run or one more of it, which a free value
settles (log 161); a run of 16 replays or 3,000 tc is exhausted and the link retrains, or is a link down, kind 6,
within 100,000 tc of the last retrain; a retrain ends at full or half width, never above what it had, or with the
link down; what waited is then tried again. Failures: a cluster control core takes no new work from then on; a hub
that fails is reported as kind 1, and a message is replayed twice before its hub's operations end, which is
reported as kind 1 too; at the root each partition's messages count for themselves; Carnelian is gone until the
next boot; Peridot stops the module, kind 7. -/
def Obligations.StacksLinksAndFailures : Prop :=
  (∀ (s : State) (i p n bank atom : Nat) (r : StackReq) (x : Stack) (ecc : EccOutcome), s.plat.up = true → i < 16 → x = s.dev.stack i →
      ((wholeReq r = false ∨ s.dev.stackOwner i = none) → exec (.baseDieRequest i r) s = .next s) ∧
      (wholeReq r = true → s.dev.stackOwner i = some p →
        ((x.port ≠ [] ∨ 8192 ≤ x.waiting.length) → ∃ t : State, exec (.baseDieRequest i r) s = .next t ∧
          (t.dev.stack i = { x with port := x.port ++ [r] })) ∧
        (x.port = [] → x.waiting.length < 8192 →
          (behind x.waiting r = true → ∃ t : State, exec (.baseDieRequest i r) s = .next t ∧
            (t.dev.stack i = { x with waiting := x.waiting ++ [r] })) ∧
          (behind x.waiting r = false → ∀ u, staleUnit (s.dev.part p) x r = some u → ∃ t : State,
            exec (.baseDieRequest i r) s = .next t ∧ (t.dev.stack i = { x with
              waiting := x.waiting ++ [r]
              conv := if x.conv.contains u then x.conv else x.conv ++ [u] })) ∧
          (behind x.waiting r = false → staleUnit (s.dev.part p) x r = none →
            ∀ q e, q = (s.dev.svc i).serve r (s.dev.part p).quota (s.dev.part p).gen →
            e = s.dev.endSvc i p { q.2 with st := { q.2.st with
              reply := if r.write.isNone then some (plain q.1, poisoned q.1) else q.2.st.reply } } →
            (s.dev.affords e = true → exec (.baseDieRequest i r) s = .next (s.onDev (fun _ => e))) ∧
            (s.dev.affords e = false → ∃ t : State, exec (.baseDieRequest i r) s = .next t ∧
              (t.dev.stack i = { x with waiting := x.waiting ++ [r] }))))) ∧
      (∀ d, d = s.dev.modStack i (fun x => { x with tokens := min 4096 (x.tokens + n) }) →
        (s.dev.stackOwner i = none → exec (.throttleRelease i n) s = .next (s.onDev (fun _ => d))) ∧
        (s.dev.stackOwner i = some p → exec (.throttleRelease i n) s = .next (s.onDev (fun _ => d.resumeStacks p [i])))) ∧
      (∀ y, s.dev.stackOwner i = some p → (s.dev.part p).layout = some y →
        ((s.dev.part p).oldGen = none → n ∉ x.conv → exec (.tagConversionDone i n) s = .next s) ∧
        (((s.dev.part p).oldGen.isSome = true ∨ n ∈ x.conv) → ∀ d, d = s.dev.converted i p n y →
          exec (.tagConversionDone i n) s = .next (s.onDev (fun _ => d.resumeStacks p ((List.range 4).map (fun k => i / 4 * 4 + k)))) ∧
          (d.stack i).dram = x.dram ∧ n ∉ (d.stack i).conv ∧
          (y.unitFrame i n = none → Tab.find (d.stack i).tags n = some (s.dev.part p).gen) ∧
          (∀ f, y.unitFrame i n = some f → d.frameGen p (i / 4) f = (s.dev.part p).gen))) ∧
      (bank < 32 → ∃ t : State, exec (.dramRefresh i bank) s = .next t ∧
        (t.dev.stack i = { x with refreshed := Tab.put x.refreshed bank s.dev.now })) ∧
      (stackBytes / 32 ≤ atom → exec (.backgroundAtomScrub i atom ecc) s = .next s) ∧
      (atom < stackBytes / 32 → s.dev.stackOwner i = some p → ∀ v e, v = ((s.dev.svc i).readAtom atom ecc).2 →
        e = s.dev.endSvc i p { v with st := { v.st with scrubbed := v.st.scrubbed + 1 } } →
        exec (.backgroundAtomScrub i atom ecc) s = .next (if s.dev.affords e then s.onDev (fun _ => e) else s)) ∧
      (atom < stackBytes / 32 → s.dev.stackOwner i = none → ∀ v e, v = ((s.dev.svc i).readAtom atom ecc).2 →
        e = s.dev.setStack i { v.st with
          scrubbed := v.st.scrubbed + 1
          drawn := v.st.drawn + v.atoms
          tokens := if v.st.step = 0 then v.st.tokens else v.st.tokens - v.atoms } →
        exec (.backgroundAtomScrub i atom ecc) s = .next (if s.dev.affords e then s.onDev (fun _ => e) else s))) ∧
  (∀ (s : State) (l dir mask m : Nat) (x : Link) (fresh : Bool), s.plat.up = true → l < 10 → x = s.dev.link l →
      (dir < 2 → x.state = 0 → fresh = (x.runStart.isNone || s.dev.draw.1 % 2 == 0) →
        ((fresh = true ∨ x.runCount < 16 ∧ ∀ t, x.runStart = some t → s.dev.now < t + 3000) →
          ∃ t : State, exec (.flitCrcFailure l dir) s = .next t ∧ t.plat = s.plat ∧ t.dev.link l = { x with
            crc := Tab.bump x.crc dir 1
            replays := Tab.bump x.replays dir 1
            runs := if fresh then Tab.bump x.runs dir 1 else x.runs
            replaySeen := true
            runCount := if fresh then 1 else x.runCount + 1
            runStart := if fresh then some s.dev.now else x.runStart }) ∧
        (fresh = false → (16 ≤ x.runCount ∨ ∃ t, x.runStart = some t ∧ t + 3000 ≤ s.dev.now) →
          exec (.flitCrcFailure l dir) s = .next (({ s with
            dev := s.dev.draw.2.modLink l (fun x => { x with crc := Tab.bump x.crc dir 1 }) } : State).exhaustLink l))) ∧
      (dir < 2 → x.state ≠ 0 → exec (.flitCrcFailure l dir) s = .next s) ∧
      ((x.state ≠ 0 ∨ x.runStart = none) → exec (.replayRunExhausted l) s = .next s) ∧
      (x.state = 0 → x.runCount < 16 → ∀ t, x.runStart = some t → exec (.replayRunExhausted l) s = .next
        (({ s with dev := s.dev.reach (t + 3000) } : State).exhaustLink l)) ∧
      (x.state = 0 → x.runStart.isSome = true → 16 ≤ x.runCount → (∀ t, x.lastRetrain = some t → t + 100000 ≤ s.dev.now) →
        ∃ t : State, exec (.replayRunExhausted l) s = .next t ∧ (t.dev.link l = { x with state := 1, runCount := 0, outage := s.dev.now } ∧
          t.plat = s.plat)) ∧
      (x.state = 0 → x.runStart.isSome = true → 16 ≤ x.runCount → x.lastRetrain = some m → s.dev.now < m + 100000 →
        ∃ d : Dev, exec (.replayRunExhausted l) s = .next
          { s with dev := d.resumeLinks, plat := { s.plat with mgmt := s.plat.mgmt ++ [⟨6, l⟩] } } ∧ (d.link l).state = 2) ∧
      (x.state ≠ 1 → exec (.retrainComplete l mask) s = .next s) ∧
      (x.state = 1 → lanesUp (Link.reset l).lanes mask = none → ∃ d : Dev, exec (.retrainComplete l mask) s = .next
          { s with dev := d.resumeLinks, plat := { s.plat with mgmt := s.plat.mgmt ++ [⟨6, l⟩] } } ∧ (d.link l).state = 2) ∧
      (x.state = 1 → lanesUp (Link.reset l).lanes mask = some m →
        ∃ d : Dev, exec (.retrainComplete l mask) s = .next { s with dev := d.resumeLinks } ∧ (d.link l).state = 0 ∧
          (d.link l).lanes = min m x.lanes ∧ (d.link l).retrains = x.retrains + 1 ∧ (d.link l).retrainSeen = true ∧
          (d.link l).lastRetrain = some s.dev.now)) ∧
  (∀ (s : State) (cl level unit kind core : Nat), s.plat.up = true →
      (cl < 32 → (s.dev.cluster cl).failed = true → exec (.clusterControlCoreFailure cl) s = .next s) ∧
      (cl < 32 → (s.dev.cluster cl).failed = false → (s.dev.cluster cl).pgQ = [] → (s.dev.cluster cl).walks = [] →
        s.dev.ownerOfDie (cl / 8) = none → ∃ t : State, exec (.clusterControlCoreFailure cl) s = .next t ∧
          ((t.dev.cluster cl).failed = true ∧ (t.dev.cluster cl).mem = (s.dev.cluster cl).mem ∧
            (∀ i, i ≠ cl → t.dev.cluster i = s.dev.cluster i))) ∧
      (cl < 32 → (s.dev.cluster cl).failed = false →
        exec (.clusterControlCoreFailure cl) s = .next (s.onDev (fun d => d.failCluster cl))) ∧
      (hubExists level unit = true → exec (.usneaHubFailure level unit) s = .next { s with
        dev := s.dev.failHub level unit
        plat := { s.plat with mgmt := s.plat.mgmt ++ [⟨1, hubKey level unit⟩] } }) ∧
      (hopExists level unit = true → (s.dev.hub (hubKey level unit)).replays < 2 →
        ∃ t : State, exec (.usneaMessageCrcFailure level unit) s = .next t ∧ ((t.dev.hub (hubKey level unit)).replays =
          (s.dev.hub (hubKey level unit)).replays + 1 ∧ t.dev.cores = s.dev.cores ∧ t.plat = s.plat)) ∧
      (hopExists level unit = true → 2 ≤ (s.dev.hub (hubKey level unit)).replays →
        ∃ t : State, exec (.usneaMessageCrcFailure level unit) s = .next t ∧ ((t.dev.hub (hubKey level unit)).replays = 0 ∧
          t.plat.mgmt = s.plat.mgmt ++ [⟨1, hubKey level (if level = 2 then 0 else unit)⟩])) ∧
      (s.dev.carnelian = false → exec (.carnelianFault kind) s = .next s) ∧
      (s.dev.carnelian = true → ∃ t : State, exec (.carnelianFault kind) s = .next t ∧
        (t.dev.carnelian = false ∧ t.plat = s.plat)) ∧
      (∀ i, core < 8 → (i = .peridotWatchdog core ∨ i = .peridotSramError core) → ∃ t : State, exec i s = .next t ∧
        (t.plat.fault = true ∧ t.plat.alert = true ∧ t.plat.mgmt = s.plat.mgmt ++ [⟨7, core⟩] ∧ t.plat.up = false)))

/-- Landings and write-back of a partition's pages: a landing releases what waits for it, and a page's read ends at its
bound; a lent frame goes back once nothing uses it; in read-only mode write-back has stopped, in low power it
waits, and nothing moves over an I/O-die link that is not up. TIER_PREFETCH and TIER_FLUSH: an extent outside the
partition or a die it does not hold is PARTITION; nothing to move completes OK; a wait runs until the pages have
landed; a flush runs until its sectors are durable, is NO_SPACE in read-only mode, also one that it meets on the
way, DEVICE_FAULT when flash fails the write or a link of its way is down, and waits for a link that retrains. The
translation layer's rows: a relocation moves a block's live sectors and erases it once; garbage collection below 2
% frees it; wear levelling needs 200 erases between the two; a refresh takes 50,000 reads of the block; a patrol
checks a block once a period; a retired block takes a spare; an exhausted tier is read-only for good, reported as
kind 2. -/
def Obligations.TheTierKeepsItsPages : Prop :=
  (∀ (s : State) (p page bad : Nat), PartUp s p →
      (exec (.migrationLanded p page bad) s = .next (s.onDev (fun d => (d.land p page bad).released p))) ∧
      ((s.dev.part p).migrOf page = none → exec (.folnasRetryBound p page bad) s = .next s) ∧
      (∀ m, (s.dev.part p).migrOf page = some m → exec (.folnasRetryBound p page bad) s = .next (s.onDev (fun d =>
        ((d.reach ((d.part p).tick.origin + m.stamp + 400000)).land p page bad).released p))) ∧
      (Tab.find (s.dev.part p).reserve page = none → exec (.reserveFrameReturn p page) s = .next s) ∧
      (∀ r, Tab.find (s.dev.part p).reserve page = some r →
        (r.waiters ≠ 0 → exec (.reserveFrameReturn p page) s = .next s) ∧
        (r.waiters = 0 → (r.dirty = [] ∨ s.dev.tier.readOnly = false ∧ s.dev.ioState r.die = 0) →
          ∃ t : State, exec (.reserveFrameReturn p page) s = .next t ∧ (Tab.find (t.dev.part p).reserve page = none)) ∧
        (r.dirty ≠ [] → (s.dev.tier.readOnly = true ∨ s.dev.ioState r.die ≠ 0) → exec (.reserveFrameReturn p page) s = .next s)) ∧
      (s.dev.tier.readOnly = true → exec (.evictionWriteBackDone p page) s = .next s ∧
        exec (.backgroundWriteBack p) s = .next s) ∧
      (∀ y, Tab.find (s.dev.part p).evict page = some y → s.dev.ioState y.die ≠ 0 → exec (.evictionWriteBackDone p page) s = .next s) ∧
      (s.dev.tier.readOnly = false → (∀ y, Tab.find (s.dev.part p).evict page = some y → s.dev.ioState y.die = 0) →
        ∀ e, e = (s.dev.backEvict p page (fun _ => true)).evictDone p page →
        exec (.evictionWriteBackDone p page) s = .next (if s.dev.affords e then s.onDev (fun _ => e) else s)) ∧
      (s.plat.lowPower = true → exec (.backgroundWriteBack p) s = .next s) ∧
      ((s.dev.part p).dirtyExcess = 0 → exec (.backgroundWriteBack p) s = .next s) ∧
      (s.plat.lowPower = false → s.dev.tier.readOnly = false → exec (.backgroundWriteBack p) s = .next (s.onDev (fun d =>
        ((d.part p).dirtySectors.take (d.part p).dirtyExcess).foldl
          (fun (d : Dev) e => if (Tab.find (d.part p).resident e.2.1).elim false (fun r => d.ioState r.die == 0) then
            d.backResident p e.2.1 (fun i => i == e.2.2) else d) d)))) ∧
  (∀ (s : State) (h p a n die : Nat) (c : Cmd), p = c.part → a = c.field 16 8 → n = c.field 24 8 → die = c.field 32 1 →
      (Starts s h 0x50 c → ∀ cs, cs = [(16, stInvalid, n != 0 && wideAddr a), (16, stPartition, n != 0 && (s.dev.part p).extent a n == .outside),
          (32, stPartition, die != 0xFF && !(s.dev.part p).hasDie die), (33, stInvalid, decide (1 < c.field 33 1))] ++
          rsvBytes c [(34, 30)] →
        (∀ f, firstFail cs = some f → exec (.tierPrefetch h) s = .next (s.onDev (fun d => d.failAt h f.1 f.2))) ∧
        (firstFail cs = none → (n = 0 ∨ (s.dev.part p).coldPages a n = []) →
          exec (.tierPrefetch h) s = .next (s.onDev (fun d => d.complete h stOK 0 0))) ∧
        (firstFail cs = none → n ≠ 0 → ∀ r runs,
          r = (if die = 0xFF then s.dev.prefetchPages p (s.dev.part p).firstDie (fun x => x.pickFrame x.firstDie) ((s.dev.part p).coldPages a n)
            else s.dev.prefetchPages p die (fun x => x.freeOn die) ((s.dev.part p).coldPages a n)) →
          runs = ((s.dev.part p).coldPages a n).filter (fun g => Tab.has (r.2.part p).migr g) →
          (bitOf (c.field 33 1) 0 = true → runs ≠ [] → exec (.tierPrefetch h) s = .next (s.onDev (fun _ =>
            r.2.modCmd h (fun c => { c with phase := .running, work := runs, count := r.1 })))) ∧
          ((bitOf (c.field 33 1) 0 = false ∨ runs = []) → exec (.tierPrefetch h) s = .next (s.onDev (fun _ =>
            r.2.complete h (if r.1 = 0 then stOK else stNoSpace) r.1 0))))) ∧
      (Starts s h 0x51 c → ∀ whole, whole = bitOf (c.field 32 1) 0 → c.field 32 1 < 2 → firstFail (rsvBytes c [(33, 31)]) = none →
        (whole = false → n = 0 → exec (.tierFlush h) s = .next (s.onDev (fun d => d.complete h stOK 0 0))) ∧
        (whole = false → n ≠ 0 → wideAddr a = true → exec (.tierFlush h) s = .next (s.onDev (fun d => d.failAt h stInvalid 16))) ∧
        (whole = false → n ≠ 0 → wideAddr a = false → (s.dev.part p).extent a n ≠ .unified →
          exec (.tierFlush h) s = .next (s.onDev (fun d => d.failAt h stPartition 16))) ∧
        ((whole = true ∨ n ≠ 0 ∧ wideAddr a = false ∧ (s.dev.part p).extent a n = .unified) →
          (s.dev.tier.readOnly = true → exec (.tierFlush h) s = .next (s.onDev (fun d => d.complete h stNoSpace 0 0))) ∧
          (s.dev.tier.readOnly = false → exec (.tierFlush h) s = .next (s.onDev (fun d => d.running h))))) ∧
      (s.plat.up = true → s.dev.cmd h = some c → c.op = 0x51 → c.phase = .running →
        (s.dev.tier.readOnly = true → ∀ ok, exec (.tierFlushDurable h ok) s = .next (s.onDev (fun d => d.complete h stNoSpace 0 0))) ∧
        (s.dev.tier.readOnly = false →
          ((∀ e ∈ (s.dev.part p).flushPages c, s.dev.ioState e.2 = 0) → exec (.tierFlushDurable h true) s =
            .next (s.onDev (fun d => (d.flushExtent p c).complete h stOK 0 0))) ∧
          ((∃ e ∈ (s.dev.part p).flushPages c, s.dev.ioState e.2 = 1) → (∀ e ∈ (s.dev.part p).flushPages c, s.dev.ioState e.2 ≤ 1) →
            exec (.tierFlushDurable h true) s = .next s) ∧
          ((∃ e ∈ (s.dev.part p).flushPages c, s.dev.ioState e.2 = 2) → (∀ e ∈ (s.dev.part p).flushPages c, s.dev.ioState e.2 ≤ 2) →
            exec (.tierFlushDurable h true) s = .next (s.onDev (fun d => d.complete h stDeviceFault 0 0))) ∧
          exec (.tierFlushDurable h false) s = .next (s.onDev (fun d => d.complete h stDeviceFault 0 0))))) ∧
  (∀ (s : State) (b worn pct : Nat) (t : Tier), s.plat.up = true → b < rawBlocks → t = s.dev.tier →
      (t.freeBlocks * 100 < 2 * rawBlocks → (t.block b).retired = false → ∃ u : State, exec (.garbageCollection b) s = .next u ∧
        ((u.dev.tier.block b).erases = (t.block b).erases + 1 ∧ u.dev.tier.freeBlocks = t.freeBlocks + 1 ∧
          u.dev.tier.cycles = t.cycles + 1 ∧ (∀ i, i ≠ b → u.dev.tier.block i = t.block i))) ∧
      (2 * rawBlocks ≤ t.freeBlocks * 100 → exec (.garbageCollection b) s = .next s) ∧
      (worn < rawBlocks → (t.block b).erases + 200 < (t.block worn).erases → exec (.wearLevelling b worn) s =
        .next (s.onDev (fun d => d.relocate b (fun _ => worn)))) ∧
      (worn < rawBlocks → (t.block worn).erases ≤ (t.block b).erases + 200 → exec (.wearLevelling b worn) s = .next s) ∧
      (50000 ≤ (t.block b).reads → exec (.readDisturbRefresh b) s = .next (s.onDev (fun d => d.relocateOpen b))) ∧
      ((t.block b).reads < 50000 → exec (.readDisturbRefresh b) s = .next s) ∧
      (∀ (d : Dev) (dest : Nat → Nat) (p key : Nat) (r : Sector), (d.tier.block b).retired = false →
        Tab.find (d.part p).sectors key = some r →
        Tab.find ((d.relocate b dest).part p).sectors key = some (if r.block = b then { r with block := dest key } else r) ∧
        ((d.relocate b dest).tier.block b).reads = 0 ∧ ((d.relocate b dest).tier.block b).erases = (d.tier.block b).erases + 1) ∧
      ((t.block b).checked = s.dev.now / (7 * 86400 * 10 ^ 9) + 1 → exec (.folnasPatrol b pct) s = .next s) ∧
      ((t.block b).checked ≠ s.dev.now / (7 * 86400 * 10 ^ 9) + 1 → ∃ u : State, exec (.folnasPatrol b pct) s = .next u ∧
        ((u.dev.tier.block b).checked = s.dev.now / (7 * 86400 * 10 ^ 9) + 1 ∧
          (u.dev.tier.block b).erases = (t.block b).erases + (if 60 < pct ∧ (t.block b).retired = false then 1 else 0))) ∧
      ((t.block b).retired = false → ∃ u : State, exec (.badBlockRetire b) s = .next u ∧
        ((u.dev.tier.block b).retired = true ∧ u.dev.tier.spares = t.spares - 1)) ∧
      ((t.block b).retired = true → exec (.badBlockRetire b) s = .next s) ∧
      (t.exhausted = true → t.readOnly = false → ∃ u : State, exec .readOnlyModeEntry s = .next u ∧
        (u.dev.tier.readOnly = true ∧ u.plat.mgmt = s.plat.mgmt ++ [⟨2, 0⟩])) ∧
      ((t.exhausted = false ∨ t.readOnly = true) → exec .readOnlyModeEntry s = .next s))

/-! ## Completion, and what never goes back -/

/-- COMPLETION: each form named here answers the next state of its own effect, from every state that meets the
conditions written before it. SYNC_DONE and SYNC_TICK with an empty window, SYNC_WAIT on a counter that already has
its value, SYNC_TIME; BOUNDARY_DECISION of an open boundary; HOLD_EXPIRY of a hold that is due, EDIT_BATCH_EXPIRY
of a batch that still lacks a frame, PARK_COMPLETE, RESUME_COMPLETE, RESUME_EXPIRY, DEMOTION_COMPLETE. SEQ_SUSPEND,
its park and its evict_only forms, SEQ_RESUME lazy and eager, SEQ_DESTROY, on a sequence whose state allows them;
PARTITION_SET CONFIGURE of a partition not in use, DELETE and END_GRACE. SPDM GET_VERSION, GET_CAPABILITIES,
NEGOTIATE_ALGORITHMS, GET_DIGESTS, GET_CERTIFICATE, GET_MEASUREMENTS, KEY_EXCHANGE, FINISH, PSK_EXCHANGE,
PSK_FINISH, IDE_KM, and an IDE stream that leaves Secure. COMMAND_FETCH with room for a handle; HOST_BAR2_WINDOW,
HOST_PORT_CFG, BERYL_THERM_CFG, TICK register and register writes and reads, the two PLDM writes, BAR2_REQUEST
within its partition, BAR2_RESIZE. BASE_DIE_REQUEST that nothing holds up, THROTTLE_RELEASE, TAG_CONVERSION_DONE of
a unit in conversion, DRAM_REFRESH, BACKGROUND_ATOM_SCRUB; a replay run's first failure and its exhaustion,
RETRAIN_COMPLETE; the failures of a hub, a message, a cluster control core, Carnelian and Peridot. -/
def Obligations.RemainingFormsComplete : Prop :=
  ((∀ (s : State) (c : Nat) (w : Bytes) (k : Core) (p slot st : Nat) (x : Pipe) (y : Stage), k = s.dev.core c →
      s.dev.coreRun c = some (p, slot, st, x, y) →
      (Issues s c 11 1 w → k.window = [] → ∃ t : State, exec (.syncDone c) s = .next t ∧ (t.dev.core c).pc = k.pc + 1 ∧
        (t.dev.core c).done = some (k.done.getD (s.dev.coreTc c)) ∧ (t.dev.core c).phase = k.phase) ∧
      (Issues s c 11 2 w → k.window = [] → ∃ t : State, exec (.syncTick c) s = .next t ∧ (t.dev.core c).phase = .atTick ∧
        (t.dev.core c).done = some (k.done.getD (s.dev.coreTc c)) ∧ (t.dev.core c).pc = k.pc + 1) ∧
      (Issues s c 11 3 w → k.waitOf w = none →
        exec (.syncWait c) s = .next (s.withCore c (k.entered w stOK false .ready s.dev.now))) ∧
      (Issues s c 11 4 w → exec (.syncTime c) s = .next (s.withCore c (k.ran w false
        (Mem.write k.sp (k.ref w 16) (natLE 8 (s.dev.coreTc c) ++ natLE 8 (s.dev.part p).tick.index), false) s.dev.now)))) ∧
    (∀ (s : State) (p : Nat), PartUp s p →
      ((s.dev.part p).tick.boundary.isSome = true → ∃ t : State, exec (.boundaryDecision p) s = .next t ∧
        (t.dev.part p).tick.boundary = none) ∧
      (∀ id w slot recs q, (s.dev.part p).staged = [.edits none id recs w] →
        w + (s.dev.part p).holdLimit ≤ (s.dev.part p).tick.index → (s.dev.part p).seqOf id = some (slot, q) →
        (s.dev.part p).batchLacks slot recs = true →
        ∃ t : State, exec (.editBatchExpiry p) s = .next t ∧ (t.dev.part p).staged = [])) ∧
    (∀ (s : State) (p slot : Nat) (q : Seq), PartUp s p → (s.dev.part p).seq slot = some q →
      (∀ h, q.hold = some h → (s.dev.part p).holdDue h = true → s.dev.heldAppends p (q.ident slot) = [] →
        ∃ t : State, exec (.holdExpiry p slot) s = .next t ∧ (t.dev.part p).seq slot =
          some { q with hold := none, state := .suspended, noSpaceOnce := true }) ∧
      (q.state = .resuming → q.resumeBy ≤ (s.dev.part p).tick.index → q.parkHandle = none →
        (∃ e ∈ q.entries, e.2.tier = 1 ∧ Tab.has (s.dev.part p).storeMigr (pageKey slot e.1) = false) →
        ∃ t : State, exec (.resumeExpiry p slot) s = .next t ∧ ((t.dev.part p).seq slot).map (·.state) = some .parked) ∧
      (q.state = .parking → q.pending ≠ [] → q.durable = false → ∃ t : State, exec (.parkComplete p slot) s = .next t ∧
        ((t.dev.part p).seq slot).map (·.pending) = some []) ∧
      (q.state = .resuming → (∀ e ∈ q.entries, e.2.tier ≠ 1) → exec (.resumeComplete p slot) s =
        .next (s.onDev (fun d => d.modPart p (fun x => x.setSeq slot { q with pending := [] })))) ∧
      (∀ page, (s.dev.part p).demoting.find? (fun y => y.1 == slot && y.2.1 == page) ≠ none →
        (s.dev.part p).entryOf slot page = none → ∃ t : State, exec (.demotionComplete p slot page) s = .next t ∧
          (t.dev.part p).demoting = (s.dev.part p).demoting.filter (fun z => !(z.1 == slot && z.2.1 == page))))) ∧
  ((∀ (s : State) (h p slot : Nat) (c : Cmd) (q : Seq), p = c.part → (s.dev.part p).seqOf (c.field 16 4) = some (slot, q) →
      (Starts s h 0x42 c → firstFail (suspendRsv c) = none → ∀ b, b = c.field 20 1 →
        (bitOf b 2 = false → bitOf b 0 = false → q.state = .active → exec (.seqSuspend h) s =
          .next (s.onDev (fun d => d.stage p h (fun w => .suspend h (c.field 16 4) w)))) ∧
        (bitOf b 2 = false → bitOf b 0 = true → bitOf b 1 = false → q.state = .suspended → exec (.seqSuspendPark h) s =
          .next (s.onDev (fun d => d.stage p h (fun w => .park h (c.field 16 4) false w)))) ∧
        (bitOf b 2 = true → exec (.seqSuspendEvictOnly h) s = .next (s.onDev (fun d =>
          (d.modPart p (fun x => x.modSeq slot (fun q => { q with evictable := bitOf b 3 }))).complete h stOK 0 0)))) ∧
      (Starts s h 0x43 c → firstFail (resumeRsv c) = none → q.state = .parked →
        (bitOf (c.field 20 1) 0 = true → exec (.seqResumeLazy h) s =
          .next (s.onDev (fun d => d.stage p h (fun w => .resumeLazy h (c.field 16 4) w)))) ∧
        (bitOf (c.field 20 1) 0 = false → exec (.seqResumeEager h) s =
          .next (s.onDev (fun d => d.stage p h (fun w => .resumeEager h (c.field 16 4) w))))) ∧
      (Starts s h 0x44 c → firstFail (rsvBytes c [(20, 44)]) = none → q.state = .active → exec (.seqDestroy h) s =
        .next (s.onDev (fun d => d.stage p h (fun w => .destroy h (c.field 16 4) w))))) ∧
    (∀ (s : State) (h p : Nat) (c : Cmd) (data o : Bytes) (d : Dev), p = c.field 28 1 → Starts s h 0x10 c → o = objectOf data 256 →
      s.plat.committing = none →
      (c.field 29 1 = 0 → c.field 24 4 = 256 → firstFail (setChecks c) = none → HostObject c 256 →
        s.dev.layoutFail s.plat.portNow p o = none → s.dev.layoutBusy p h (layoutOf o) = false →
        d = (s.dev.complete h stOK 0 0).moving (s.dev.movedFns p (layoutOf o)) (fun d => d.layDown s.plat.fuseEpoch p (layoutOf o)) →
        exec (.partitionSetConfigure h data) s = .next { s with dev := d, plat := { s.plat with layouts := d.layouts } }) ∧
      (c.field 29 1 = 1 → firstFail (noObject c ++ setChecks c) = none → s.dev.idle p h = true →
        (s.dev.part p).layout.isSome = true → adminFn ∉ (s.dev.part p).fnList →
        d = (s.dev.running h).scrub s.plat.fuseEpoch p (some h) true →
        exec (.partitionSetDelete h) s = .next { s with dev := d, plat := { s.plat with layouts := d.layouts } }) ∧
      (c.field 29 1 = 2 → firstFail (noObject c ++ setChecks c) = none → s.dev.idle p h = true →
        (s.dev.part p).state.isDeparted = true → d = (s.dev.complete h stOK 0 0).scrub s.plat.fuseEpoch p none false →
        exec (.partitionSetEndGrace h) s = .next { s with dev := d, plat := { s.plat with layouts := d.layouts } }))) ∧
  ((∀ (s : State) (src : SpdmSrc) (nonce ek psk : Bytes) (p tag : Nat) (v : Spdm) (e : Resume), SpdmUp s src →
      exec (.getVersion src) s = .next (s.onDev (fun d => d.answer .version)) ∧
      exec (.getCapabilities src) s = .next (s.onDev (fun d => d.answer .capabilities)) ∧
      exec (.negotiateAlgorithms src 15) s = .next (s.onDev (fun d => d.answer (.algorithms 15))) ∧
      exec (.getDigests src) s = .next (s.onDev (fun d => d.answer (.digests (Config.sha3 Config.certChain)))) ∧
      exec (.getCertificate src) s = .next (s.onDev (fun d => d.answer (.certificate Config.certChain))) ∧
      (∃ sig, exec (.getMeasurements src nonce) s =
        .next (s.onDev (fun d => d.answer (.measurements (d.measurements s.plat src) sig)))) ∧
      (s.dev.spdmPart src = some p →
        (∃ (t : State) (a b : Bytes), exec (.keyExchange src ek) s = .next t ∧ t.dev.spdmReply = some (.keyExchange a b)) ∧
        (s.dev.opening src false = some v → ∃ (t : State) (g : Nat), exec (.finish src true) s = .next t ∧
          t.dev.spdmReply = some (.finished g) ∧ (t.dev.part p).sessions =
            (s.dev.part p).sessions.erase v ++ [{ v with tag := g, secure := true, resuming := false }]) ∧
        (s.dev.graceOpen p = true → (s.dev.part p).resumeRec ((spdmFn src).getD noFn) tag = some e → e.secret = psk →
          ∃ t : State, exec (.pskExchange src tag psk) s = .next t ∧ t.dev.spdmReply = some .pskExchange) ∧
        (s.dev.graceOpen p = true → s.dev.opening src true = some v →
          ((s.dev.part p).resumeRec ((spdmFn src).getD noFn) v.tag).isSome = true →
          ∃ (t : State) (g : Nat), exec (.pskFinish src true) s = .next t ∧ t.dev.spdmReply = some (.finished g)))) ∧
    (∀ (s : State) (f stream port : Nat),
      (SpdmUp s (.doe (portOf f)) → s.dev.secureOf (.doe (portOf f)) = true → (s.dev.fn f).present = true → stream < 8 →
        ∃ t : State, exec (.ideKm (.doe (portOf f)) f stream) s = .next t ∧ stream ∈ (t.dev.fn f).ide) ∧
      (s.plat.up = true → port < 4 → f ∈ s.dev.presentOn port → stream < 8 →
        ∃ t : State, exec (.ideStreamLeavesSecure port stream) s = .next t ∧ stream ∉ (t.dev.fn f).ide))) ∧
  ((∀ (s : State) (f q slot : Nat) (cmd b : Bytes) (x : Qp) (own : Option Nat), s.plat.up = true → f < fnCount →
      x = (s.dev.fn f).qp q → own = s.dev.ownerOfFn f → b = cmd.take 64 ++ List.replicate (64 - cmd.length) 0 →
      (s.dev.fn f).attached = true → x.fetchable = true → s.plat.lowPower = false → s.dev.handleRoom own = true →
      s.dev.fetchTurnOf own f q = true → x.sqInDev = false → x.cqInDev = false → firstGap (Tab.keys s.dev.host.live) 0 maxHandles = some slot →
      headerFail (s.dev.part (own.getD 0)) own f b = none →
      ∃ (t : State) (c : Cmd), exec (.commandFetch f q cmd) s = .next t ∧ t.dev.cmd slot = some c ∧ c.bytes = b ∧
        c.phase = .fetched ∧ ((t.dev.fn f).qp q).sqHead = (x.sqHead + 1) % x.sqSize) ∧
    (∀ (s : State) (f off v : Nat), FnUp s f →
      (v % 2 ^ 48 % 2 ^ (s.dev.fn f).bar2Log2 = 0 → ∃ t : State, exec (.hostBar2WindowWrite f v) s = .next t ∧
        (t.dev.fn f).bar2Base = v % 2 ^ 48) ∧
      (f = adminFn → s.plat.committing = none → v % 4 ≠ s.plat.portNext → bitOf v 8 = false → exec (.hostPortCfgWrite f v) s =
        .next { s with plat := { s.plat with portNext := v % 4 } }) ∧
      (85 ≤ bitsOf v 15 8 → bitsOf v 15 8 ≤ 100 → 2 ≤ bitsOf v 23 16 → bitsOf v 23 16 ≤ 10 →
        ∀ t, t = { s with plat := { s.plat with throttleC := bitsOf v 15 8, hysteresisC := bitsOf v 23 16 } } →
        exec (.pldmThermCfgWrite v) s = .next t ∧ (f = adminFn → exec (.berylThermCfgWrite f v) s = .next t)) ∧
      (s.plat.committing = none → v < 4 → exec (.pldmPortConfigWrite v) s =
        .next { s with plat := { s.plat with portNext := v } }) ∧
      (∀ w, s.dev.reg64 f off = some w → ∃ t : State, exec (.tickRegisterLowRead f off) s = .next t ∧
        Tab.getD (t.dev.fn f).latches off 0 = w / 2 ^ 32) ∧
      (off % 4 = 0 → exec (.registerWrite f off v) s = .next (s.onDev (fun d => d.writeReg f off (v % 2 ^ 32)))) ∧
      (∀ (p a : Nat) (req : Bar2Req), a = (s.dev.fn f).bar2Base + off → off < 2 ^ (s.dev.fn f).bar2Log2 → req.len ≠ 0 →
        s.dev.bar2Part f = some p → req.atomic = false → (s.dev.part p).extent a req.len ≠ .outside →
        (s.dev.part p).hitsWeights a req.len = false →
        exec (.bar2Request f off req) s = .next (s.onDev (fun d => d.bar2Serve f p a req))) ∧
      (28 ≤ v → v ≤ 36 → ∃ t : State, exec (.bar2Resize f v) s = .next t ∧ (t.dev.fn f).bar2Log2 = v ∧
        (t.dev.fn f).bar2Base = 0x3C0000000000))) ∧
  ((∀ (s : State) (i p n bank atom : Nat) (r : StackReq) (x : Stack) (ecc : EccOutcome), s.plat.up = true → i < 16 →
      x = s.dev.stack i → s.dev.stackOwner i = some p →
      (wholeReq r = true → x.port = [] → x.waiting.length < 8192 → behind x.waiting r = false → staleUnit (s.dev.part p) x r = none →
        ∀ q e, q = (s.dev.svc i).serve r (s.dev.part p).quota (s.dev.part p).gen →
        e = s.dev.endSvc i p { q.2 with st := { q.2.st with
          reply := if r.write.isNone then some (plain q.1, poisoned q.1) else q.2.st.reply } } → s.dev.affords e = true →
        exec (.baseDieRequest i r) s = .next { s with dev := e }) ∧
      exec (.throttleRelease i n) s = .next (s.onDev (fun d =>
        (d.modStack i (fun x => { x with tokens := min 4096 (x.tokens + n) })).resumeStacks p [i])) ∧
      (∀ y, (s.dev.part p).layout = some y → n ∈ x.conv → exec (.tagConversionDone i n) s = .next (s.onDev (fun d =>
        (d.converted i p n y).resumeStacks p ((List.range 4).map (fun k => i / 4 * 4 + k))))) ∧
      (bank < 32 → ∃ t : State, exec (.dramRefresh i bank) s = .next t ∧
        Tab.find (t.dev.stack i).refreshed bank = some s.dev.now) ∧
      (atom < stackBytes / 32 → ∀ v e, v = ((s.dev.svc i).readAtom atom ecc).2 →
        e = s.dev.endSvc i p { v with st := { v.st with scrubbed := v.st.scrubbed + 1 } } → s.dev.affords e = true →
        exec (.backgroundAtomScrub i atom ecc) s = .next { s with dev := e })) ∧
    (∀ (s : State) (l dir mask m : Nat) (x : Link), s.plat.up = true → l < 10 → x = s.dev.link l →
      (dir < 2 → x.state = 0 → x.runStart = none → ∃ t : State, exec (.flitCrcFailure l dir) s = .next t ∧
        (t.dev.link l).crc = Tab.bump x.crc dir 1 ∧ (t.dev.link l).runCount = 1 ∧ (t.dev.link l).runStart = some s.dev.now) ∧
      (x.state = 0 → x.runStart.isSome = true → 16 ≤ x.runCount → x.lastRetrain = none →
        ∃ t : State, exec (.replayRunExhausted l) s = .next t ∧ (t.dev.link l).state = 1 ∧ t.plat = s.plat) ∧
      (x.state = 1 → lanesUp (Link.reset l).lanes mask = some m →
        ∃ d : Dev, exec (.retrainComplete l mask) s = .next { s with dev := d.resumeLinks } ∧ (d.link l).state = 0 ∧
          (d.link l).lanes = min m x.lanes ∧ (d.link l).retrains = x.retrains + 1)) ∧
    (∀ (s : State) (cl level unit kind core : Nat), s.plat.up = true →
      (hubExists level unit = true → exec (.usneaHubFailure level unit) s = .next { s with
        dev := s.dev.failHub level unit
        plat := { s.plat with mgmt := s.plat.mgmt ++ [⟨1, hubKey level unit⟩] } }) ∧
      (hopExists level unit = true → (s.dev.hub (hubKey level unit)).replays < 2 →
        ∃ t : State, exec (.usneaMessageCrcFailure level unit) s = .next t ∧
          (t.dev.hub (hubKey level unit)).replays = (s.dev.hub (hubKey level unit)).replays + 1) ∧
      (cl < 32 → (s.dev.cluster cl).failed = false →
        exec (.clusterControlCoreFailure cl) s = .next (s.onDev (fun d => d.failCluster cl))) ∧
      (s.dev.carnelian = true → s.dev.host.live = [] → ∃ t : State, exec (.carnelianFault kind) s = .next t ∧
        t.dev.carnelian = false) ∧
      (core < 8 →
        (∃ t : State, exec (.peridotWatchdog core) s = .next t ∧ t.plat.fault = true ∧ t.plat.alert = true ∧
          t.plat.mgmt = s.plat.mgmt ++ [⟨7, core⟩] ∧ t.plat.up = false) ∧
        (∃ t : State, exec (.peridotSramError core) s = .next t ∧ t.plat.fault = true ∧ t.plat.alert = true ∧
          t.plat.mgmt = s.plat.mgmt ++ [⟨7, core⟩] ∧ t.plat.up = false))))

/-- What no command undoes: a protection latch stays until LATCH_CLEAR, the firmware security version never falls, and
the fuse epoch never falls. -/
def Obligations.LatchesAndVersionsHold : Prop :=
  ∀ (i : Instr) (s t : State), exec i s = .next t →
    (s.plat.latch.isSome = true → (∀ mv ms, i ≠ .latchClear mv ms) → t.plat.latch = s.plat.latch) ∧
    s.plat.secVersion ≤ t.plat.secVersion ∧ s.plat.fuseEpoch ≤ t.plat.fuseEpoch
end

