-- ==== Sys2Proof/Laws/State.lean ====
section
/-!
SUPPORT. What each update of the state leaves as it was: one lemma per field per update, all by unfolding, so that no
proof opens a record update.
-/

namespace Sys2Proof.Machine

@[simp] theorem onDev_plat (s : State) (f : Dev → Dev) : (s.onDev f).plat = s.plat := rfl
@[simp] theorem onDev_dev (s : State) (f : Dev → Dev) : (s.onDev f).dev = f s.dev := rfl
@[simp] theorem onDev_pending (s : State) (f : Dev → Dev) : (s.onDev f).pending = s.pending := rfl
@[simp] theorem setCore_now (d : Dev) (c : Nat) (k : Core) : (d.setCore c k).now = d.now := rfl
@[simp] theorem setCore_free (d : Dev) (c : Nat) (k : Core) : (d.setCore c k).free = d.free := rfl
@[simp] theorem setCore_host (d : Dev) (c : Nat) (k : Core) : (d.setCore c k).host = d.host := rfl
@[simp] theorem setCore_parts (d : Dev) (c : Nat) (k : Core) : (d.setCore c k).parts = d.parts := rfl
@[simp] theorem setCore_clusters (d : Dev) (c : Nat) (k : Core) : (d.setCore c k).clusters = d.clusters := rfl
@[simp] theorem setCore_beryl (d : Dev) (c : Nat) (k : Core) : (d.setCore c k).beryl = d.beryl := rfl
@[simp] theorem setCore_tier (d : Dev) (c : Nat) (k : Core) : (d.setCore c k).tier = d.tier := rfl
@[simp] theorem setCore_tlb (d : Dev) (c : Nat) (k : Core) : (d.setCore c k).tlb = d.tlb := rfl
@[simp] theorem setCore_links (d : Dev) (c : Nat) (k : Core) : (d.setCore c k).links = d.links := rfl
@[simp] theorem setCore_hubs (d : Dev) (c : Nat) (k : Core) : (d.setCore c k).hubs = d.hubs := rfl
@[simp] theorem setCore_engines (d : Dev) (c : Nat) (k : Core) : (d.setCore c k).engines = d.engines := rfl
@[simp] theorem setCore_modEvents (d : Dev) (c : Nat) (k : Core) : (d.setCore c k).modEvents = d.modEvents := rfl
@[simp] theorem setCore_carnelian (d : Dev) (c : Nat) (k : Core) : (d.setCore c k).carnelian = d.carnelian := rfl
@[simp] theorem setCore_mctp (d : Dev) (c : Nat) (k : Core) : (d.setCore c k).mctp = d.mctp := rfl
@[simp] theorem setCore_spdmReply (d : Dev) (c : Nat) (k : Core) : (d.setCore c k).spdmReply = d.spdmReply := rfl
@[simp] theorem setCore_reports (d : Dev) (c : Nat) (k : Core) : (d.setCore c k).reports = d.reports := rfl

@[simp] theorem modCore_now (d : Dev) (c : Nat) (f : Core → Core) : (d.modCore c f).now = d.now := rfl
@[simp] theorem modCore_free (d : Dev) (c : Nat) (f : Core → Core) : (d.modCore c f).free = d.free := rfl
@[simp] theorem modCore_host (d : Dev) (c : Nat) (f : Core → Core) : (d.modCore c f).host = d.host := rfl
@[simp] theorem modCore_parts (d : Dev) (c : Nat) (f : Core → Core) : (d.modCore c f).parts = d.parts := rfl
@[simp] theorem modCore_clusters (d : Dev) (c : Nat) (f : Core → Core) : (d.modCore c f).clusters = d.clusters := rfl
@[simp] theorem modCore_beryl (d : Dev) (c : Nat) (f : Core → Core) : (d.modCore c f).beryl = d.beryl := rfl
@[simp] theorem modCore_tier (d : Dev) (c : Nat) (f : Core → Core) : (d.modCore c f).tier = d.tier := rfl
@[simp] theorem modCore_tlb (d : Dev) (c : Nat) (f : Core → Core) : (d.modCore c f).tlb = d.tlb := rfl
@[simp] theorem modCore_links (d : Dev) (c : Nat) (f : Core → Core) : (d.modCore c f).links = d.links := rfl
@[simp] theorem modCore_hubs (d : Dev) (c : Nat) (f : Core → Core) : (d.modCore c f).hubs = d.hubs := rfl
@[simp] theorem modCore_engines (d : Dev) (c : Nat) (f : Core → Core) : (d.modCore c f).engines = d.engines := rfl
@[simp] theorem modCore_modEvents (d : Dev) (c : Nat) (f : Core → Core) : (d.modCore c f).modEvents = d.modEvents := rfl
@[simp] theorem modCore_carnelian (d : Dev) (c : Nat) (f : Core → Core) : (d.modCore c f).carnelian = d.carnelian := rfl
@[simp] theorem modCore_mctp (d : Dev) (c : Nat) (f : Core → Core) : (d.modCore c f).mctp = d.mctp := rfl
@[simp] theorem modCore_spdmReply (d : Dev) (c : Nat) (f : Core → Core) : (d.modCore c f).spdmReply = d.spdmReply := rfl
@[simp] theorem modCore_reports (d : Dev) (c : Nat) (f : Core → Core) : (d.modCore c f).reports = d.reports := rfl

@[simp] theorem setPart_now (d : Dev) (p : Nat) (x : Part) : (d.setPart p x).now = d.now := rfl
@[simp] theorem setPart_free (d : Dev) (p : Nat) (x : Part) : (d.setPart p x).free = d.free := rfl
@[simp] theorem setPart_host (d : Dev) (p : Nat) (x : Part) : (d.setPart p x).host = d.host := rfl
@[simp] theorem setPart_cores (d : Dev) (p : Nat) (x : Part) : (d.setPart p x).cores = d.cores := rfl
@[simp] theorem setPart_clusters (d : Dev) (p : Nat) (x : Part) : (d.setPart p x).clusters = d.clusters := rfl
@[simp] theorem setPart_beryl (d : Dev) (p : Nat) (x : Part) : (d.setPart p x).beryl = d.beryl := rfl
@[simp] theorem setPart_tier (d : Dev) (p : Nat) (x : Part) : (d.setPart p x).tier = d.tier := rfl
@[simp] theorem setPart_tlb (d : Dev) (p : Nat) (x : Part) : (d.setPart p x).tlb = d.tlb := rfl
@[simp] theorem setPart_links (d : Dev) (p : Nat) (x : Part) : (d.setPart p x).links = d.links := rfl
@[simp] theorem setPart_hubs (d : Dev) (p : Nat) (x : Part) : (d.setPart p x).hubs = d.hubs := rfl
@[simp] theorem setPart_engines (d : Dev) (p : Nat) (x : Part) : (d.setPart p x).engines = d.engines := rfl
@[simp] theorem setPart_modEvents (d : Dev) (p : Nat) (x : Part) : (d.setPart p x).modEvents = d.modEvents := rfl
@[simp] theorem setPart_carnelian (d : Dev) (p : Nat) (x : Part) : (d.setPart p x).carnelian = d.carnelian := rfl
@[simp] theorem setPart_mctp (d : Dev) (p : Nat) (x : Part) : (d.setPart p x).mctp = d.mctp := rfl
@[simp] theorem setPart_spdmReply (d : Dev) (p : Nat) (x : Part) : (d.setPart p x).spdmReply = d.spdmReply := rfl
@[simp] theorem setPart_reports (d : Dev) (p : Nat) (x : Part) : (d.setPart p x).reports = d.reports := rfl

@[simp] theorem modPart_now (d : Dev) (p : Nat) (f : Part → Part) : (d.modPart p f).now = d.now := rfl
@[simp] theorem modPart_free (d : Dev) (p : Nat) (f : Part → Part) : (d.modPart p f).free = d.free := rfl
@[simp] theorem modPart_host (d : Dev) (p : Nat) (f : Part → Part) : (d.modPart p f).host = d.host := rfl
@[simp] theorem modPart_cores (d : Dev) (p : Nat) (f : Part → Part) : (d.modPart p f).cores = d.cores := rfl
@[simp] theorem modPart_clusters (d : Dev) (p : Nat) (f : Part → Part) : (d.modPart p f).clusters = d.clusters := rfl
@[simp] theorem modPart_beryl (d : Dev) (p : Nat) (f : Part → Part) : (d.modPart p f).beryl = d.beryl := rfl
@[simp] theorem modPart_tier (d : Dev) (p : Nat) (f : Part → Part) : (d.modPart p f).tier = d.tier := rfl
@[simp] theorem modPart_tlb (d : Dev) (p : Nat) (f : Part → Part) : (d.modPart p f).tlb = d.tlb := rfl
@[simp] theorem modPart_links (d : Dev) (p : Nat) (f : Part → Part) : (d.modPart p f).links = d.links := rfl
@[simp] theorem modPart_hubs (d : Dev) (p : Nat) (f : Part → Part) : (d.modPart p f).hubs = d.hubs := rfl
@[simp] theorem modPart_engines (d : Dev) (p : Nat) (f : Part → Part) : (d.modPart p f).engines = d.engines := rfl
@[simp] theorem modPart_modEvents (d : Dev) (p : Nat) (f : Part → Part) : (d.modPart p f).modEvents = d.modEvents := rfl
@[simp] theorem modPart_carnelian (d : Dev) (p : Nat) (f : Part → Part) : (d.modPart p f).carnelian = d.carnelian := rfl
@[simp] theorem modPart_mctp (d : Dev) (p : Nat) (f : Part → Part) : (d.modPart p f).mctp = d.mctp := rfl
@[simp] theorem modPart_spdmReply (d : Dev) (p : Nat) (f : Part → Part) : (d.modPart p f).spdmReply = d.spdmReply := rfl
@[simp] theorem modPart_reports (d : Dev) (p : Nat) (f : Part → Part) : (d.modPart p f).reports = d.reports := rfl

@[simp] theorem setCluster_now (d : Dev) (c : Nat) (x : Cluster) : (d.setCluster c x).now = d.now := rfl
@[simp] theorem setCluster_free (d : Dev) (c : Nat) (x : Cluster) : (d.setCluster c x).free = d.free := rfl
@[simp] theorem setCluster_host (d : Dev) (c : Nat) (x : Cluster) : (d.setCluster c x).host = d.host := rfl
@[simp] theorem setCluster_parts (d : Dev) (c : Nat) (x : Cluster) : (d.setCluster c x).parts = d.parts := rfl
@[simp] theorem setCluster_cores (d : Dev) (c : Nat) (x : Cluster) : (d.setCluster c x).cores = d.cores := rfl
@[simp] theorem setCluster_beryl (d : Dev) (c : Nat) (x : Cluster) : (d.setCluster c x).beryl = d.beryl := rfl
@[simp] theorem setCluster_tier (d : Dev) (c : Nat) (x : Cluster) : (d.setCluster c x).tier = d.tier := rfl
@[simp] theorem setCluster_tlb (d : Dev) (c : Nat) (x : Cluster) : (d.setCluster c x).tlb = d.tlb := rfl
@[simp] theorem setCluster_links (d : Dev) (c : Nat) (x : Cluster) : (d.setCluster c x).links = d.links := rfl
@[simp] theorem setCluster_hubs (d : Dev) (c : Nat) (x : Cluster) : (d.setCluster c x).hubs = d.hubs := rfl
@[simp] theorem setCluster_engines (d : Dev) (c : Nat) (x : Cluster) : (d.setCluster c x).engines = d.engines := rfl
@[simp] theorem setCluster_modEvents (d : Dev) (c : Nat) (x : Cluster) : (d.setCluster c x).modEvents = d.modEvents := rfl
@[simp] theorem setCluster_carnelian (d : Dev) (c : Nat) (x : Cluster) : (d.setCluster c x).carnelian = d.carnelian := rfl
@[simp] theorem setCluster_mctp (d : Dev) (c : Nat) (x : Cluster) : (d.setCluster c x).mctp = d.mctp := rfl
@[simp] theorem setCluster_spdmReply (d : Dev) (c : Nat) (x : Cluster) : (d.setCluster c x).spdmReply = d.spdmReply := rfl
@[simp] theorem setCluster_reports (d : Dev) (c : Nat) (x : Cluster) : (d.setCluster c x).reports = d.reports := rfl

@[simp] theorem modCluster_now (d : Dev) (c : Nat) (f : Cluster → Cluster) : (d.modCluster c f).now = d.now := rfl
@[simp] theorem modCluster_free (d : Dev) (c : Nat) (f : Cluster → Cluster) : (d.modCluster c f).free = d.free := rfl
@[simp] theorem modCluster_host (d : Dev) (c : Nat) (f : Cluster → Cluster) : (d.modCluster c f).host = d.host := rfl
@[simp] theorem modCluster_parts (d : Dev) (c : Nat) (f : Cluster → Cluster) : (d.modCluster c f).parts = d.parts := rfl
@[simp] theorem modCluster_cores (d : Dev) (c : Nat) (f : Cluster → Cluster) : (d.modCluster c f).cores = d.cores := rfl
@[simp] theorem modCluster_beryl (d : Dev) (c : Nat) (f : Cluster → Cluster) : (d.modCluster c f).beryl = d.beryl := rfl
@[simp] theorem modCluster_tier (d : Dev) (c : Nat) (f : Cluster → Cluster) : (d.modCluster c f).tier = d.tier := rfl
@[simp] theorem modCluster_tlb (d : Dev) (c : Nat) (f : Cluster → Cluster) : (d.modCluster c f).tlb = d.tlb := rfl
@[simp] theorem modCluster_links (d : Dev) (c : Nat) (f : Cluster → Cluster) : (d.modCluster c f).links = d.links := rfl
@[simp] theorem modCluster_hubs (d : Dev) (c : Nat) (f : Cluster → Cluster) : (d.modCluster c f).hubs = d.hubs := rfl
@[simp] theorem modCluster_engines (d : Dev) (c : Nat) (f : Cluster → Cluster) : (d.modCluster c f).engines = d.engines := rfl
@[simp] theorem modCluster_modEvents (d : Dev) (c : Nat) (f : Cluster → Cluster) : (d.modCluster c f).modEvents = d.modEvents := rfl
@[simp] theorem modCluster_carnelian (d : Dev) (c : Nat) (f : Cluster → Cluster) : (d.modCluster c f).carnelian = d.carnelian := rfl
@[simp] theorem modCluster_mctp (d : Dev) (c : Nat) (f : Cluster → Cluster) : (d.modCluster c f).mctp = d.mctp := rfl
@[simp] theorem modCluster_spdmReply (d : Dev) (c : Nat) (f : Cluster → Cluster) : (d.modCluster c f).spdmReply = d.spdmReply := rfl
@[simp] theorem modCluster_reports (d : Dev) (c : Nat) (f : Cluster → Cluster) : (d.modCluster c f).reports = d.reports := rfl

@[simp] theorem setStack_now (d : Dev) (n : Nat) (x : Stack) : (d.setStack n x).now = d.now := rfl
@[simp] theorem setStack_free (d : Dev) (n : Nat) (x : Stack) : (d.setStack n x).free = d.free := rfl
@[simp] theorem setStack_host (d : Dev) (n : Nat) (x : Stack) : (d.setStack n x).host = d.host := rfl
@[simp] theorem setStack_parts (d : Dev) (n : Nat) (x : Stack) : (d.setStack n x).parts = d.parts := rfl
@[simp] theorem setStack_cores (d : Dev) (n : Nat) (x : Stack) : (d.setStack n x).cores = d.cores := rfl
@[simp] theorem setStack_clusters (d : Dev) (n : Nat) (x : Stack) : (d.setStack n x).clusters = d.clusters := rfl
@[simp] theorem setStack_tier (d : Dev) (n : Nat) (x : Stack) : (d.setStack n x).tier = d.tier := rfl
@[simp] theorem setStack_tlb (d : Dev) (n : Nat) (x : Stack) : (d.setStack n x).tlb = d.tlb := rfl
@[simp] theorem setStack_links (d : Dev) (n : Nat) (x : Stack) : (d.setStack n x).links = d.links := rfl
@[simp] theorem setStack_hubs (d : Dev) (n : Nat) (x : Stack) : (d.setStack n x).hubs = d.hubs := rfl
@[simp] theorem setStack_engines (d : Dev) (n : Nat) (x : Stack) : (d.setStack n x).engines = d.engines := rfl
@[simp] theorem setStack_modEvents (d : Dev) (n : Nat) (x : Stack) : (d.setStack n x).modEvents = d.modEvents := rfl
@[simp] theorem setStack_carnelian (d : Dev) (n : Nat) (x : Stack) : (d.setStack n x).carnelian = d.carnelian := rfl
@[simp] theorem setStack_mctp (d : Dev) (n : Nat) (x : Stack) : (d.setStack n x).mctp = d.mctp := rfl
@[simp] theorem setStack_spdmReply (d : Dev) (n : Nat) (x : Stack) : (d.setStack n x).spdmReply = d.spdmReply := rfl
@[simp] theorem setStack_reports (d : Dev) (n : Nat) (x : Stack) : (d.setStack n x).reports = d.reports := rfl

@[simp] theorem modStack_now (d : Dev) (n : Nat) (f : Stack → Stack) : (d.modStack n f).now = d.now := rfl
@[simp] theorem modStack_free (d : Dev) (n : Nat) (f : Stack → Stack) : (d.modStack n f).free = d.free := rfl
@[simp] theorem modStack_host (d : Dev) (n : Nat) (f : Stack → Stack) : (d.modStack n f).host = d.host := rfl
@[simp] theorem modStack_parts (d : Dev) (n : Nat) (f : Stack → Stack) : (d.modStack n f).parts = d.parts := rfl
@[simp] theorem modStack_cores (d : Dev) (n : Nat) (f : Stack → Stack) : (d.modStack n f).cores = d.cores := rfl
@[simp] theorem modStack_clusters (d : Dev) (n : Nat) (f : Stack → Stack) : (d.modStack n f).clusters = d.clusters := rfl
@[simp] theorem modStack_tier (d : Dev) (n : Nat) (f : Stack → Stack) : (d.modStack n f).tier = d.tier := rfl
@[simp] theorem modStack_tlb (d : Dev) (n : Nat) (f : Stack → Stack) : (d.modStack n f).tlb = d.tlb := rfl
@[simp] theorem modStack_links (d : Dev) (n : Nat) (f : Stack → Stack) : (d.modStack n f).links = d.links := rfl
@[simp] theorem modStack_hubs (d : Dev) (n : Nat) (f : Stack → Stack) : (d.modStack n f).hubs = d.hubs := rfl
@[simp] theorem modStack_engines (d : Dev) (n : Nat) (f : Stack → Stack) : (d.modStack n f).engines = d.engines := rfl
@[simp] theorem modStack_modEvents (d : Dev) (n : Nat) (f : Stack → Stack) : (d.modStack n f).modEvents = d.modEvents := rfl
@[simp] theorem modStack_carnelian (d : Dev) (n : Nat) (f : Stack → Stack) : (d.modStack n f).carnelian = d.carnelian := rfl
@[simp] theorem modStack_mctp (d : Dev) (n : Nat) (f : Stack → Stack) : (d.modStack n f).mctp = d.mctp := rfl
@[simp] theorem modStack_spdmReply (d : Dev) (n : Nat) (f : Stack → Stack) : (d.modStack n f).spdmReply = d.spdmReply := rfl
@[simp] theorem modStack_reports (d : Dev) (n : Nat) (f : Stack → Stack) : (d.modStack n f).reports = d.reports := rfl

@[simp] theorem modLink_now (d : Dev) (l : Nat) (f : Link → Link) : (d.modLink l f).now = d.now := rfl
@[simp] theorem modLink_free (d : Dev) (l : Nat) (f : Link → Link) : (d.modLink l f).free = d.free := rfl
@[simp] theorem modLink_host (d : Dev) (l : Nat) (f : Link → Link) : (d.modLink l f).host = d.host := rfl
@[simp] theorem modLink_parts (d : Dev) (l : Nat) (f : Link → Link) : (d.modLink l f).parts = d.parts := rfl
@[simp] theorem modLink_cores (d : Dev) (l : Nat) (f : Link → Link) : (d.modLink l f).cores = d.cores := rfl
@[simp] theorem modLink_clusters (d : Dev) (l : Nat) (f : Link → Link) : (d.modLink l f).clusters = d.clusters := rfl
@[simp] theorem modLink_beryl (d : Dev) (l : Nat) (f : Link → Link) : (d.modLink l f).beryl = d.beryl := rfl
@[simp] theorem modLink_tier (d : Dev) (l : Nat) (f : Link → Link) : (d.modLink l f).tier = d.tier := rfl
@[simp] theorem modLink_tlb (d : Dev) (l : Nat) (f : Link → Link) : (d.modLink l f).tlb = d.tlb := rfl
@[simp] theorem modLink_hubs (d : Dev) (l : Nat) (f : Link → Link) : (d.modLink l f).hubs = d.hubs := rfl
@[simp] theorem modLink_engines (d : Dev) (l : Nat) (f : Link → Link) : (d.modLink l f).engines = d.engines := rfl
@[simp] theorem modLink_modEvents (d : Dev) (l : Nat) (f : Link → Link) : (d.modLink l f).modEvents = d.modEvents := rfl
@[simp] theorem modLink_carnelian (d : Dev) (l : Nat) (f : Link → Link) : (d.modLink l f).carnelian = d.carnelian := rfl
@[simp] theorem modLink_mctp (d : Dev) (l : Nat) (f : Link → Link) : (d.modLink l f).mctp = d.mctp := rfl
@[simp] theorem modLink_spdmReply (d : Dev) (l : Nat) (f : Link → Link) : (d.modLink l f).spdmReply = d.spdmReply := rfl
@[simp] theorem modLink_reports (d : Dev) (l : Nat) (f : Link → Link) : (d.modLink l f).reports = d.reports := rfl

@[simp] theorem modHub_now (d : Dev) (u : Nat) (f : Hub → Hub) : (d.modHub u f).now = d.now := rfl
@[simp] theorem modHub_free (d : Dev) (u : Nat) (f : Hub → Hub) : (d.modHub u f).free = d.free := rfl
@[simp] theorem modHub_host (d : Dev) (u : Nat) (f : Hub → Hub) : (d.modHub u f).host = d.host := rfl
@[simp] theorem modHub_parts (d : Dev) (u : Nat) (f : Hub → Hub) : (d.modHub u f).parts = d.parts := rfl
@[simp] theorem modHub_cores (d : Dev) (u : Nat) (f : Hub → Hub) : (d.modHub u f).cores = d.cores := rfl
@[simp] theorem modHub_clusters (d : Dev) (u : Nat) (f : Hub → Hub) : (d.modHub u f).clusters = d.clusters := rfl
@[simp] theorem modHub_beryl (d : Dev) (u : Nat) (f : Hub → Hub) : (d.modHub u f).beryl = d.beryl := rfl
@[simp] theorem modHub_tier (d : Dev) (u : Nat) (f : Hub → Hub) : (d.modHub u f).tier = d.tier := rfl
@[simp] theorem modHub_tlb (d : Dev) (u : Nat) (f : Hub → Hub) : (d.modHub u f).tlb = d.tlb := rfl
@[simp] theorem modHub_links (d : Dev) (u : Nat) (f : Hub → Hub) : (d.modHub u f).links = d.links := rfl
@[simp] theorem modHub_engines (d : Dev) (u : Nat) (f : Hub → Hub) : (d.modHub u f).engines = d.engines := rfl
@[simp] theorem modHub_modEvents (d : Dev) (u : Nat) (f : Hub → Hub) : (d.modHub u f).modEvents = d.modEvents := rfl
@[simp] theorem modHub_carnelian (d : Dev) (u : Nat) (f : Hub → Hub) : (d.modHub u f).carnelian = d.carnelian := rfl
@[simp] theorem modHub_mctp (d : Dev) (u : Nat) (f : Hub → Hub) : (d.modHub u f).mctp = d.mctp := rfl
@[simp] theorem modHub_spdmReply (d : Dev) (u : Nat) (f : Hub → Hub) : (d.modHub u f).spdmReply = d.spdmReply := rfl
@[simp] theorem modHub_reports (d : Dev) (u : Nat) (f : Hub → Hub) : (d.modHub u f).reports = d.reports := rfl

@[simp] theorem setEngine_now (d : Dev) (j : Nat) (x : Engine) : (d.setEngine j x).now = d.now := rfl
@[simp] theorem setEngine_free (d : Dev) (j : Nat) (x : Engine) : (d.setEngine j x).free = d.free := rfl
@[simp] theorem setEngine_host (d : Dev) (j : Nat) (x : Engine) : (d.setEngine j x).host = d.host := rfl
@[simp] theorem setEngine_parts (d : Dev) (j : Nat) (x : Engine) : (d.setEngine j x).parts = d.parts := rfl
@[simp] theorem setEngine_cores (d : Dev) (j : Nat) (x : Engine) : (d.setEngine j x).cores = d.cores := rfl
@[simp] theorem setEngine_clusters (d : Dev) (j : Nat) (x : Engine) : (d.setEngine j x).clusters = d.clusters := rfl
@[simp] theorem setEngine_beryl (d : Dev) (j : Nat) (x : Engine) : (d.setEngine j x).beryl = d.beryl := rfl
@[simp] theorem setEngine_tier (d : Dev) (j : Nat) (x : Engine) : (d.setEngine j x).tier = d.tier := rfl
@[simp] theorem setEngine_tlb (d : Dev) (j : Nat) (x : Engine) : (d.setEngine j x).tlb = d.tlb := rfl
@[simp] theorem setEngine_links (d : Dev) (j : Nat) (x : Engine) : (d.setEngine j x).links = d.links := rfl
@[simp] theorem setEngine_hubs (d : Dev) (j : Nat) (x : Engine) : (d.setEngine j x).hubs = d.hubs := rfl
@[simp] theorem setEngine_modEvents (d : Dev) (j : Nat) (x : Engine) : (d.setEngine j x).modEvents = d.modEvents := rfl
@[simp] theorem setEngine_carnelian (d : Dev) (j : Nat) (x : Engine) : (d.setEngine j x).carnelian = d.carnelian := rfl
@[simp] theorem setEngine_mctp (d : Dev) (j : Nat) (x : Engine) : (d.setEngine j x).mctp = d.mctp := rfl
@[simp] theorem setEngine_spdmReply (d : Dev) (j : Nat) (x : Engine) : (d.setEngine j x).spdmReply = d.spdmReply := rfl
@[simp] theorem setEngine_reports (d : Dev) (j : Nat) (x : Engine) : (d.setEngine j x).reports = d.reports := rfl

@[simp] theorem modEngine_now (d : Dev) (j : Nat) (f : Engine → Engine) : (d.modEngine j f).now = d.now := rfl
@[simp] theorem modEngine_free (d : Dev) (j : Nat) (f : Engine → Engine) : (d.modEngine j f).free = d.free := rfl
@[simp] theorem modEngine_host (d : Dev) (j : Nat) (f : Engine → Engine) : (d.modEngine j f).host = d.host := rfl
@[simp] theorem modEngine_parts (d : Dev) (j : Nat) (f : Engine → Engine) : (d.modEngine j f).parts = d.parts := rfl
@[simp] theorem modEngine_cores (d : Dev) (j : Nat) (f : Engine → Engine) : (d.modEngine j f).cores = d.cores := rfl
@[simp] theorem modEngine_clusters (d : Dev) (j : Nat) (f : Engine → Engine) : (d.modEngine j f).clusters = d.clusters := rfl
@[simp] theorem modEngine_beryl (d : Dev) (j : Nat) (f : Engine → Engine) : (d.modEngine j f).beryl = d.beryl := rfl
@[simp] theorem modEngine_tier (d : Dev) (j : Nat) (f : Engine → Engine) : (d.modEngine j f).tier = d.tier := rfl
@[simp] theorem modEngine_tlb (d : Dev) (j : Nat) (f : Engine → Engine) : (d.modEngine j f).tlb = d.tlb := rfl
@[simp] theorem modEngine_links (d : Dev) (j : Nat) (f : Engine → Engine) : (d.modEngine j f).links = d.links := rfl
@[simp] theorem modEngine_hubs (d : Dev) (j : Nat) (f : Engine → Engine) : (d.modEngine j f).hubs = d.hubs := rfl
@[simp] theorem modEngine_modEvents (d : Dev) (j : Nat) (f : Engine → Engine) : (d.modEngine j f).modEvents = d.modEvents := rfl
@[simp] theorem modEngine_carnelian (d : Dev) (j : Nat) (f : Engine → Engine) : (d.modEngine j f).carnelian = d.carnelian := rfl
@[simp] theorem modEngine_mctp (d : Dev) (j : Nat) (f : Engine → Engine) : (d.modEngine j f).mctp = d.mctp := rfl
@[simp] theorem modEngine_spdmReply (d : Dev) (j : Nat) (f : Engine → Engine) : (d.modEngine j f).spdmReply = d.spdmReply := rfl
@[simp] theorem modEngine_reports (d : Dev) (j : Nat) (f : Engine → Engine) : (d.modEngine j f).reports = d.reports := rfl

@[simp] theorem setFn_now (d : Dev) (n : Nat) (x : Fn) : (d.setFn n x).now = d.now := rfl
@[simp] theorem setFn_free (d : Dev) (n : Nat) (x : Fn) : (d.setFn n x).free = d.free := rfl
@[simp] theorem setFn_host_ports (d : Dev) (n : Nat) (x : Fn) : (d.setFn n x).host.ports = d.host.ports := rfl
@[simp] theorem setFn_host_live (d : Dev) (n : Nat) (x : Fn) : (d.setFn n x).host.live = d.host.live := rfl
@[simp] theorem setFn_host_gens (d : Dev) (n : Nat) (x : Fn) : (d.setFn n x).host.gens = d.host.gens := rfl
@[simp] theorem setFn_host_order (d : Dev) (n : Nat) (x : Fn) : (d.setFn n x).host.order = d.host.order := rfl
@[simp] theorem setFn_host_mem (d : Dev) (n : Nat) (x : Fn) : (d.setFn n x).host.mem = d.host.mem := rfl
@[simp] theorem setFn_host_late (d : Dev) (n : Nat) (x : Fn) : (d.setFn n x).host.late = d.host.late := rfl
@[simp] theorem setFn_parts (d : Dev) (n : Nat) (x : Fn) : (d.setFn n x).parts = d.parts := rfl
@[simp] theorem setFn_cores (d : Dev) (n : Nat) (x : Fn) : (d.setFn n x).cores = d.cores := rfl
@[simp] theorem setFn_clusters (d : Dev) (n : Nat) (x : Fn) : (d.setFn n x).clusters = d.clusters := rfl
@[simp] theorem setFn_beryl (d : Dev) (n : Nat) (x : Fn) : (d.setFn n x).beryl = d.beryl := rfl
@[simp] theorem setFn_tier (d : Dev) (n : Nat) (x : Fn) : (d.setFn n x).tier = d.tier := rfl
@[simp] theorem setFn_tlb (d : Dev) (n : Nat) (x : Fn) : (d.setFn n x).tlb = d.tlb := rfl
@[simp] theorem setFn_links (d : Dev) (n : Nat) (x : Fn) : (d.setFn n x).links = d.links := rfl
@[simp] theorem setFn_hubs (d : Dev) (n : Nat) (x : Fn) : (d.setFn n x).hubs = d.hubs := rfl
@[simp] theorem setFn_engines (d : Dev) (n : Nat) (x : Fn) : (d.setFn n x).engines = d.engines := rfl
@[simp] theorem setFn_modEvents (d : Dev) (n : Nat) (x : Fn) : (d.setFn n x).modEvents = d.modEvents := rfl
@[simp] theorem setFn_carnelian (d : Dev) (n : Nat) (x : Fn) : (d.setFn n x).carnelian = d.carnelian := rfl
@[simp] theorem setFn_mctp (d : Dev) (n : Nat) (x : Fn) : (d.setFn n x).mctp = d.mctp := rfl
@[simp] theorem setFn_spdmReply (d : Dev) (n : Nat) (x : Fn) : (d.setFn n x).spdmReply = d.spdmReply := rfl
@[simp] theorem setFn_reports (d : Dev) (n : Nat) (x : Fn) : (d.setFn n x).reports = d.reports := rfl

@[simp] theorem modFn_now (d : Dev) (n : Nat) (g : Fn → Fn) : (d.modFn n g).now = d.now := rfl
@[simp] theorem modFn_free (d : Dev) (n : Nat) (g : Fn → Fn) : (d.modFn n g).free = d.free := rfl
@[simp] theorem modFn_host_ports (d : Dev) (n : Nat) (g : Fn → Fn) : (d.modFn n g).host.ports = d.host.ports := rfl
@[simp] theorem modFn_host_live (d : Dev) (n : Nat) (g : Fn → Fn) : (d.modFn n g).host.live = d.host.live := rfl
@[simp] theorem modFn_host_gens (d : Dev) (n : Nat) (g : Fn → Fn) : (d.modFn n g).host.gens = d.host.gens := rfl
@[simp] theorem modFn_host_order (d : Dev) (n : Nat) (g : Fn → Fn) : (d.modFn n g).host.order = d.host.order := rfl
@[simp] theorem modFn_host_mem (d : Dev) (n : Nat) (g : Fn → Fn) : (d.modFn n g).host.mem = d.host.mem := rfl
@[simp] theorem modFn_host_late (d : Dev) (n : Nat) (g : Fn → Fn) : (d.modFn n g).host.late = d.host.late := rfl
@[simp] theorem modFn_parts (d : Dev) (n : Nat) (g : Fn → Fn) : (d.modFn n g).parts = d.parts := rfl
@[simp] theorem modFn_cores (d : Dev) (n : Nat) (g : Fn → Fn) : (d.modFn n g).cores = d.cores := rfl
@[simp] theorem modFn_clusters (d : Dev) (n : Nat) (g : Fn → Fn) : (d.modFn n g).clusters = d.clusters := rfl
@[simp] theorem modFn_beryl (d : Dev) (n : Nat) (g : Fn → Fn) : (d.modFn n g).beryl = d.beryl := rfl
@[simp] theorem modFn_tier (d : Dev) (n : Nat) (g : Fn → Fn) : (d.modFn n g).tier = d.tier := rfl
@[simp] theorem modFn_tlb (d : Dev) (n : Nat) (g : Fn → Fn) : (d.modFn n g).tlb = d.tlb := rfl
@[simp] theorem modFn_links (d : Dev) (n : Nat) (g : Fn → Fn) : (d.modFn n g).links = d.links := rfl
@[simp] theorem modFn_hubs (d : Dev) (n : Nat) (g : Fn → Fn) : (d.modFn n g).hubs = d.hubs := rfl
@[simp] theorem modFn_engines (d : Dev) (n : Nat) (g : Fn → Fn) : (d.modFn n g).engines = d.engines := rfl
@[simp] theorem modFn_modEvents (d : Dev) (n : Nat) (g : Fn → Fn) : (d.modFn n g).modEvents = d.modEvents := rfl
@[simp] theorem modFn_carnelian (d : Dev) (n : Nat) (g : Fn → Fn) : (d.modFn n g).carnelian = d.carnelian := rfl
@[simp] theorem modFn_mctp (d : Dev) (n : Nat) (g : Fn → Fn) : (d.modFn n g).mctp = d.mctp := rfl
@[simp] theorem modFn_spdmReply (d : Dev) (n : Nat) (g : Fn → Fn) : (d.modFn n g).spdmReply = d.spdmReply := rfl
@[simp] theorem modFn_reports (d : Dev) (n : Nat) (g : Fn → Fn) : (d.modFn n g).reports = d.reports := rfl

@[simp] theorem modPort_now (d : Dev) (n : Nat) (g : Port → Port) : (d.modPort n g).now = d.now := rfl
@[simp] theorem modPort_free (d : Dev) (n : Nat) (g : Port → Port) : (d.modPort n g).free = d.free := rfl
@[simp] theorem modPort_host_fns (d : Dev) (n : Nat) (g : Port → Port) : (d.modPort n g).host.fns = d.host.fns := rfl
@[simp] theorem modPort_host_live (d : Dev) (n : Nat) (g : Port → Port) : (d.modPort n g).host.live = d.host.live := rfl
@[simp] theorem modPort_host_gens (d : Dev) (n : Nat) (g : Port → Port) : (d.modPort n g).host.gens = d.host.gens := rfl
@[simp] theorem modPort_host_order (d : Dev) (n : Nat) (g : Port → Port) : (d.modPort n g).host.order = d.host.order := rfl
@[simp] theorem modPort_host_mem (d : Dev) (n : Nat) (g : Port → Port) : (d.modPort n g).host.mem = d.host.mem := rfl
@[simp] theorem modPort_host_late (d : Dev) (n : Nat) (g : Port → Port) : (d.modPort n g).host.late = d.host.late := rfl
@[simp] theorem modPort_parts (d : Dev) (n : Nat) (g : Port → Port) : (d.modPort n g).parts = d.parts := rfl
@[simp] theorem modPort_cores (d : Dev) (n : Nat) (g : Port → Port) : (d.modPort n g).cores = d.cores := rfl
@[simp] theorem modPort_clusters (d : Dev) (n : Nat) (g : Port → Port) : (d.modPort n g).clusters = d.clusters := rfl
@[simp] theorem modPort_beryl (d : Dev) (n : Nat) (g : Port → Port) : (d.modPort n g).beryl = d.beryl := rfl
@[simp] theorem modPort_tier (d : Dev) (n : Nat) (g : Port → Port) : (d.modPort n g).tier = d.tier := rfl
@[simp] theorem modPort_tlb (d : Dev) (n : Nat) (g : Port → Port) : (d.modPort n g).tlb = d.tlb := rfl
@[simp] theorem modPort_links (d : Dev) (n : Nat) (g : Port → Port) : (d.modPort n g).links = d.links := rfl
@[simp] theorem modPort_hubs (d : Dev) (n : Nat) (g : Port → Port) : (d.modPort n g).hubs = d.hubs := rfl
@[simp] theorem modPort_engines (d : Dev) (n : Nat) (g : Port → Port) : (d.modPort n g).engines = d.engines := rfl
@[simp] theorem modPort_modEvents (d : Dev) (n : Nat) (g : Port → Port) : (d.modPort n g).modEvents = d.modEvents := rfl
@[simp] theorem modPort_carnelian (d : Dev) (n : Nat) (g : Port → Port) : (d.modPort n g).carnelian = d.carnelian := rfl
@[simp] theorem modPort_mctp (d : Dev) (n : Nat) (g : Port → Port) : (d.modPort n g).mctp = d.mctp := rfl
@[simp] theorem modPort_spdmReply (d : Dev) (n : Nat) (g : Port → Port) : (d.modPort n g).spdmReply = d.spdmReply := rfl
@[simp] theorem modPort_reports (d : Dev) (n : Nat) (g : Port → Port) : (d.modPort n g).reports = d.reports := rfl

@[simp] theorem setCmd_now (d : Dev) (h : Nat) (x : Cmd) : (d.setCmd h x).now = d.now := rfl
@[simp] theorem setCmd_free (d : Dev) (h : Nat) (x : Cmd) : (d.setCmd h x).free = d.free := rfl
@[simp] theorem setCmd_host_fns (d : Dev) (h : Nat) (x : Cmd) : (d.setCmd h x).host.fns = d.host.fns := rfl
@[simp] theorem setCmd_host_ports (d : Dev) (h : Nat) (x : Cmd) : (d.setCmd h x).host.ports = d.host.ports := rfl
@[simp] theorem setCmd_host_gens (d : Dev) (h : Nat) (x : Cmd) : (d.setCmd h x).host.gens = d.host.gens := rfl
@[simp] theorem setCmd_host_order (d : Dev) (h : Nat) (x : Cmd) : (d.setCmd h x).host.order = d.host.order := rfl
@[simp] theorem setCmd_host_mem (d : Dev) (h : Nat) (x : Cmd) : (d.setCmd h x).host.mem = d.host.mem := rfl
@[simp] theorem setCmd_host_late (d : Dev) (h : Nat) (x : Cmd) : (d.setCmd h x).host.late = d.host.late := rfl
@[simp] theorem setCmd_parts (d : Dev) (h : Nat) (x : Cmd) : (d.setCmd h x).parts = d.parts := rfl
@[simp] theorem setCmd_cores (d : Dev) (h : Nat) (x : Cmd) : (d.setCmd h x).cores = d.cores := rfl
@[simp] theorem setCmd_clusters (d : Dev) (h : Nat) (x : Cmd) : (d.setCmd h x).clusters = d.clusters := rfl
@[simp] theorem setCmd_beryl (d : Dev) (h : Nat) (x : Cmd) : (d.setCmd h x).beryl = d.beryl := rfl
@[simp] theorem setCmd_tier (d : Dev) (h : Nat) (x : Cmd) : (d.setCmd h x).tier = d.tier := rfl
@[simp] theorem setCmd_tlb (d : Dev) (h : Nat) (x : Cmd) : (d.setCmd h x).tlb = d.tlb := rfl
@[simp] theorem setCmd_links (d : Dev) (h : Nat) (x : Cmd) : (d.setCmd h x).links = d.links := rfl
@[simp] theorem setCmd_hubs (d : Dev) (h : Nat) (x : Cmd) : (d.setCmd h x).hubs = d.hubs := rfl
@[simp] theorem setCmd_engines (d : Dev) (h : Nat) (x : Cmd) : (d.setCmd h x).engines = d.engines := rfl
@[simp] theorem setCmd_modEvents (d : Dev) (h : Nat) (x : Cmd) : (d.setCmd h x).modEvents = d.modEvents := rfl
@[simp] theorem setCmd_carnelian (d : Dev) (h : Nat) (x : Cmd) : (d.setCmd h x).carnelian = d.carnelian := rfl
@[simp] theorem setCmd_mctp (d : Dev) (h : Nat) (x : Cmd) : (d.setCmd h x).mctp = d.mctp := rfl
@[simp] theorem setCmd_spdmReply (d : Dev) (h : Nat) (x : Cmd) : (d.setCmd h x).spdmReply = d.spdmReply := rfl
@[simp] theorem setCmd_reports (d : Dev) (h : Nat) (x : Cmd) : (d.setCmd h x).reports = d.reports := rfl

@[simp] theorem reach_free (d : Dev) (t : Nat) : (d.reach t).free = d.free := rfl
@[simp] theorem reach_host (d : Dev) (t : Nat) : (d.reach t).host = d.host := rfl
@[simp] theorem reach_parts (d : Dev) (t : Nat) : (d.reach t).parts = d.parts := rfl
@[simp] theorem reach_cores (d : Dev) (t : Nat) : (d.reach t).cores = d.cores := rfl
@[simp] theorem reach_clusters (d : Dev) (t : Nat) : (d.reach t).clusters = d.clusters := rfl
@[simp] theorem reach_beryl (d : Dev) (t : Nat) : (d.reach t).beryl = d.beryl := rfl
@[simp] theorem reach_tier (d : Dev) (t : Nat) : (d.reach t).tier = d.tier := rfl
@[simp] theorem reach_tlb (d : Dev) (t : Nat) : (d.reach t).tlb = d.tlb := rfl
@[simp] theorem reach_links (d : Dev) (t : Nat) : (d.reach t).links = d.links := rfl
@[simp] theorem reach_hubs (d : Dev) (t : Nat) : (d.reach t).hubs = d.hubs := rfl
@[simp] theorem reach_engines (d : Dev) (t : Nat) : (d.reach t).engines = d.engines := rfl
@[simp] theorem reach_modEvents (d : Dev) (t : Nat) : (d.reach t).modEvents = d.modEvents := rfl
@[simp] theorem reach_carnelian (d : Dev) (t : Nat) : (d.reach t).carnelian = d.carnelian := rfl
@[simp] theorem reach_mctp (d : Dev) (t : Nat) : (d.reach t).mctp = d.mctp := rfl
@[simp] theorem reach_spdmReply (d : Dev) (t : Nat) : (d.reach t).spdmReply = d.spdmReply := rfl
@[simp] theorem reach_reports (d : Dev) (t : Nat) : (d.reach t).reports = d.reports := rfl

@[simp] theorem modEvent_now (d : Dev) (e : EventRec) : (d.modEvent e).now = d.now := rfl
@[simp] theorem modEvent_free (d : Dev) (e : EventRec) : (d.modEvent e).free = d.free := rfl
@[simp] theorem modEvent_host (d : Dev) (e : EventRec) : (d.modEvent e).host = d.host := rfl
@[simp] theorem modEvent_parts (d : Dev) (e : EventRec) : (d.modEvent e).parts = d.parts := rfl
@[simp] theorem modEvent_cores (d : Dev) (e : EventRec) : (d.modEvent e).cores = d.cores := rfl
@[simp] theorem modEvent_clusters (d : Dev) (e : EventRec) : (d.modEvent e).clusters = d.clusters := rfl
@[simp] theorem modEvent_beryl (d : Dev) (e : EventRec) : (d.modEvent e).beryl = d.beryl := rfl
@[simp] theorem modEvent_tier (d : Dev) (e : EventRec) : (d.modEvent e).tier = d.tier := rfl
@[simp] theorem modEvent_tlb (d : Dev) (e : EventRec) : (d.modEvent e).tlb = d.tlb := rfl
@[simp] theorem modEvent_links (d : Dev) (e : EventRec) : (d.modEvent e).links = d.links := rfl
@[simp] theorem modEvent_hubs (d : Dev) (e : EventRec) : (d.modEvent e).hubs = d.hubs := rfl
@[simp] theorem modEvent_engines (d : Dev) (e : EventRec) : (d.modEvent e).engines = d.engines := rfl
@[simp] theorem modEvent_carnelian (d : Dev) (e : EventRec) : (d.modEvent e).carnelian = d.carnelian := rfl
@[simp] theorem modEvent_mctp (d : Dev) (e : EventRec) : (d.modEvent e).mctp = d.mctp := rfl
@[simp] theorem modEvent_spdmReply (d : Dev) (e : EventRec) : (d.modEvent e).spdmReply = d.spdmReply := rfl
@[simp] theorem modEvent_reports (d : Dev) (e : EventRec) : (d.modEvent e).reports = d.reports := rfl

@[simp] theorem pushOp_now (d : Dev) (c : Nat) (w : Bytes) (st : Nat) (b : Bool) (x : Wait) : (d.pushOp c w st b x).now = d.now := rfl
@[simp] theorem pushOp_free (d : Dev) (c : Nat) (w : Bytes) (st : Nat) (b : Bool) (x : Wait) : (d.pushOp c w st b x).free = d.free := rfl
@[simp] theorem pushOp_host (d : Dev) (c : Nat) (w : Bytes) (st : Nat) (b : Bool) (x : Wait) : (d.pushOp c w st b x).host = d.host := rfl
@[simp] theorem pushOp_parts (d : Dev) (c : Nat) (w : Bytes) (st : Nat) (b : Bool) (x : Wait) : (d.pushOp c w st b x).parts = d.parts := rfl
@[simp] theorem pushOp_clusters (d : Dev) (c : Nat) (w : Bytes) (st : Nat) (b : Bool) (x : Wait) : (d.pushOp c w st b x).clusters = d.clusters := rfl
@[simp] theorem pushOp_beryl (d : Dev) (c : Nat) (w : Bytes) (st : Nat) (b : Bool) (x : Wait) : (d.pushOp c w st b x).beryl = d.beryl := rfl
@[simp] theorem pushOp_tier (d : Dev) (c : Nat) (w : Bytes) (st : Nat) (b : Bool) (x : Wait) : (d.pushOp c w st b x).tier = d.tier := rfl
@[simp] theorem pushOp_tlb (d : Dev) (c : Nat) (w : Bytes) (st : Nat) (b : Bool) (x : Wait) : (d.pushOp c w st b x).tlb = d.tlb := rfl
@[simp] theorem pushOp_links (d : Dev) (c : Nat) (w : Bytes) (st : Nat) (b : Bool) (x : Wait) : (d.pushOp c w st b x).links = d.links := rfl
@[simp] theorem pushOp_hubs (d : Dev) (c : Nat) (w : Bytes) (st : Nat) (b : Bool) (x : Wait) : (d.pushOp c w st b x).hubs = d.hubs := rfl
@[simp] theorem pushOp_engines (d : Dev) (c : Nat) (w : Bytes) (st : Nat) (b : Bool) (x : Wait) : (d.pushOp c w st b x).engines = d.engines := rfl
@[simp] theorem pushOp_modEvents (d : Dev) (c : Nat) (w : Bytes) (st : Nat) (b : Bool) (x : Wait) : (d.pushOp c w st b x).modEvents = d.modEvents := rfl
@[simp] theorem pushOp_carnelian (d : Dev) (c : Nat) (w : Bytes) (st : Nat) (b : Bool) (x : Wait) : (d.pushOp c w st b x).carnelian = d.carnelian := rfl
@[simp] theorem pushOp_mctp (d : Dev) (c : Nat) (w : Bytes) (st : Nat) (b : Bool) (x : Wait) : (d.pushOp c w st b x).mctp = d.mctp := rfl
@[simp] theorem pushOp_spdmReply (d : Dev) (c : Nat) (w : Bytes) (st : Nat) (b : Bool) (x : Wait) : (d.pushOp c w st b x).spdmReply = d.spdmReply := rfl
@[simp] theorem pushOp_reports (d : Dev) (c : Nat) (w : Bytes) (st : Nat) (b : Bool) (x : Wait) : (d.pushOp c w st b x).reports = d.reports := rfl

@[simp] theorem setCore_at_part (d : Dev) (c : Nat) (k : Core) (i : Nat) : (d.setCore c k).part i = d.part i := rfl
@[simp] theorem setCore_at_cluster (d : Dev) (c : Nat) (k : Core) (i : Nat) : (d.setCore c k).cluster i = d.cluster i := rfl
@[simp] theorem setCore_at_stack (d : Dev) (c : Nat) (k : Core) (i : Nat) : (d.setCore c k).stack i = d.stack i := rfl
@[simp] theorem setCore_at_link (d : Dev) (c : Nat) (k : Core) (i : Nat) : (d.setCore c k).link i = d.link i := rfl
@[simp] theorem setCore_at_hub (d : Dev) (c : Nat) (k : Core) (i : Nat) : (d.setCore c k).hub i = d.hub i := rfl
@[simp] theorem setCore_at_engine (d : Dev) (c : Nat) (k : Core) (i : Nat) : (d.setCore c k).engine i = d.engine i := rfl
@[simp] theorem setCore_at_fn (d : Dev) (c : Nat) (k : Core) (i : Nat) : (d.setCore c k).fn i = d.fn i := rfl
@[simp] theorem setCore_at_port (d : Dev) (c : Nat) (k : Core) (i : Nat) : (d.setCore c k).port i = d.port i := rfl
@[simp] theorem setCore_at_cmd (d : Dev) (c : Nat) (k : Core) (i : Nat) : (d.setCore c k).cmd i = d.cmd i := rfl

@[simp] theorem modCore_at_part (d : Dev) (c : Nat) (f : Core → Core) (i : Nat) : (d.modCore c f).part i = d.part i := rfl
@[simp] theorem modCore_at_cluster (d : Dev) (c : Nat) (f : Core → Core) (i : Nat) : (d.modCore c f).cluster i = d.cluster i := rfl
@[simp] theorem modCore_at_stack (d : Dev) (c : Nat) (f : Core → Core) (i : Nat) : (d.modCore c f).stack i = d.stack i := rfl
@[simp] theorem modCore_at_link (d : Dev) (c : Nat) (f : Core → Core) (i : Nat) : (d.modCore c f).link i = d.link i := rfl
@[simp] theorem modCore_at_hub (d : Dev) (c : Nat) (f : Core → Core) (i : Nat) : (d.modCore c f).hub i = d.hub i := rfl
@[simp] theorem modCore_at_engine (d : Dev) (c : Nat) (f : Core → Core) (i : Nat) : (d.modCore c f).engine i = d.engine i := rfl
@[simp] theorem modCore_at_fn (d : Dev) (c : Nat) (f : Core → Core) (i : Nat) : (d.modCore c f).fn i = d.fn i := rfl
@[simp] theorem modCore_at_port (d : Dev) (c : Nat) (f : Core → Core) (i : Nat) : (d.modCore c f).port i = d.port i := rfl
@[simp] theorem modCore_at_cmd (d : Dev) (c : Nat) (f : Core → Core) (i : Nat) : (d.modCore c f).cmd i = d.cmd i := rfl

@[simp] theorem setPart_at_core (d : Dev) (p : Nat) (x : Part) (i : Nat) : (d.setPart p x).core i = d.core i := rfl
@[simp] theorem setPart_at_cluster (d : Dev) (p : Nat) (x : Part) (i : Nat) : (d.setPart p x).cluster i = d.cluster i := rfl
@[simp] theorem setPart_at_stack (d : Dev) (p : Nat) (x : Part) (i : Nat) : (d.setPart p x).stack i = d.stack i := rfl
@[simp] theorem setPart_at_link (d : Dev) (p : Nat) (x : Part) (i : Nat) : (d.setPart p x).link i = d.link i := rfl
@[simp] theorem setPart_at_hub (d : Dev) (p : Nat) (x : Part) (i : Nat) : (d.setPart p x).hub i = d.hub i := rfl
@[simp] theorem setPart_at_engine (d : Dev) (p : Nat) (x : Part) (i : Nat) : (d.setPart p x).engine i = d.engine i := rfl
@[simp] theorem setPart_at_fn (d : Dev) (p : Nat) (x : Part) (i : Nat) : (d.setPart p x).fn i = d.fn i := rfl
@[simp] theorem setPart_at_port (d : Dev) (p : Nat) (x : Part) (i : Nat) : (d.setPart p x).port i = d.port i := rfl
@[simp] theorem setPart_at_cmd (d : Dev) (p : Nat) (x : Part) (i : Nat) : (d.setPart p x).cmd i = d.cmd i := rfl

@[simp] theorem modPart_at_core (d : Dev) (p : Nat) (f : Part → Part) (i : Nat) : (d.modPart p f).core i = d.core i := rfl
@[simp] theorem modPart_at_cluster (d : Dev) (p : Nat) (f : Part → Part) (i : Nat) : (d.modPart p f).cluster i = d.cluster i := rfl
@[simp] theorem modPart_at_stack (d : Dev) (p : Nat) (f : Part → Part) (i : Nat) : (d.modPart p f).stack i = d.stack i := rfl
@[simp] theorem modPart_at_link (d : Dev) (p : Nat) (f : Part → Part) (i : Nat) : (d.modPart p f).link i = d.link i := rfl
@[simp] theorem modPart_at_hub (d : Dev) (p : Nat) (f : Part → Part) (i : Nat) : (d.modPart p f).hub i = d.hub i := rfl
@[simp] theorem modPart_at_engine (d : Dev) (p : Nat) (f : Part → Part) (i : Nat) : (d.modPart p f).engine i = d.engine i := rfl
@[simp] theorem modPart_at_fn (d : Dev) (p : Nat) (f : Part → Part) (i : Nat) : (d.modPart p f).fn i = d.fn i := rfl
@[simp] theorem modPart_at_port (d : Dev) (p : Nat) (f : Part → Part) (i : Nat) : (d.modPart p f).port i = d.port i := rfl
@[simp] theorem modPart_at_cmd (d : Dev) (p : Nat) (f : Part → Part) (i : Nat) : (d.modPart p f).cmd i = d.cmd i := rfl

@[simp] theorem setCluster_at_core (d : Dev) (c : Nat) (x : Cluster) (i : Nat) : (d.setCluster c x).core i = d.core i := rfl
@[simp] theorem setCluster_at_part (d : Dev) (c : Nat) (x : Cluster) (i : Nat) : (d.setCluster c x).part i = d.part i := rfl
@[simp] theorem setCluster_at_stack (d : Dev) (c : Nat) (x : Cluster) (i : Nat) : (d.setCluster c x).stack i = d.stack i := rfl
@[simp] theorem setCluster_at_link (d : Dev) (c : Nat) (x : Cluster) (i : Nat) : (d.setCluster c x).link i = d.link i := rfl
@[simp] theorem setCluster_at_hub (d : Dev) (c : Nat) (x : Cluster) (i : Nat) : (d.setCluster c x).hub i = d.hub i := rfl
@[simp] theorem setCluster_at_engine (d : Dev) (c : Nat) (x : Cluster) (i : Nat) : (d.setCluster c x).engine i = d.engine i := rfl
@[simp] theorem setCluster_at_fn (d : Dev) (c : Nat) (x : Cluster) (i : Nat) : (d.setCluster c x).fn i = d.fn i := rfl
@[simp] theorem setCluster_at_port (d : Dev) (c : Nat) (x : Cluster) (i : Nat) : (d.setCluster c x).port i = d.port i := rfl
@[simp] theorem setCluster_at_cmd (d : Dev) (c : Nat) (x : Cluster) (i : Nat) : (d.setCluster c x).cmd i = d.cmd i := rfl

@[simp] theorem modCluster_at_core (d : Dev) (c : Nat) (f : Cluster → Cluster) (i : Nat) : (d.modCluster c f).core i = d.core i := rfl
@[simp] theorem modCluster_at_part (d : Dev) (c : Nat) (f : Cluster → Cluster) (i : Nat) : (d.modCluster c f).part i = d.part i := rfl
@[simp] theorem modCluster_at_stack (d : Dev) (c : Nat) (f : Cluster → Cluster) (i : Nat) : (d.modCluster c f).stack i = d.stack i := rfl
@[simp] theorem modCluster_at_link (d : Dev) (c : Nat) (f : Cluster → Cluster) (i : Nat) : (d.modCluster c f).link i = d.link i := rfl
@[simp] theorem modCluster_at_hub (d : Dev) (c : Nat) (f : Cluster → Cluster) (i : Nat) : (d.modCluster c f).hub i = d.hub i := rfl
@[simp] theorem modCluster_at_engine (d : Dev) (c : Nat) (f : Cluster → Cluster) (i : Nat) : (d.modCluster c f).engine i = d.engine i := rfl
@[simp] theorem modCluster_at_fn (d : Dev) (c : Nat) (f : Cluster → Cluster) (i : Nat) : (d.modCluster c f).fn i = d.fn i := rfl
@[simp] theorem modCluster_at_port (d : Dev) (c : Nat) (f : Cluster → Cluster) (i : Nat) : (d.modCluster c f).port i = d.port i := rfl
@[simp] theorem modCluster_at_cmd (d : Dev) (c : Nat) (f : Cluster → Cluster) (i : Nat) : (d.modCluster c f).cmd i = d.cmd i := rfl

@[simp] theorem setStack_at_core (d : Dev) (n : Nat) (x : Stack) (i : Nat) : (d.setStack n x).core i = d.core i := rfl
@[simp] theorem setStack_at_part (d : Dev) (n : Nat) (x : Stack) (i : Nat) : (d.setStack n x).part i = d.part i := rfl
@[simp] theorem setStack_at_cluster (d : Dev) (n : Nat) (x : Stack) (i : Nat) : (d.setStack n x).cluster i = d.cluster i := rfl
@[simp] theorem setStack_at_link (d : Dev) (n : Nat) (x : Stack) (i : Nat) : (d.setStack n x).link i = d.link i := rfl
@[simp] theorem setStack_at_hub (d : Dev) (n : Nat) (x : Stack) (i : Nat) : (d.setStack n x).hub i = d.hub i := rfl
@[simp] theorem setStack_at_engine (d : Dev) (n : Nat) (x : Stack) (i : Nat) : (d.setStack n x).engine i = d.engine i := rfl
@[simp] theorem setStack_at_fn (d : Dev) (n : Nat) (x : Stack) (i : Nat) : (d.setStack n x).fn i = d.fn i := rfl
@[simp] theorem setStack_at_port (d : Dev) (n : Nat) (x : Stack) (i : Nat) : (d.setStack n x).port i = d.port i := rfl
@[simp] theorem setStack_at_cmd (d : Dev) (n : Nat) (x : Stack) (i : Nat) : (d.setStack n x).cmd i = d.cmd i := rfl

@[simp] theorem modStack_at_core (d : Dev) (n : Nat) (f : Stack → Stack) (i : Nat) : (d.modStack n f).core i = d.core i := rfl
@[simp] theorem modStack_at_part (d : Dev) (n : Nat) (f : Stack → Stack) (i : Nat) : (d.modStack n f).part i = d.part i := rfl
@[simp] theorem modStack_at_cluster (d : Dev) (n : Nat) (f : Stack → Stack) (i : Nat) : (d.modStack n f).cluster i = d.cluster i := rfl
@[simp] theorem modStack_at_link (d : Dev) (n : Nat) (f : Stack → Stack) (i : Nat) : (d.modStack n f).link i = d.link i := rfl
@[simp] theorem modStack_at_hub (d : Dev) (n : Nat) (f : Stack → Stack) (i : Nat) : (d.modStack n f).hub i = d.hub i := rfl
@[simp] theorem modStack_at_engine (d : Dev) (n : Nat) (f : Stack → Stack) (i : Nat) : (d.modStack n f).engine i = d.engine i := rfl
@[simp] theorem modStack_at_fn (d : Dev) (n : Nat) (f : Stack → Stack) (i : Nat) : (d.modStack n f).fn i = d.fn i := rfl
@[simp] theorem modStack_at_port (d : Dev) (n : Nat) (f : Stack → Stack) (i : Nat) : (d.modStack n f).port i = d.port i := rfl
@[simp] theorem modStack_at_cmd (d : Dev) (n : Nat) (f : Stack → Stack) (i : Nat) : (d.modStack n f).cmd i = d.cmd i := rfl

@[simp] theorem modLink_at_core (d : Dev) (l : Nat) (f : Link → Link) (i : Nat) : (d.modLink l f).core i = d.core i := rfl
@[simp] theorem modLink_at_part (d : Dev) (l : Nat) (f : Link → Link) (i : Nat) : (d.modLink l f).part i = d.part i := rfl
@[simp] theorem modLink_at_cluster (d : Dev) (l : Nat) (f : Link → Link) (i : Nat) : (d.modLink l f).cluster i = d.cluster i := rfl
@[simp] theorem modLink_at_stack (d : Dev) (l : Nat) (f : Link → Link) (i : Nat) : (d.modLink l f).stack i = d.stack i := rfl
@[simp] theorem modLink_at_hub (d : Dev) (l : Nat) (f : Link → Link) (i : Nat) : (d.modLink l f).hub i = d.hub i := rfl
@[simp] theorem modLink_at_engine (d : Dev) (l : Nat) (f : Link → Link) (i : Nat) : (d.modLink l f).engine i = d.engine i := rfl
@[simp] theorem modLink_at_fn (d : Dev) (l : Nat) (f : Link → Link) (i : Nat) : (d.modLink l f).fn i = d.fn i := rfl
@[simp] theorem modLink_at_port (d : Dev) (l : Nat) (f : Link → Link) (i : Nat) : (d.modLink l f).port i = d.port i := rfl
@[simp] theorem modLink_at_cmd (d : Dev) (l : Nat) (f : Link → Link) (i : Nat) : (d.modLink l f).cmd i = d.cmd i := rfl

@[simp] theorem modHub_at_core (d : Dev) (u : Nat) (f : Hub → Hub) (i : Nat) : (d.modHub u f).core i = d.core i := rfl
@[simp] theorem modHub_at_part (d : Dev) (u : Nat) (f : Hub → Hub) (i : Nat) : (d.modHub u f).part i = d.part i := rfl
@[simp] theorem modHub_at_cluster (d : Dev) (u : Nat) (f : Hub → Hub) (i : Nat) : (d.modHub u f).cluster i = d.cluster i := rfl
@[simp] theorem modHub_at_stack (d : Dev) (u : Nat) (f : Hub → Hub) (i : Nat) : (d.modHub u f).stack i = d.stack i := rfl
@[simp] theorem modHub_at_link (d : Dev) (u : Nat) (f : Hub → Hub) (i : Nat) : (d.modHub u f).link i = d.link i := rfl
@[simp] theorem modHub_at_engine (d : Dev) (u : Nat) (f : Hub → Hub) (i : Nat) : (d.modHub u f).engine i = d.engine i := rfl
@[simp] theorem modHub_at_fn (d : Dev) (u : Nat) (f : Hub → Hub) (i : Nat) : (d.modHub u f).fn i = d.fn i := rfl
@[simp] theorem modHub_at_port (d : Dev) (u : Nat) (f : Hub → Hub) (i : Nat) : (d.modHub u f).port i = d.port i := rfl
@[simp] theorem modHub_at_cmd (d : Dev) (u : Nat) (f : Hub → Hub) (i : Nat) : (d.modHub u f).cmd i = d.cmd i := rfl

@[simp] theorem setEngine_at_core (d : Dev) (j : Nat) (x : Engine) (i : Nat) : (d.setEngine j x).core i = d.core i := rfl
@[simp] theorem setEngine_at_part (d : Dev) (j : Nat) (x : Engine) (i : Nat) : (d.setEngine j x).part i = d.part i := rfl
@[simp] theorem setEngine_at_cluster (d : Dev) (j : Nat) (x : Engine) (i : Nat) : (d.setEngine j x).cluster i = d.cluster i := rfl
@[simp] theorem setEngine_at_stack (d : Dev) (j : Nat) (x : Engine) (i : Nat) : (d.setEngine j x).stack i = d.stack i := rfl
@[simp] theorem setEngine_at_link (d : Dev) (j : Nat) (x : Engine) (i : Nat) : (d.setEngine j x).link i = d.link i := rfl
@[simp] theorem setEngine_at_hub (d : Dev) (j : Nat) (x : Engine) (i : Nat) : (d.setEngine j x).hub i = d.hub i := rfl
@[simp] theorem setEngine_at_fn (d : Dev) (j : Nat) (x : Engine) (i : Nat) : (d.setEngine j x).fn i = d.fn i := rfl
@[simp] theorem setEngine_at_port (d : Dev) (j : Nat) (x : Engine) (i : Nat) : (d.setEngine j x).port i = d.port i := rfl
@[simp] theorem setEngine_at_cmd (d : Dev) (j : Nat) (x : Engine) (i : Nat) : (d.setEngine j x).cmd i = d.cmd i := rfl

@[simp] theorem modEngine_at_core (d : Dev) (j : Nat) (f : Engine → Engine) (i : Nat) : (d.modEngine j f).core i = d.core i := rfl
@[simp] theorem modEngine_at_part (d : Dev) (j : Nat) (f : Engine → Engine) (i : Nat) : (d.modEngine j f).part i = d.part i := rfl
@[simp] theorem modEngine_at_cluster (d : Dev) (j : Nat) (f : Engine → Engine) (i : Nat) : (d.modEngine j f).cluster i = d.cluster i := rfl
@[simp] theorem modEngine_at_stack (d : Dev) (j : Nat) (f : Engine → Engine) (i : Nat) : (d.modEngine j f).stack i = d.stack i := rfl
@[simp] theorem modEngine_at_link (d : Dev) (j : Nat) (f : Engine → Engine) (i : Nat) : (d.modEngine j f).link i = d.link i := rfl
@[simp] theorem modEngine_at_hub (d : Dev) (j : Nat) (f : Engine → Engine) (i : Nat) : (d.modEngine j f).hub i = d.hub i := rfl
@[simp] theorem modEngine_at_fn (d : Dev) (j : Nat) (f : Engine → Engine) (i : Nat) : (d.modEngine j f).fn i = d.fn i := rfl
@[simp] theorem modEngine_at_port (d : Dev) (j : Nat) (f : Engine → Engine) (i : Nat) : (d.modEngine j f).port i = d.port i := rfl
@[simp] theorem modEngine_at_cmd (d : Dev) (j : Nat) (f : Engine → Engine) (i : Nat) : (d.modEngine j f).cmd i = d.cmd i := rfl

@[simp] theorem setFn_at_core (d : Dev) (n : Nat) (x : Fn) (i : Nat) : (d.setFn n x).core i = d.core i := rfl
@[simp] theorem setFn_at_part (d : Dev) (n : Nat) (x : Fn) (i : Nat) : (d.setFn n x).part i = d.part i := rfl
@[simp] theorem setFn_at_cluster (d : Dev) (n : Nat) (x : Fn) (i : Nat) : (d.setFn n x).cluster i = d.cluster i := rfl
@[simp] theorem setFn_at_stack (d : Dev) (n : Nat) (x : Fn) (i : Nat) : (d.setFn n x).stack i = d.stack i := rfl
@[simp] theorem setFn_at_link (d : Dev) (n : Nat) (x : Fn) (i : Nat) : (d.setFn n x).link i = d.link i := rfl
@[simp] theorem setFn_at_hub (d : Dev) (n : Nat) (x : Fn) (i : Nat) : (d.setFn n x).hub i = d.hub i := rfl
@[simp] theorem setFn_at_engine (d : Dev) (n : Nat) (x : Fn) (i : Nat) : (d.setFn n x).engine i = d.engine i := rfl
@[simp] theorem setFn_at_port (d : Dev) (n : Nat) (x : Fn) (i : Nat) : (d.setFn n x).port i = d.port i := rfl
@[simp] theorem setFn_at_cmd (d : Dev) (n : Nat) (x : Fn) (i : Nat) : (d.setFn n x).cmd i = d.cmd i := rfl

@[simp] theorem modFn_at_core (d : Dev) (n : Nat) (g : Fn → Fn) (i : Nat) : (d.modFn n g).core i = d.core i := rfl
@[simp] theorem modFn_at_part (d : Dev) (n : Nat) (g : Fn → Fn) (i : Nat) : (d.modFn n g).part i = d.part i := rfl
@[simp] theorem modFn_at_cluster (d : Dev) (n : Nat) (g : Fn → Fn) (i : Nat) : (d.modFn n g).cluster i = d.cluster i := rfl
@[simp] theorem modFn_at_stack (d : Dev) (n : Nat) (g : Fn → Fn) (i : Nat) : (d.modFn n g).stack i = d.stack i := rfl
@[simp] theorem modFn_at_link (d : Dev) (n : Nat) (g : Fn → Fn) (i : Nat) : (d.modFn n g).link i = d.link i := rfl
@[simp] theorem modFn_at_hub (d : Dev) (n : Nat) (g : Fn → Fn) (i : Nat) : (d.modFn n g).hub i = d.hub i := rfl
@[simp] theorem modFn_at_engine (d : Dev) (n : Nat) (g : Fn → Fn) (i : Nat) : (d.modFn n g).engine i = d.engine i := rfl
@[simp] theorem modFn_at_port (d : Dev) (n : Nat) (g : Fn → Fn) (i : Nat) : (d.modFn n g).port i = d.port i := rfl
@[simp] theorem modFn_at_cmd (d : Dev) (n : Nat) (g : Fn → Fn) (i : Nat) : (d.modFn n g).cmd i = d.cmd i := rfl

@[simp] theorem modPort_at_core (d : Dev) (n : Nat) (g : Port → Port) (i : Nat) : (d.modPort n g).core i = d.core i := rfl
@[simp] theorem modPort_at_part (d : Dev) (n : Nat) (g : Port → Port) (i : Nat) : (d.modPort n g).part i = d.part i := rfl
@[simp] theorem modPort_at_cluster (d : Dev) (n : Nat) (g : Port → Port) (i : Nat) : (d.modPort n g).cluster i = d.cluster i := rfl
@[simp] theorem modPort_at_stack (d : Dev) (n : Nat) (g : Port → Port) (i : Nat) : (d.modPort n g).stack i = d.stack i := rfl
@[simp] theorem modPort_at_link (d : Dev) (n : Nat) (g : Port → Port) (i : Nat) : (d.modPort n g).link i = d.link i := rfl
@[simp] theorem modPort_at_hub (d : Dev) (n : Nat) (g : Port → Port) (i : Nat) : (d.modPort n g).hub i = d.hub i := rfl
@[simp] theorem modPort_at_engine (d : Dev) (n : Nat) (g : Port → Port) (i : Nat) : (d.modPort n g).engine i = d.engine i := rfl
@[simp] theorem modPort_at_fn (d : Dev) (n : Nat) (g : Port → Port) (i : Nat) : (d.modPort n g).fn i = d.fn i := rfl
@[simp] theorem modPort_at_cmd (d : Dev) (n : Nat) (g : Port → Port) (i : Nat) : (d.modPort n g).cmd i = d.cmd i := rfl

@[simp] theorem setCmd_at_core (d : Dev) (h : Nat) (x : Cmd) (i : Nat) : (d.setCmd h x).core i = d.core i := rfl
@[simp] theorem setCmd_at_part (d : Dev) (h : Nat) (x : Cmd) (i : Nat) : (d.setCmd h x).part i = d.part i := rfl
@[simp] theorem setCmd_at_cluster (d : Dev) (h : Nat) (x : Cmd) (i : Nat) : (d.setCmd h x).cluster i = d.cluster i := rfl
@[simp] theorem setCmd_at_stack (d : Dev) (h : Nat) (x : Cmd) (i : Nat) : (d.setCmd h x).stack i = d.stack i := rfl
@[simp] theorem setCmd_at_link (d : Dev) (h : Nat) (x : Cmd) (i : Nat) : (d.setCmd h x).link i = d.link i := rfl
@[simp] theorem setCmd_at_hub (d : Dev) (h : Nat) (x : Cmd) (i : Nat) : (d.setCmd h x).hub i = d.hub i := rfl
@[simp] theorem setCmd_at_engine (d : Dev) (h : Nat) (x : Cmd) (i : Nat) : (d.setCmd h x).engine i = d.engine i := rfl
@[simp] theorem setCmd_at_fn (d : Dev) (h : Nat) (x : Cmd) (i : Nat) : (d.setCmd h x).fn i = d.fn i := rfl
@[simp] theorem setCmd_at_port (d : Dev) (h : Nat) (x : Cmd) (i : Nat) : (d.setCmd h x).port i = d.port i := rfl

@[simp] theorem reach_at_core (d : Dev) (t : Nat) (i : Nat) : (d.reach t).core i = d.core i := rfl
@[simp] theorem reach_at_part (d : Dev) (t : Nat) (i : Nat) : (d.reach t).part i = d.part i := rfl
@[simp] theorem reach_at_cluster (d : Dev) (t : Nat) (i : Nat) : (d.reach t).cluster i = d.cluster i := rfl
@[simp] theorem reach_at_stack (d : Dev) (t : Nat) (i : Nat) : (d.reach t).stack i = d.stack i := rfl
@[simp] theorem reach_at_link (d : Dev) (t : Nat) (i : Nat) : (d.reach t).link i = d.link i := rfl
@[simp] theorem reach_at_hub (d : Dev) (t : Nat) (i : Nat) : (d.reach t).hub i = d.hub i := rfl
@[simp] theorem reach_at_engine (d : Dev) (t : Nat) (i : Nat) : (d.reach t).engine i = d.engine i := rfl
@[simp] theorem reach_at_fn (d : Dev) (t : Nat) (i : Nat) : (d.reach t).fn i = d.fn i := rfl
@[simp] theorem reach_at_port (d : Dev) (t : Nat) (i : Nat) : (d.reach t).port i = d.port i := rfl
@[simp] theorem reach_at_cmd (d : Dev) (t : Nat) (i : Nat) : (d.reach t).cmd i = d.cmd i := rfl

@[simp] theorem modEvent_at_core (d : Dev) (e : EventRec) (i : Nat) : (d.modEvent e).core i = d.core i := rfl
@[simp] theorem modEvent_at_part (d : Dev) (e : EventRec) (i : Nat) : (d.modEvent e).part i = d.part i := rfl
@[simp] theorem modEvent_at_cluster (d : Dev) (e : EventRec) (i : Nat) : (d.modEvent e).cluster i = d.cluster i := rfl
@[simp] theorem modEvent_at_stack (d : Dev) (e : EventRec) (i : Nat) : (d.modEvent e).stack i = d.stack i := rfl
@[simp] theorem modEvent_at_link (d : Dev) (e : EventRec) (i : Nat) : (d.modEvent e).link i = d.link i := rfl
@[simp] theorem modEvent_at_hub (d : Dev) (e : EventRec) (i : Nat) : (d.modEvent e).hub i = d.hub i := rfl
@[simp] theorem modEvent_at_engine (d : Dev) (e : EventRec) (i : Nat) : (d.modEvent e).engine i = d.engine i := rfl
@[simp] theorem modEvent_at_fn (d : Dev) (e : EventRec) (i : Nat) : (d.modEvent e).fn i = d.fn i := rfl
@[simp] theorem modEvent_at_port (d : Dev) (e : EventRec) (i : Nat) : (d.modEvent e).port i = d.port i := rfl
@[simp] theorem modEvent_at_cmd (d : Dev) (e : EventRec) (i : Nat) : (d.modEvent e).cmd i = d.cmd i := rfl

@[simp] theorem pushOp_at_part (d : Dev) (c : Nat) (w : Bytes) (st : Nat) (b : Bool) (x : Wait) (i : Nat) : (d.pushOp c w st b x).part i = d.part i := rfl
@[simp] theorem pushOp_at_cluster (d : Dev) (c : Nat) (w : Bytes) (st : Nat) (b : Bool) (x : Wait) (i : Nat) : (d.pushOp c w st b x).cluster i = d.cluster i := rfl
@[simp] theorem pushOp_at_stack (d : Dev) (c : Nat) (w : Bytes) (st : Nat) (b : Bool) (x : Wait) (i : Nat) : (d.pushOp c w st b x).stack i = d.stack i := rfl
@[simp] theorem pushOp_at_link (d : Dev) (c : Nat) (w : Bytes) (st : Nat) (b : Bool) (x : Wait) (i : Nat) : (d.pushOp c w st b x).link i = d.link i := rfl
@[simp] theorem pushOp_at_hub (d : Dev) (c : Nat) (w : Bytes) (st : Nat) (b : Bool) (x : Wait) (i : Nat) : (d.pushOp c w st b x).hub i = d.hub i := rfl
@[simp] theorem pushOp_at_engine (d : Dev) (c : Nat) (w : Bytes) (st : Nat) (b : Bool) (x : Wait) (i : Nat) : (d.pushOp c w st b x).engine i = d.engine i := rfl
@[simp] theorem pushOp_at_fn (d : Dev) (c : Nat) (w : Bytes) (st : Nat) (b : Bool) (x : Wait) (i : Nat) : (d.pushOp c w st b x).fn i = d.fn i := rfl
@[simp] theorem pushOp_at_port (d : Dev) (c : Nat) (w : Bytes) (st : Nat) (b : Bool) (x : Wait) (i : Nat) : (d.pushOp c w st b x).port i = d.port i := rfl
@[simp] theorem pushOp_at_cmd (d : Dev) (c : Nat) (w : Bytes) (st : Nat) (b : Bool) (x : Wait) (i : Nat) : (d.pushOp c w st b x).cmd i = d.cmd i := rfl

@[simp] theorem draw_now (d : Dev) : d.draw.2.now = d.now := rfl
@[simp] theorem draw_host (d : Dev) : d.draw.2.host = d.host := rfl
@[simp] theorem draw_parts (d : Dev) : d.draw.2.parts = d.parts := rfl
@[simp] theorem draw_cores (d : Dev) : d.draw.2.cores = d.cores := rfl
@[simp] theorem draw_clusters (d : Dev) : d.draw.2.clusters = d.clusters := rfl
@[simp] theorem draw_beryl (d : Dev) : d.draw.2.beryl = d.beryl := rfl
@[simp] theorem draw_tier (d : Dev) : d.draw.2.tier = d.tier := rfl
@[simp] theorem draw_tlb (d : Dev) : d.draw.2.tlb = d.tlb := rfl
@[simp] theorem draw_links (d : Dev) : d.draw.2.links = d.links := rfl
@[simp] theorem draw_hubs (d : Dev) : d.draw.2.hubs = d.hubs := rfl
@[simp] theorem draw_engines (d : Dev) : d.draw.2.engines = d.engines := rfl
@[simp] theorem draw_modEvents (d : Dev) : d.draw.2.modEvents = d.modEvents := rfl
@[simp] theorem draw_carnelian (d : Dev) : d.draw.2.carnelian = d.carnelian := rfl
@[simp] theorem draw_mctp (d : Dev) : d.draw.2.mctp = d.mctp := rfl
@[simp] theorem draw_spdmReply (d : Dev) : d.draw.2.spdmReply = d.spdmReply := rfl
@[simp] theorem draw_reports (d : Dev) : d.draw.2.reports = d.reports := rfl
@[simp] theorem draw_free (d : Dev) : d.draw.2.free = d.free + 1 := rfl

@[simp] theorem corrected_phase (k : Core) (l : List (Nat × Nat)) : (k.corrected l).phase = k.phase := rfl
@[simp] theorem corrected_run (k : Core) (l : List (Nat × Nat)) : (k.corrected l).run = k.run := rfl
@[simp] theorem corrected_pc (k : Core) (l : List (Nat × Nat)) : (k.corrected l).pc = k.pc := rfl
@[simp] theorem corrected_words (k : Core) (l : List (Nat × Nat)) : (k.corrected l).words = k.words := rfl
@[simp] theorem corrected_windowEntry (k : Core) (l : List (Nat × Nat)) : (k.corrected l).windowEntry = k.windowEntry := rfl
@[simp] theorem corrected_window (k : Core) (l : List (Nat × Nat)) : (k.corrected l).window = k.window := rfl
@[simp] theorem corrected_nextId (k : Core) (l : List (Nat × Nat)) : (k.corrected l).nextId = k.nextId := rfl
@[simp] theorem corrected_preds (k : Core) (l : List (Nat × Nat)) : (k.corrected l).preds = k.preds := rfl
@[simp] theorem corrected_aregs (k : Core) (l : List (Nat × Nat)) : (k.corrected l).aregs = k.aregs := rfl
@[simp] theorem corrected_done (k : Core) (l : List (Nat × Nat)) : (k.corrected l).done = k.done := rfl
@[simp] theorem corrected_reported (k : Core) (l : List (Nat × Nat)) : (k.corrected l).reported = k.reported := rfl
@[simp] theorem corrected_fault (k : Core) (l : List (Nat × Nat)) : (k.corrected l).fault = k.fault := rfl
@[simp] theorem corrected_stat (k : Core) (l : List (Nat × Nat)) : (k.corrected l).stat = k.stat := rfl
@[simp] theorem corrected_sp (k : Core) (l : List (Nat × Nat)) : (k.corrected l).sp = k.sp := rfl
@[simp] theorem corrected_acc0 (k : Core) (l : List (Nat × Nat)) : (k.corrected l).acc0 = k.acc0 := rfl
@[simp] theorem corrected_acc1 (k : Core) (l : List (Nat × Nat)) : (k.corrected l).acc1 = k.acc1 := rfl
@[simp] theorem corrected_descrs (k : Core) (l : List (Nat × Nat)) : (k.corrected l).descrs = k.descrs := rfl

@[simp] theorem rewritten_phase (k : Core) (l : List (Nat × Nat)) : (k.rewritten l).phase = k.phase := rfl
@[simp] theorem rewritten_run (k : Core) (l : List (Nat × Nat)) : (k.rewritten l).run = k.run := rfl
@[simp] theorem rewritten_pc (k : Core) (l : List (Nat × Nat)) : (k.rewritten l).pc = k.pc := rfl
@[simp] theorem rewritten_words (k : Core) (l : List (Nat × Nat)) : (k.rewritten l).words = k.words := rfl
@[simp] theorem rewritten_windowEntry (k : Core) (l : List (Nat × Nat)) : (k.rewritten l).windowEntry = k.windowEntry := rfl
@[simp] theorem rewritten_window (k : Core) (l : List (Nat × Nat)) : (k.rewritten l).window = k.window := rfl
@[simp] theorem rewritten_nextId (k : Core) (l : List (Nat × Nat)) : (k.rewritten l).nextId = k.nextId := rfl
@[simp] theorem rewritten_preds (k : Core) (l : List (Nat × Nat)) : (k.rewritten l).preds = k.preds := rfl
@[simp] theorem rewritten_aregs (k : Core) (l : List (Nat × Nat)) : (k.rewritten l).aregs = k.aregs := rfl
@[simp] theorem rewritten_done (k : Core) (l : List (Nat × Nat)) : (k.rewritten l).done = k.done := rfl
@[simp] theorem rewritten_reported (k : Core) (l : List (Nat × Nat)) : (k.rewritten l).reported = k.reported := rfl
@[simp] theorem rewritten_fault (k : Core) (l : List (Nat × Nat)) : (k.rewritten l).fault = k.fault := rfl
@[simp] theorem rewritten_stat (k : Core) (l : List (Nat × Nat)) : (k.rewritten l).stat = k.stat := rfl
@[simp] theorem rewritten_sp (k : Core) (l : List (Nat × Nat)) : (k.rewritten l).sp = k.sp := rfl
@[simp] theorem rewritten_acc0 (k : Core) (l : List (Nat × Nat)) : (k.rewritten l).acc0 = k.acc0 := rfl
@[simp] theorem rewritten_acc1 (k : Core) (l : List (Nat × Nat)) : (k.rewritten l).acc1 = k.acc1 := rfl
@[simp] theorem rewritten_descrs (k : Core) (l : List (Nat × Nat)) : (k.rewritten l).descrs = k.descrs := rfl

@[simp] theorem retire_phase (k : Core) : (k.retire).phase = k.phase := rfl
@[simp] theorem retire_run (k : Core) : (k.retire).run = k.run := rfl
@[simp] theorem retire_words (k : Core) : (k.retire).words = k.words := rfl
@[simp] theorem retire_windowEntry (k : Core) : (k.retire).windowEntry = k.windowEntry := rfl
@[simp] theorem retire_window (k : Core) : (k.retire).window = k.window := rfl
@[simp] theorem retire_nextId (k : Core) : (k.retire).nextId = k.nextId := rfl
@[simp] theorem retire_preds (k : Core) : (k.retire).preds = k.preds := rfl
@[simp] theorem retire_aregs (k : Core) : (k.retire).aregs = k.aregs := rfl
@[simp] theorem retire_done (k : Core) : (k.retire).done = k.done := rfl
@[simp] theorem retire_reported (k : Core) : (k.retire).reported = k.reported := rfl
@[simp] theorem retire_fault (k : Core) : (k.retire).fault = k.fault := rfl
@[simp] theorem retire_stat (k : Core) : (k.retire).stat = k.stat := rfl
@[simp] theorem retire_sp (k : Core) : (k.retire).sp = k.sp := rfl
@[simp] theorem retire_acc0 (k : Core) : (k.retire).acc0 = k.acc0 := rfl
@[simp] theorem retire_acc1 (k : Core) : (k.retire).acc1 = k.acc1 := rfl
@[simp] theorem retire_descrs (k : Core) : (k.retire).descrs = k.descrs := rfl

end Sys2Proof.Machine
end

