-- ==== Sys2Proof/Laws/Tables.lean ====
section
/-!
SUPPORT. Tables and the records kept in them: what a lookup gives after an update, and that two updates of one key are
the later one.
-/

namespace Sys2Proof.Machine

/-! ## Tables -/

@[simp] theorem Tab.find_put_self {α : Type} (t : Tab α) (k : Nat) (v : α) : Tab.find (Tab.put t k v) k = some v := by
  unfold Tab.find Tab.put
  rw [List.find?_append, List.find?_eq_none.mpr (by simp; omega)]
  simp

theorem Tab.find_put_ne {α : Type} (t : Tab α) {k j : Nat} (v : α) (h : j ≠ k) :
    Tab.find (Tab.put t k v) j = Tab.find t j := by
  have hk : (k == j) = false := by simpa using fun e => h e.symm
  unfold Tab.find Tab.put
  rw [List.find?_append, List.find?_cons, hk, List.find?_filter, List.find?_filter]
  congr 1
  rcases Nat.lt_or_gt_of_ne h with l | l
  · rw [show (fun a : Nat × α => decide (decide (k < a.1) = true ∧ (a.1 == j) = true)) = fun _ => false from
        funext fun a => by by_cases e : a.1 = j <;> simp [e]; omega,
      show (fun a : Nat × α => decide (decide (a.1 < k) = true ∧ (a.1 == j) = true)) = fun a => a.1 == j from
        funext fun a => by by_cases e : a.1 = j <;> simp [e]; omega,
      show t.find? (fun _ => false) = none from List.find?_eq_none.mpr (by simp)]
    simp
  · rw [show (fun a : Nat × α => decide (decide (a.1 < k) = true ∧ (a.1 == j) = true)) = fun _ => false from
        funext fun a => by by_cases e : a.1 = j <;> simp [e]; omega,
      show (fun a : Nat × α => decide (decide (k < a.1) = true ∧ (a.1 == j) = true)) = fun a => a.1 == j from
        funext fun a => by by_cases e : a.1 = j <;> simp [e]; omega,
      show t.find? (fun _ => false) = none from List.find?_eq_none.mpr (by simp)]
    simp

@[simp] theorem Tab.getD_put_self {α : Type} (t : Tab α) (k : Nat) (v z : α) : Tab.getD (Tab.put t k v) k z = v := by
  simp [Tab.getD]

theorem Tab.getD_put_ne {α : Type} (t : Tab α) {k j : Nat} (v z : α) (h : j ≠ k) :
    Tab.getD (Tab.put t k v) j z = Tab.getD t j z := by
  simp [Tab.getD, Tab.find_put_ne t v h]

@[simp] theorem Tab.put_put {α : Type} (t : Tab α) (k : Nat) (v v' : α) : Tab.put (Tab.put t k v) k v' = Tab.put t k v' := by
  have h : ∀ e : Nat × α, (decide (e.1 < k) && decide (k < e.1)) = false := by intro e; simp; omega
  have h' : ∀ e : Nat × α, (decide (k < e.1) && decide (e.1 < k)) = false := by intro e; simp; omega
  simp [Tab.put, List.filter_append, List.filter_cons, List.filter_filter, h, h', -Bool.decide_and]

/-! ## Records -/

@[simp] theorem core_setCore (d : Dev) (i : Nat) (x : Core) : (d.setCore i x).core i = x := by simp [Dev.core, Dev.setCore]
theorem core_setCore_ne (d : Dev) {i j : Nat} (x : Core) (h : j ≠ i) : (d.setCore i x).core j = d.core j := by
  simp [Dev.core, Dev.setCore, Tab.getD_put_ne _ _ _ h]
@[simp] theorem setCore_setCore (d : Dev) (i : Nat) (x y : Core) : (d.setCore i x).setCore i y = d.setCore i y := by simp [Dev.setCore]
@[simp] theorem core_modCore (d : Dev) (i : Nat) (f : Core → Core) : (d.modCore i f).core i = f (d.core i) := by simp [Dev.modCore]
theorem core_modCore_ne (d : Dev) {i j : Nat} (f : Core → Core) (h : j ≠ i) : (d.modCore i f).core j = d.core j := by
  simp [Dev.modCore, core_setCore_ne _ _ h]
@[simp] theorem setCore_modCore (d : Dev) (i : Nat) (f : Core → Core) (y : Core) : (d.modCore i f).setCore i y = d.setCore i y := by simp [Dev.modCore]
@[simp] theorem modCore_setCore (d : Dev) (i : Nat) (x : Core) (f : Core → Core) : (d.setCore i x).modCore i f = d.setCore i (f x) := by
  simp [Dev.modCore]
@[simp] theorem modCore_modCore (d : Dev) (i : Nat) (f g : Core → Core) : (d.modCore i f).modCore i g = d.modCore i (fun x => g (f x)) := by
  simp [Dev.modCore]

@[simp] theorem part_setPart (d : Dev) (i : Nat) (x : Part) : (d.setPart i x).part i = x := by simp [Dev.part, Dev.setPart]
theorem part_setPart_ne (d : Dev) {i j : Nat} (x : Part) (h : j ≠ i) : (d.setPart i x).part j = d.part j := by
  simp [Dev.part, Dev.setPart, Tab.getD_put_ne _ _ _ h]
@[simp] theorem setPart_setPart (d : Dev) (i : Nat) (x y : Part) : (d.setPart i x).setPart i y = d.setPart i y := by simp [Dev.setPart]
@[simp] theorem part_modPart (d : Dev) (i : Nat) (f : Part → Part) : (d.modPart i f).part i = f (d.part i) := by simp [Dev.modPart]
theorem part_modPart_ne (d : Dev) {i j : Nat} (f : Part → Part) (h : j ≠ i) : (d.modPart i f).part j = d.part j := by
  simp [Dev.modPart, part_setPart_ne _ _ h]
@[simp] theorem setPart_modPart (d : Dev) (i : Nat) (f : Part → Part) (y : Part) : (d.modPart i f).setPart i y = d.setPart i y := by simp [Dev.modPart]
@[simp] theorem modPart_setPart (d : Dev) (i : Nat) (x : Part) (f : Part → Part) : (d.setPart i x).modPart i f = d.setPart i (f x) := by
  simp [Dev.modPart]
@[simp] theorem modPart_modPart (d : Dev) (i : Nat) (f g : Part → Part) : (d.modPart i f).modPart i g = d.modPart i (fun x => g (f x)) := by
  simp [Dev.modPart]

@[simp] theorem cluster_setCluster (d : Dev) (i : Nat) (x : Cluster) : (d.setCluster i x).cluster i = x := by simp [Dev.cluster, Dev.setCluster]
theorem cluster_setCluster_ne (d : Dev) {i j : Nat} (x : Cluster) (h : j ≠ i) : (d.setCluster i x).cluster j = d.cluster j := by
  simp [Dev.cluster, Dev.setCluster, Tab.getD_put_ne _ _ _ h]
@[simp] theorem setCluster_setCluster (d : Dev) (i : Nat) (x y : Cluster) : (d.setCluster i x).setCluster i y = d.setCluster i y := by simp [Dev.setCluster]
@[simp] theorem cluster_modCluster (d : Dev) (i : Nat) (f : Cluster → Cluster) : (d.modCluster i f).cluster i = f (d.cluster i) := by simp [Dev.modCluster]
theorem cluster_modCluster_ne (d : Dev) {i j : Nat} (f : Cluster → Cluster) (h : j ≠ i) : (d.modCluster i f).cluster j = d.cluster j := by
  simp [Dev.modCluster, cluster_setCluster_ne _ _ h]
@[simp] theorem setCluster_modCluster (d : Dev) (i : Nat) (f : Cluster → Cluster) (y : Cluster) : (d.modCluster i f).setCluster i y = d.setCluster i y := by simp [Dev.modCluster]
@[simp] theorem modCluster_setCluster (d : Dev) (i : Nat) (x : Cluster) (f : Cluster → Cluster) : (d.setCluster i x).modCluster i f = d.setCluster i (f x) := by
  simp [Dev.modCluster]
@[simp] theorem modCluster_modCluster (d : Dev) (i : Nat) (f g : Cluster → Cluster) : (d.modCluster i f).modCluster i g = d.modCluster i (fun x => g (f x)) := by
  simp [Dev.modCluster]

@[simp] theorem stack_setStack (d : Dev) (i : Nat) (x : Stack) : (d.setStack i x).stack i = x := by simp [Dev.stack, Dev.setStack]
theorem stack_setStack_ne (d : Dev) {i j : Nat} (x : Stack) (h : j ≠ i) : (d.setStack i x).stack j = d.stack j := by
  simp [Dev.stack, Dev.setStack, Tab.getD_put_ne _ _ _ h]
@[simp] theorem setStack_setStack (d : Dev) (i : Nat) (x y : Stack) : (d.setStack i x).setStack i y = d.setStack i y := by simp [Dev.setStack]
@[simp] theorem stack_modStack (d : Dev) (i : Nat) (f : Stack → Stack) : (d.modStack i f).stack i = f (d.stack i) := by simp [Dev.modStack]
theorem stack_modStack_ne (d : Dev) {i j : Nat} (f : Stack → Stack) (h : j ≠ i) : (d.modStack i f).stack j = d.stack j := by
  simp [Dev.modStack, stack_setStack_ne _ _ h]
@[simp] theorem setStack_modStack (d : Dev) (i : Nat) (f : Stack → Stack) (y : Stack) : (d.modStack i f).setStack i y = d.setStack i y := by simp [Dev.modStack]
@[simp] theorem modStack_setStack (d : Dev) (i : Nat) (x : Stack) (f : Stack → Stack) : (d.setStack i x).modStack i f = d.setStack i (f x) := by
  simp [Dev.modStack]
@[simp] theorem modStack_modStack (d : Dev) (i : Nat) (f g : Stack → Stack) : (d.modStack i f).modStack i g = d.modStack i (fun x => g (f x)) := by
  simp [Dev.modStack]

@[simp] theorem engine_setEngine (d : Dev) (i : Nat) (x : Engine) : (d.setEngine i x).engine i = x := by simp [Dev.engine, Dev.setEngine]
theorem engine_setEngine_ne (d : Dev) {i j : Nat} (x : Engine) (h : j ≠ i) : (d.setEngine i x).engine j = d.engine j := by
  simp [Dev.engine, Dev.setEngine, Tab.getD_put_ne _ _ _ h]
@[simp] theorem setEngine_setEngine (d : Dev) (i : Nat) (x y : Engine) : (d.setEngine i x).setEngine i y = d.setEngine i y := by simp [Dev.setEngine]
@[simp] theorem engine_modEngine (d : Dev) (i : Nat) (f : Engine → Engine) : (d.modEngine i f).engine i = f (d.engine i) := by simp [Dev.modEngine]
theorem engine_modEngine_ne (d : Dev) {i j : Nat} (f : Engine → Engine) (h : j ≠ i) : (d.modEngine i f).engine j = d.engine j := by
  simp [Dev.modEngine, engine_setEngine_ne _ _ h]
@[simp] theorem setEngine_modEngine (d : Dev) (i : Nat) (f : Engine → Engine) (y : Engine) : (d.modEngine i f).setEngine i y = d.setEngine i y := by simp [Dev.modEngine]
@[simp] theorem modEngine_setEngine (d : Dev) (i : Nat) (x : Engine) (f : Engine → Engine) : (d.setEngine i x).modEngine i f = d.setEngine i (f x) := by
  simp [Dev.modEngine]
@[simp] theorem modEngine_modEngine (d : Dev) (i : Nat) (f g : Engine → Engine) : (d.modEngine i f).modEngine i g = d.modEngine i (fun x => g (f x)) := by
  simp [Dev.modEngine]

@[simp] theorem fn_setFn (d : Dev) (i : Nat) (x : Fn) : (d.setFn i x).fn i = x := by simp [Dev.fn, Dev.setFn]
theorem fn_setFn_ne (d : Dev) {i j : Nat} (x : Fn) (h : j ≠ i) : (d.setFn i x).fn j = d.fn j := by
  simp [Dev.fn, Dev.setFn, Tab.getD_put_ne _ _ _ h]
@[simp] theorem setFn_setFn (d : Dev) (i : Nat) (x y : Fn) : (d.setFn i x).setFn i y = d.setFn i y := by simp [Dev.setFn]
@[simp] theorem fn_modFn (d : Dev) (i : Nat) (f : Fn → Fn) : (d.modFn i f).fn i = f (d.fn i) := by simp [Dev.modFn]
theorem fn_modFn_ne (d : Dev) {i j : Nat} (f : Fn → Fn) (h : j ≠ i) : (d.modFn i f).fn j = d.fn j := by
  simp [Dev.modFn, fn_setFn_ne _ _ h]
@[simp] theorem setFn_modFn (d : Dev) (i : Nat) (f : Fn → Fn) (y : Fn) : (d.modFn i f).setFn i y = d.setFn i y := by simp [Dev.modFn]
@[simp] theorem modFn_setFn (d : Dev) (i : Nat) (x : Fn) (f : Fn → Fn) : (d.setFn i x).modFn i f = d.setFn i (f x) := by
  simp [Dev.modFn]
@[simp] theorem modFn_modFn (d : Dev) (i : Nat) (f g : Fn → Fn) : (d.modFn i f).modFn i g = d.modFn i (fun x => g (f x)) := by
  simp [Dev.modFn]

@[simp] theorem link_modLink (d : Dev) (i : Nat) (f : Link → Link) : (d.modLink i f).link i = f (d.link i) := by
  simp [Dev.link, Dev.modLink]
theorem link_modLink_ne (d : Dev) {i j : Nat} (f : Link → Link) (h : j ≠ i) : (d.modLink i f).link j = d.link j := by
  simp [Dev.link, Dev.modLink, Tab.getD_put_ne _ _ _ h]

@[simp] theorem hub_modHub (d : Dev) (i : Nat) (f : Hub → Hub) : (d.modHub i f).hub i = f (d.hub i) := by
  simp [Dev.hub, Dev.modHub]
theorem hub_modHub_ne (d : Dev) {i j : Nat} (f : Hub → Hub) (h : j ≠ i) : (d.modHub i f).hub j = d.hub j := by
  simp [Dev.hub, Dev.modHub, Tab.getD_put_ne _ _ _ h]

@[simp] theorem port_modPort (d : Dev) (i : Nat) (f : Port → Port) : (d.modPort i f).port i = f (d.port i) := by
  simp [Dev.port, Dev.modPort]
theorem port_modPort_ne (d : Dev) {i j : Nat} (f : Port → Port) (h : j ≠ i) : (d.modPort i f).port j = d.port j := by
  simp [Dev.port, Dev.modPort, Tab.getD_put_ne _ _ _ h]

@[simp] theorem cmd_setCmd (d : Dev) (h : Nat) (c : Cmd) : (d.setCmd h c).cmd h = some c := by simp [Dev.cmd, Dev.setCmd]
theorem cmd_setCmd_ne (d : Dev) {h j : Nat} (c : Cmd) (e : j ≠ h) : (d.setCmd h c).cmd j = d.cmd j := by
  simp [Dev.cmd, Dev.setCmd, Tab.find_put_ne _ _ e]

@[simp] theorem qp_modQp (x : Fn) (q : Nat) (g : Qp → Qp) : (x.modQp q g).qp q = g (x.qp q) := by simp [Fn.qp, Fn.modQp]
theorem qp_modQp_ne (x : Fn) {q j : Nat} (g : Qp → Qp) (h : j ≠ q) : (x.modQp q g).qp j = x.qp j := by
  simp [Fn.qp, Fn.modQp, Tab.getD_put_ne _ _ _ h]

end Sys2Proof.Machine
end

