-- ==== Sys2Proof/Laws/Ops.lean ====
section
/-!
SUPPORT. What the shared operations can do, once each: the outcome of a row on a unit, of a command, of a word that
issues; the canonical form that every memory operation keeps; and how a word enters the window.
-/

set_option Elab.async false

namespace Sys2Proof.Machine

/-! ## Rows -/

/-- A row on a unit that exists answers its state; on any other it faults. -/
theorem onUnit_cases (ok : Bool) (s : State) :
    (ok = true ∧ onUnit ok s = .next s) ∨ (ok = false ∧ onUnit ok s = .fault .noSuchUnit) := by
  cases ok <;> simp [onUnit]

@[simp] theorem onUnit_true (s : State) : onUnit true s = .next s := rfl

theorem whenUp_up {s : State} {f : Dev → Dev} (h : s.plat.up = true) : whenUp s f = s.onDev f := by simp [whenUp, h]

theorem whenUp_down {s : State} {f : Dev → Dev} (h : s.plat.up = false) : whenUp s f = s := by simp [whenUp, h]

@[simp] theorem whenUp_plat (s : State) (f : Dev → Dev) : (whenUp s f).plat = s.plat := by unfold whenUp; split <;> rfl

@[simp] theorem whenUp_pending (s : State) (f : Dev → Dev) : (whenUp s f).pending = s.pending := by unfold whenUp; split <;> rfl

theorem onCore_up {s : State} {c : Nat} {f : Dev → Dev} (h : CoreUp s c) : onCore c s f = .next (s.onDev f) := by
  simp [onCore, h.2, whenUp_up h.1]

theorem onFn_up {s : State} {f : Nat} {act : State → State} (h : FnUp s f) : onFn f s act = .next (act s) := by
  simp [onFn, h.1, h.2.1, h.2.2]

theorem onQp_up {s : State} {f q : Nat} {act : Dev → Dev} (h : QpUp s f q) : onQp f q s act = .next (s.onDev act) := by
  simp [onQp, whenUp, h.1.1, h.1.2.1, h.1.2.2, h.2, State.onDev]

theorem onPort_up {s : State} {n : Nat} {act : State → State} (h : PortUp s n) : onPort n s act = .next (act s) := by
  simp [onPort, h.1, h.2.1, h.2.2]

theorem onSpdm_up {s : State} {src : SpdmSrc} {act : Dev → Dev} (h : SpdmUp s src) : onSpdm src s act = .next (s.onDev act) := by
  obtain ⟨h1, h2, h3, h4⟩ := h
  cases e : spdmFn src <;> simp_all [onSpdm, whenUp, State.onDev]

/-! ## Commands -/

/-- A command that starts, of the row's form, runs the row's effect. -/
theorem runCmd_starts {s : State} {h op : Nat} {c : Cmd} {form : Cmd → Bool} {act : Cmd → Dev → Dev} (r : Starts s h op c)
    (f : form c = true) : runCmd h op form s act = .next (s.onDev (act c)) := by
  obtain ⟨r1, r2, r3, r4, r5⟩ := r
  simp [runCmd, whenUp, r1, State.onDev, Dev.onCmd, r2, r3, f, r4, r5]

/-- A row whose command is not live, not of its opcode or form, or may not start changes nothing. -/
theorem runCmd_not {s : State} {h op : Nat} {form : Cmd → Bool} {act : Cmd → Dev → Dev}
    (r : ∀ c, s.dev.cmd h = some c → ¬ (c.op = op ∧ form c = true ∧ c.phase = .fetched ∧ s.dev.startable h c = true)) :
    runCmd h op form s act = .next s := by
  unfold runCmd whenUp
  split
  · unfold Dev.onCmd State.onDev
    cases e : s.dev.cmd h with
    | none => simp [e]
    | some c => simp only [e]; rw [if_neg (r c e)]
  · rfl

theorem checked_ok {d : Dev} {h : Nat} {cs : List (Nat × Nat × Bool)} {act : Dev → Dev} (r : firstFail cs = none) :
    d.checked h cs act = act d := by simp [Dev.checked, r]

theorem checked_fail {d : Dev} {h : Nat} {cs : List (Nat × Nat × Bool)} {act : Dev → Dev} {f : Nat × Nat}
    (r : firstFail cs = some f) : d.checked h cs act = d.failAt h f.1 f.2 := by simp [Dev.checked, r]

/-- A data object in host memory is read at once. -/
theorem withObject_host {d : Dev} {h n : Nat} {c : Cmd} {data : Bytes} {act : Bytes → Dev → Dev} (r : HostObject c n) :
    d.withObject h c n data act = act (objectOf data n) d := by
  have : ¬ (2 ^ 64 < c.field 16 8 + n) := by have := r.2; omega
  simp only [Dev.withObject, Part.areaFail, r.1, Bool.false_eq_true, if_false, this, Bool.not_false, if_true, objectOf]

/-- An out area in host memory takes the bytes at once. -/
theorem withOut_host {d : Dev} {h off n : Nat} {c : Cmd} {act : (Bytes → Dev → Dev) → Dev → Dev} (r : HostOut c off n) :
    d.withOut h c off n act = act (fun bs d => d.hostWrite c.fn (c.field off 8) bs) d := by
  have : ¬ (2 ^ 64 < c.field off 8 + n) := by have := r.2; omega
  simp only [Dev.withOut, Part.areaFail, r.1, Bool.false_eq_true, if_false, this, List.isEmpty_nil, Bool.not_true, Bool.false_and,
    Dev.writeOut]

/-! ## Field checks -/

/-- One check against the best so far. -/
def sooner (best : Option (Nat × Nat)) (c : Nat × Nat × Bool) : Option (Nat × Nat) :=
  match best with
  | none => some (c.2.1, c.1)
  | some b => if c.1 < b.2 then some (c.2.1, c.1) else some b

theorem firstFail_eq (l : List (Nat × Nat × Bool)) : firstFail l = (l.filter (fun c => c.2.2)).foldl sooner none := rfl

theorem sooner_some (l : List (Nat × Nat × Bool)) (b : Nat × Nat) : (l.foldl sooner (some b)).isSome = true := by
  induction l generalizing b with
  | nil => rfl
  | cons c l ih =>
    simp only [List.foldl_cons, sooner]
    split <;> exact ih _

/-- No check fails exactly when every check passes. -/
theorem firstFail_none {l : List (Nat × Nat × Bool)} : firstFail l = none ↔ ∀ c ∈ l, c.2.2 = false := by
  rw [firstFail_eq]
  constructor
  · intro h c hc
    cases e : c.2.2 with
    | false => rfl
    | true =>
      have hm : c ∈ l.filter (fun c => c.2.2) := List.mem_filter.mpr ⟨hc, e⟩
      cases hl : l.filter (fun c => c.2.2) with
      | nil => rw [hl] at hm; cases hm
      | cons a t =>
        rw [hl] at h
        have := sooner_some t (a.2.1, a.1)
        rw [show t.foldl sooner (some (a.2.1, a.1)) = none from h] at this
        cases this
  · intro h
    rw [List.filter_eq_nil_iff.mpr (fun c hc => by simp [h c hc])]
    rfl

theorem firstFail_append_none {l m : List (Nat × Nat × Bool)} :
    firstFail (l ++ m) = none ↔ firstFail l = none ∧ firstFail m = none := by
  simp only [firstFail_none, List.mem_append]
  exact ⟨fun h => ⟨fun c hc => h c (.inl hc), fun c hc => h c (.inr hc)⟩, fun h c hc => hc.elim (h.1 c) (h.2 c)⟩

/-! ## Words -/

/-- Every word of a class and op does one of four things. -/
theorem issue_cases (d : Dev) (c cls op : Nat) (act : Bytes → Dev → Dev) :
    d.issue c cls op act = d ∨ d.issue c cls op act = d.modCore c Core.retire ∨
    (∃ w st, d.issuing c cls op = .bad w st ∧ d.issue c cls op act = d.faultCore c st (d.core c).pc (opDebugTag w)) ∨
    (∃ w, d.issuing c cls op = .go w ∧ d.issue c cls op act = act w d) := by
  unfold Dev.issue
  cases e : d.issuing c cls op <;> simp

theorem issue_go {d : Dev} {c cls op : Nat} {act : Bytes → Dev → Dev} {w : Bytes} (h : d.issuing c cls op = .go w) :
    d.issue c cls op act = act w d := by simp [Dev.issue, h]

/-- A word that issues runs its operation. -/
theorem issueOn_go {s : State} {c cls op : Nat} {act : Bytes → Dev → Dev} {w : Bytes} (h : Issues s c cls op w) :
    issueOn c cls op s act = .next (s.onDev (act w)) := by
  obtain ⟨u, l, g⟩ := h
  simp [issueOn, onCore_up ⟨u, l⟩, State.onDev, issue_go g]

theorem issueOn_off {s : State} {c cls op : Nat} {act : Bytes → Dev → Dev} (u : CoreUp s c) (h : s.dev.issuing c cls op = .off) :
    issueOn c cls op s act = .next (s.onDev (fun d => d.modCore c Core.retire)) := by
  simp [issueOn, onCore_up u, State.onDev, Dev.issue, h]

theorem issueOn_no {s : State} {c cls op : Nat} {act : Bytes → Dev → Dev} (u : CoreUp s c) (h : s.dev.issuing c cls op = .no) :
    issueOn c cls op s act = .next s := by
  simp [issueOn, onCore_up u, State.onDev, Dev.issue, h]

theorem issueOn_bad {s : State} {c cls op st : Nat} {w : Bytes} {act : Bytes → Dev → Dev} (u : CoreUp s c)
    (h : s.dev.issuing c cls op = .bad w st) :
    issueOn c cls op s act = .next (s.onDev (fun d => d.faultCore c st (d.core c).pc (opDebugTag w))) := by
  simp [issueOn, onCore_up u, State.onDev, Dev.issue, h]

/-- A word enters the window at the back, and its core is the one thing that changes. -/
theorem pushOp_eq (d : Dev) (c : Nat) (w : Bytes) (status : Nat) (cond : Bool) (wait : Wait) :
    d.pushOp c w status cond wait = d.setCore c ((d.core c).entered w status cond wait d.now) := rfl

theorem pushEmpty_eq (d : Dev) (c : Nat) (w : Bytes) :
    d.pushEmpty c w = d.setCore c ((d.core c).entered w stOK false .ready d.now) := rfl

/-- An operation of a unit: its core as `Core.ran` says. -/
theorem unitOp_eq (d : Dev) (c : Nat) (w : Bytes) (empty : Bool) (f : Core → Mem × Bool) :
    d.unitOp c w empty f = d.setCore c ((d.core c).ran w empty (f (d.core c)) d.now) := by
  unfold Dev.unitOp Core.ran
  split
  · rfl
  · simp [Dev.pushOp, Core.entered]

/-! ## Memories -/

theorem cells_above (a : Nat) (bs : Bytes) : ∀ e ∈ Mem.cells a bs, a ≤ e.1 ∧ e.1 < a + bs.length := by
  induction bs generalizing a with
  | nil => simp [Mem.cells]
  | cons b bs ih =>
    intro e he
    simp only [Mem.cells] at he
    split at he
    · have := ih (a + 1) e he; simp only [List.length_cons]; omega
    · rcases List.mem_cons.mp he with rfl | he
      · simp
      · have := ih (a + 1) e he; simp only [List.length_cons]; omega

theorem cells_wf (a : Nat) (bs : Bytes) : Memory.wf (Mem.cells a bs) = true := by
  induction bs generalizing a with
  | nil => simp [Mem.cells, Memory.wf]
  | cons b bs ih =>
    simp only [Mem.cells]
    split
    · exact ih (a + 1)
    · rename_i hb
      have h := ih (a + 1)
      simp only [Memory.wf, Bool.and_eq_true, decide_eq_true_eq, List.all_eq_true, bne_iff_ne] at h ⊢
      refine ⟨List.pairwise_cons.mpr ⟨fun e he => ?_, h.1⟩, fun e he => ?_⟩
      · have := cells_above (a + 1) bs e he; simp only []; omega
      · rcases List.mem_cons.mp he with rfl | he
        · exact hb
        · exact h.2 e he

theorem filter_wf (m : Mem) (p : Nat × Byte → Bool) (h : Memory.wf m = true) : Memory.wf (m.filter p) = true := by
  simp only [Memory.wf, Bool.and_eq_true, decide_eq_true_eq, List.all_eq_true] at h ⊢
  exact ⟨h.1.filter _, fun e he => h.2 e (List.mem_filter.mp he).1⟩

theorem append_wf (m n : Mem) (h : Memory.wf m = true) (k : Memory.wf n = true) (l : ∀ x ∈ m, ∀ y ∈ n, x.1 < y.1) :
    Memory.wf (m ++ n) = true := by
  simp only [Memory.wf, Bool.and_eq_true, decide_eq_true_eq, List.all_eq_true] at h k ⊢
  refine ⟨List.pairwise_append.mpr ⟨h.1, k.1, l⟩, fun e he => ?_⟩
  rcases List.mem_append.mp he with he | he
  · exact h.2 e he
  · exact k.2 e he

/-- Every write keeps the canonical form. -/
theorem write_wf (m : Mem) (a : Nat) (bs : Bytes) (h : Memory.wf m = true) : Memory.wf (Mem.write m a bs) = true := by
  unfold Mem.write
  refine append_wf _ _ (append_wf _ _ (filter_wf _ _ h) (cells_wf a bs) ?_) (filter_wf _ _ h) ?_
  · intro x hx y hy
    have := (List.mem_filter.mp hx).2
    have := cells_above a bs y hy
    simp only [decide_eq_true_eq] at *; omega
  · intro x hx y hy
    have hy := (List.mem_filter.mp hy).2
    simp only [decide_eq_true_eq] at hy
    rcases List.mem_append.mp hx with hx | hx
    · have := (List.mem_filter.mp hx).2; simp only [decide_eq_true_eq] at this; omega
    · have := cells_above a bs x hx; omega

theorem putNat_wf (m : Mem) (a n v : Nat) (h : Memory.wf m = true) : Memory.wf (Mem.putNat m a n v) = true := write_wf _ _ _ h

theorem clear_wf (m : Mem) (a n : Nat) (h : Memory.wf m = true) : Memory.wf (Mem.clear m a n) = true := filter_wf _ _ h

/-- The memories that the state holds by name: scratchpads, cluster memories, host memory, and the two of ROM recovery. -/
abbrev State.memories (s : State) : List Mem :=
  s.dev.cores.map (·.2.sp) ++ s.dev.clusters.map (·.2.mem) ++ [s.dev.host.mem, s.plat.rom.buffer, s.plat.rom.image]

theorem reset_memories_wf : ∀ m ∈ State.reset.memories, Memory.wf m = true := by decide

/-! ## Changes that wait for tokens (R258) -/

theorem ifAffords_yes {d e : Dev} (h : d.affords e = true) : d.ifAffords e = e := by simp [Dev.ifAffords, h]

theorem ifAffords_no {d e : Dev} (h : d.affords e = false) : d.ifAffords e = d := by simp [Dev.ifAffords, h]

/-- Stacks that are not throttled afford every change. -/
theorem affords_cool {d : Dev} (h : ∀ i, (d.stack i).tripped = false ∧ (d.stack i).step = 0) (e : Dev) : d.affords e = true := by
  unfold Dev.affords
  refine List.all_eq_true.mpr (fun y _ => ?_)
  simp [h y.1]

/-! ## A frame being coded: what the workers leave as it was (R310, R323) -/

/-- What the guard and the end of a frame read of it, and no worker changes. -/
def Coding.counted (k : Coding) : Nat × Nat × Nat × Nat × Nat × Nat × Nat × Nat × Nat :=
  (k.session, k.c, k.row, k.rows, k.tries, k.reenc, k.minRows, k.fmax, k.header)

/-- A fold of steps that each keep a measure keeps it. -/
theorem foldl_keeps {α β γ : Type} (m : α → γ) (f : α → β → α) (h : ∀ a b, m (f a b) = m a) (l : List β) (a : α) :
    m (l.foldl f a) = m a := by
  induction l generalizing a with
  | nil => rfl
  | cons b l ih => rw [List.foldl_cons, ih, h]

theorem assign_counted (k : Coding) (o : Bytes) : (k.assign o).counted = k.counted := by
  unfold Coding.assign
  exact foldl_keeps Coding.counted _ (fun k w => by dsimp only; split <;> split <;> rfl) _ _

theorem work_counted (k : Coding) (o : Bytes) (w n : Nat) : (k.work o w n).counted = k.counted := by
  unfold Coding.work
  split
  · rfl
  · split
    · rfl
    · exact assign_counted _ o

theorem advance_counted (k : Coding) (o : Bytes) (draw n : Nat) : (k.advance o draw n).counted = k.counted := by
  unfold Coding.advance
  rw [foldl_keeps Coding.counted _ (fun k i => work_counted k o _ _), assign_counted]

theorem through_counted (k : Coding) (o : Bytes) (i : Nat) : (k.through o i).counted = k.counted := by
  unfold Coding.through; split <;> rfl

theorem discard_counted (k : Coding) (o : Bytes) (l : List (Nat × GuardRow)) : (k.discard o l).counted = k.counted := by
  unfold Coding.discard
  refine foldl_keeps Coding.counted _ (fun k e => ?_) l k
  exact (assign_counted _ o).trans rfl

/-- The workers that go on and the quantiser of a row change nothing that the guard counts with. -/
theorem atRow_counted (d : Dev) (k : Coding) (o : Bytes) : (d.atRow k o).1.counted = k.counted := by
  unfold Dev.atRow
  dsimp only
  split <;> exact (through_counted _ o _).trans (advance_counted k o _ _)

end Sys2Proof.Machine
end

