-- ==== Sys2Proof/Laws/PerInstr.lean ====
section
/-!
SUPPORT. The law of operands, command by command: in a well-formed command every number of a unit, a slot or a field is
below its count.
-/

set_option Elab.async false

namespace Sys2Proof.Laws.Operands

/-- The numbers a command's operands hold that have a bound of their own, each with its bound. -/
def numbers (i : Instr) : List (Nat × Nat) :=
  match i with
  | .nop h => [(h, 2 ^ 20)]
  | .abort h => [(h, 2 ^ 20)]
  | .partitionSetConfigure h _ => [(h, 2 ^ 20)]
  | .partitionSetDelete h => [(h, 2 ^ 20)]
  | .partitionSetEndGrace h => [(h, 2 ^ 20)]
  | .memAlloc h => [(h, 2 ^ 20)]
  | .memFree h => [(h, 2 ^ 20)]
  | .programLoad h _ => [(h, 2 ^ 20)]
  | .microprogLoad h _ => [(h, 2 ^ 20)]
  | .microprogRestore h => [(h, 2 ^ 20)]
  | .pipelineSubmit h _ => [(h, 2 ^ 20)]
  | .pipelineRun h => [(h, 2 ^ 20)]
  | .pipelineStop h => [(h, 2 ^ 20)]
  | .pipelineStopDelete h => [(h, 2 ^ 20)]
  | .tickSet h => [(h, 2 ^ 20)]
  | .weightsBind h _ => [(h, 2 ^ 20)]
  | .seqCreate h => [(h, 2 ^ 20)]
  | .seqAppend h _ => [(h, 2 ^ 20)]
  | .seqSuspend h => [(h, 2 ^ 20)]
  | .seqSuspendPark h => [(h, 2 ^ 20)]
  | .seqSuspendEvictOnly h => [(h, 2 ^ 20)]
  | .seqResumeLazy h => [(h, 2 ^ 20)]
  | .seqResumeEager h => [(h, 2 ^ 20)]
  | .seqDestroy h => [(h, 2 ^ 20)]
  | .prefixLookupLookup h _ => [(h, 2 ^ 20)]
  | .prefixLookupMap h _ => [(h, 2 ^ 20)]
  | .prefixLookupInsert h _ => [(h, 2 ^ 20)]
  | .prefixLookupDrop h => [(h, 2 ^ 20)]
  | .pageEdit h _ => [(h, 2 ^ 20)]
  | .tierPrefetch h => [(h, 2 ^ 20)]
  | .tierFlush h => [(h, 2 ^ 20)]
  | .videoSessionOpen h _ => [(h, 2 ^ 20)]
  | .videoSessionReconfig h _ => [(h, 2 ^ 20)]
  | .videoSessionClose h => [(h, 2 ^ 20)]
  | .videoFrame h _ => [(h, 2 ^ 20)]
  | .videoFrameEos h _ => [(h, 2 ^ 20)]
  | .collectiveLaunch h _ => [(h, 2 ^ 20)]
  | .attest h => [(h, 2 ^ 20)]
  | .sessionOpen h _ => [(h, 2 ^ 20)]
  | .keyImport h _ => [(h, 2 ^ 20)]
  | .keyImportErase h _ => [(h, 2 ^ 20)]
  | .keyRotate h => [(h, 2 ^ 20)]
  | .ledgerRead h => [(h, 2 ^ 20)]
  | .telemetryRead h => [(h, 2 ^ 20)]
  | .fwUpdateStage h _ => [(h, 2 ^ 20)]
  | .fwUpdateCommit h => [(h, 2 ^ 20)]
  | .fwCommitComplete _ => []
  | .mmTile core => [(core, 256)]
  | .mmConv core => [(core, 256)]
  | .mmDrain core => [(core, 256)]
  | .residualFetchLanded core => [(core, 256)]
  | .qzQuant core => [(core, 256)]
  | .qzDequant core => [(core, 256)]
  | .vxEw core => [(core, 256)]
  | .vxRow core => [(core, 256)]
  | .vxCol core => [(core, 256)]
  | .vxFill core => [(core, 256)]
  | .sfFn core => [(core, 256)]
  | .sfProg core => [(core, 256)]
  | .rsSum core => [(core, 256)]
  | .rsMax core => [(core, 256)]
  | .rsSmax core => [(core, 256)]
  | .rsGap core => [(core, 256)]
  | .dmaCopy core => [(core, 256)]
  | .dmaSeq core => [(core, 256)]
  | .dmaPrefetch core => [(core, 256)]
  | .dmaRing core => [(core, 256)]
  | .ringBurstFetch core => [(core, 256)]
  | .descriptorComplete core _ => [(core, 256)]
  | .hxPut core => [(core, 256)]
  | .hxGet core => [(core, 256)]
  | .hxFree core => [(core, 256)]
  | .haloWaitSatisfied core => [(core, 256)]
  | .cntClaim core => [(core, 256)]
  | .cntAdd core => [(core, 256)]
  | .cntCas core => [(core, 256)]
  | .cntRead core => [(core, 256)]
  | .cntSteal core => [(core, 256)]
  | .cntCommit core => [(core, 256)]
  | .cntCredit core => [(core, 256)]
  | .pgAppend core => [(core, 256)]
  | .pgPublish core => [(core, 256)]
  | .pgPrefetch core => [(core, 256)]
  | .pgInfo core => [(core, 256)]
  | .walkerDescriptorEmit cluster => [(cluster, 32)]
  | .colSend core => [(core, 256)]
  | .colRecv core => [(core, 256)]
  | .colRecvSatisfied core => [(core, 256)]
  | .colReduce core => [(core, 256)]
  | .colBarrier core => [(core, 256)]
  | .usneaGroupComplete core => [(core, 256)]
  | .syncDone core => [(core, 256)]
  | .syncTick core => [(core, 256)]
  | .syncWait core => [(core, 256)]
  | .syncWaitSatisfied core => [(core, 256)]
  | .syncTime core => [(core, 256)]
  | .ctlLi core => [(core, 256)]
  | .ctlAlu core => [(core, 256)]
  | .ctlCmp core => [(core, 256)]
  | .ctlPset core => [(core, 256)]
  | .ctlBr core => [(core, 256)]
  | .ctlLoop core => [(core, 256)]
  | .ctlLdr core => [(core, 256)]
  | .ctlStr core => [(core, 256)]
  | .ctlNop core => [(core, 256)]
  | .operationComplete core _ => [(core, 256)]
  | .doneReport core => [(core, 256)]
  | .tickBoundary p => [(p, 4)]
  | .stretchLimit p => [(p, 4)]
  | .boundaryDecision p => [(p, 4)]
  | .holdExpiry p _ => [(p, 4)]
  | .editBatchExpiry p => [(p, 4)]
  | .resumeExpiry p _ => [(p, 4)]
  | .runWindowCountReached p _ => [(p, 4)]
  | .pipelineStopDrained p _ => [(p, 4)]
  | .ledgerStagingPlace p => [(p, 4)]
  | .parkComplete p _ => [(p, 4)]
  | .resumeComplete p _ => [(p, 4)]
  | .baseDieRequest stack _ => [(stack, 16)]
  | .throttleRelease stack _ => [(stack, 16)]
  | .tagConversionDone stack unit => [(stack, 16), (unit, 2 ^ 22)]
  | .thermalSample stack _ => [(stack, 16)]
  | .dramRefresh stack bank => [(stack, 16), (bank, 32)]
  | .backgroundAtomScrub stack _ _ => [(stack, 16)]
  | .migrationLanded p _ _ => [(p, 4)]
  | .folnasRetryBound p _ _ => [(p, 4)]
  | .reserveFrameReturn p _ => [(p, 4)]
  | .backgroundWriteBack p => [(p, 4)]
  | .evictionWriteBackDone p _ => [(p, 4)]
  | .tierFlushDurable h _ => [(h, 2 ^ 20)]
  | .garbageCollection block => [(block, 64 * 2 ^ 40 / (24 * 2 ^ 20))]
  | .wearLevelling cold worn => [(cold, 64 * 2 ^ 40 / (24 * 2 ^ 20)), (worn, 64 * 2 ^ 40 / (24 * 2 ^ 20))]
  | .readDisturbRefresh block => [(block, 64 * 2 ^ 40 / (24 * 2 ^ 20))]
  | .folnasPatrol block _ => [(block, 64 * 2 ^ 40 / (24 * 2 ^ 20))]
  | .badBlockRetire block => [(block, 64 * 2 ^ 40 / (24 * 2 ^ 20))]
  | .readOnlyModeEntry => []
  | .flitCrcFailure link dir => [(link, 10), (dir, 2)]
  | .replayRunExhausted link => [(link, 10)]
  | .retrainComplete link _ => [(link, 10)]
  | .usneaHubFailure _ _ => []
  | .clusterControlCoreFailure cluster => [(cluster, 32)]
  | .carnelianFault _ => []
  | .peridotWatchdog core => [(core, 8)]
  | .peridotSramError core => [(core, 8)]
  | .videoFrameStart engine => [(engine, 4)]
  | .guardRowCounted engine _ => [(engine, 4)]
  | .videoFrameComplete engine _ => [(engine, 4)]
  | .agateEngineFailure engine => [(engine, 4)]
  | .sweepComplete p => [(p, 4)]
  | .commandFetch fn q _ => [(fn, 260), (q, 65536)]
  | .commandTimeout h => [(h, 2 ^ 20)]
  | .timeoutDeferralEnd h => [(h, 2 ^ 20)]
  | .lateCompletion h => [(h, 2 ^ 20)]
  | .qpDrainComplete fn q => [(fn, 260), (q, 65536)]
  | .requesterCompletionTimeout fn q => [(fn, 260), (q, 65536)]
  | .qpSqDoorbell fn q value => [(fn, 260), (q, 65536), (value, 2 ^ 32)]
  | .qpCqDoorbell fn q value => [(fn, 260), (q, 65536), (value, 2 ^ 32)]
  | .qpEnable fn q value => [(fn, 260), (q, 65536), (value, 2 ^ 32)]
  | .qpDisable fn q value => [(fn, 260), (q, 65536), (value, 2 ^ 32)]
  | .qpRearm fn q value => [(fn, 260), (q, 65536), (value, 2 ^ 32)]
  | .hostBar2WindowWrite fn value => [(fn, 260), (value, 2 ^ 64)]
  | .hostPortCfgWrite fn value => [(fn, 260), (value, 2 ^ 32)]
  | .berylThermCfgWrite fn value => [(fn, 260), (value, 2 ^ 32)]
  | .tickRegisterLowRead fn _ => [(fn, 260)]
  | .registerWrite fn _ value => [(fn, 260), (value, 2 ^ 32)]
  | .romRecWrite fn _ => [(fn, 260)]
  | .romRecFinish fn => [(fn, 260)]
  | .romRecAbort fn => [(fn, 260)]
  | .bar2Request fn _ _ => [(fn, 260)]
  | .bar2Resize fn _ => [(fn, 260)]
  | .hostLinkUp port _ _ _ => [(port, 4)]
  | .hostLinkDown port => [(port, 4)]
  | .perstAssert port => [(port, 4)]
  | .perstRelease port => [(port, 4)]
  | .hotReset port => [(port, 4)]
  | .functionLevelReset fn => [(fn, 260)]
  | .vfDisable port => [(port, 4)]
  | .graceExpiry p => [(p, 4)]
  | .d3hotEntry port => [(port, 4)]
  | .d0Return port => [(port, 4)]
  | .lowPowerEntry => []
  | .getVersion _ => []
  | .getCapabilities _ => []
  | .negotiateAlgorithms _ _ => []
  | .getDigests _ => []
  | .getCertificate _ => []
  | .getMeasurements _ _ => []
  | .keyExchange _ _ => []
  | .finish _ _ => []
  | .pskExchange _ _ _ => []
  | .pskFinish _ _ => []
  | .ideKm _ fn _ => [(fn, 260)]
  | .ideStreamLeavesSecure port _ => [(port, 4)]
  | .debugUnlockToken _ _ _ => []
  | .pldmFirmwareUpdate _ => []
  | .pldmPortConfigWrite _ => []
  | .pldmAlertClear => []
  | .dieTemperatureSample die _ => [(die, 4)]
  | .inputPowerOn _ => []
  | .undervoltage _ => []
  | .overvoltage _ _ => []
  | .inputOvercurrent _ _ => []
  | .latchClear _ _ => []
  | .modResetAssert _ => []
  | .modResetRelease => []
  | .bootStageComplete _ => []
  | .scrubComplete p => [(p, 4)]
  | .demotionComplete p _ _ => [(p, 4)]
  | .weightsBindComplete h => [(h, 2 ^ 20)]
  | .romRecActionDone _ => []
  | .pldmThermCfgWrite value => [(value, 2 ^ 32)]
  | .managementEndGrace p => [(p, 4)]
  | .vfEnable port _ => [(port, 4)]
  | .usneaMessageCrcFailure _ _ => []
  | .msixMessageSend fn q => [(fn, 260), (q, 65536)]

/-- In a well-formed command every such number is below its bound. -/
def Statement (i : Instr) : Prop := i.wf = true → ∀ u ∈ numbers i, u.1 < u.2

/-- NOP. -/
theorem nop (h : Nat) : Statement (.nop h) := by
  simp +contextual [Statement, numbers, Instr.wf, okHandle]

/-- ABORT. -/
theorem abort (h : Nat) : Statement (.abort h) := by
  simp +contextual [Statement, numbers, Instr.wf, okHandle]

/-- PARTITION_SET_CONFIGURE. -/
theorem partitionSetConfigure (h : Nat) (data : Bytes) : Statement (.partitionSetConfigure h data) := by
  simp +contextual [Statement, numbers, Instr.wf, okHandle]

/-- PARTITION_SET_DELETE. -/
theorem partitionSetDelete (h : Nat) : Statement (.partitionSetDelete h) := by
  simp +contextual [Statement, numbers, Instr.wf, okHandle]

/-- PARTITION_SET_END_GRACE. -/
theorem partitionSetEndGrace (h : Nat) : Statement (.partitionSetEndGrace h) := by
  simp +contextual [Statement, numbers, Instr.wf, okHandle]

/-- MEM_ALLOC. -/
theorem memAlloc (h : Nat) : Statement (.memAlloc h) := by
  simp +contextual [Statement, numbers, Instr.wf, okHandle]

/-- MEM_FREE. -/
theorem memFree (h : Nat) : Statement (.memFree h) := by
  simp +contextual [Statement, numbers, Instr.wf, okHandle]

/-- PROGRAM_LOAD. -/
theorem programLoad (h : Nat) (data : Bytes) : Statement (.programLoad h data) := by
  simp +contextual [Statement, numbers, Instr.wf, okHandle]

/-- MICROPROG_LOAD. -/
theorem microprogLoad (h : Nat) (data : Bytes) : Statement (.microprogLoad h data) := by
  simp +contextual [Statement, numbers, Instr.wf, okHandle]

/-- MICROPROG_RESTORE. -/
theorem microprogRestore (h : Nat) : Statement (.microprogRestore h) := by
  simp +contextual [Statement, numbers, Instr.wf, okHandle]

/-- PIPELINE_SUBMIT. -/
theorem pipelineSubmit (h : Nat) (data : Bytes) : Statement (.pipelineSubmit h data) := by
  simp +contextual [Statement, numbers, Instr.wf, okHandle]

/-- PIPELINE_RUN. -/
theorem pipelineRun (h : Nat) : Statement (.pipelineRun h) := by
  simp +contextual [Statement, numbers, Instr.wf, okHandle]

/-- PIPELINE_STOP. -/
theorem pipelineStop (h : Nat) : Statement (.pipelineStop h) := by
  simp +contextual [Statement, numbers, Instr.wf, okHandle]

/-- PIPELINE_STOP_DELETE. -/
theorem pipelineStopDelete (h : Nat) : Statement (.pipelineStopDelete h) := by
  simp +contextual [Statement, numbers, Instr.wf, okHandle]

/-- TICK_SET. -/
theorem tickSet (h : Nat) : Statement (.tickSet h) := by
  simp +contextual [Statement, numbers, Instr.wf, okHandle]

/-- WEIGHTS_BIND. -/
theorem weightsBind (h : Nat) (data : Bytes) : Statement (.weightsBind h data) := by
  simp +contextual [Statement, numbers, Instr.wf, okHandle]

/-- SEQ_CREATE. -/
theorem seqCreate (h : Nat) : Statement (.seqCreate h) := by
  simp +contextual [Statement, numbers, Instr.wf, okHandle]

/-- SEQ_APPEND. -/
theorem seqAppend (h : Nat) (data : Bytes) : Statement (.seqAppend h data) := by
  simp +contextual [Statement, numbers, Instr.wf, okHandle]

/-- SEQ_SUSPEND. -/
theorem seqSuspend (h : Nat) : Statement (.seqSuspend h) := by
  simp +contextual [Statement, numbers, Instr.wf, okHandle]

/-- SEQ_SUSPEND_PARK. -/
theorem seqSuspendPark (h : Nat) : Statement (.seqSuspendPark h) := by
  simp +contextual [Statement, numbers, Instr.wf, okHandle]

/-- SEQ_SUSPEND_EVICT_ONLY. -/
theorem seqSuspendEvictOnly (h : Nat) : Statement (.seqSuspendEvictOnly h) := by
  simp +contextual [Statement, numbers, Instr.wf, okHandle]

/-- SEQ_RESUME_LAZY. -/
theorem seqResumeLazy (h : Nat) : Statement (.seqResumeLazy h) := by
  simp +contextual [Statement, numbers, Instr.wf, okHandle]

/-- SEQ_RESUME_EAGER. -/
theorem seqResumeEager (h : Nat) : Statement (.seqResumeEager h) := by
  simp +contextual [Statement, numbers, Instr.wf, okHandle]

/-- SEQ_DESTROY. -/
theorem seqDestroy (h : Nat) : Statement (.seqDestroy h) := by
  simp +contextual [Statement, numbers, Instr.wf, okHandle]

/-- PREFIX_LOOKUP_LOOKUP. -/
theorem prefixLookupLookup (h : Nat) (data : Bytes) : Statement (.prefixLookupLookup h data) := by
  simp +contextual [Statement, numbers, Instr.wf, okHandle]

/-- PREFIX_LOOKUP_MAP. -/
theorem prefixLookupMap (h : Nat) (data : Bytes) : Statement (.prefixLookupMap h data) := by
  simp +contextual [Statement, numbers, Instr.wf, okHandle]

/-- PREFIX_LOOKUP_INSERT. -/
theorem prefixLookupInsert (h : Nat) (data : Bytes) : Statement (.prefixLookupInsert h data) := by
  simp +contextual [Statement, numbers, Instr.wf, okHandle]

/-- PREFIX_LOOKUP_DROP. -/
theorem prefixLookupDrop (h : Nat) : Statement (.prefixLookupDrop h) := by
  simp +contextual [Statement, numbers, Instr.wf, okHandle]

/-- PAGE_EDIT. -/
theorem pageEdit (h : Nat) (data : Bytes) : Statement (.pageEdit h data) := by
  simp +contextual [Statement, numbers, Instr.wf, okHandle]

/-- TIER_PREFETCH. -/
theorem tierPrefetch (h : Nat) : Statement (.tierPrefetch h) := by
  simp +contextual [Statement, numbers, Instr.wf, okHandle]

/-- TIER_FLUSH. -/
theorem tierFlush (h : Nat) : Statement (.tierFlush h) := by
  simp +contextual [Statement, numbers, Instr.wf, okHandle]

/-- VIDEO_SESSION_OPEN. -/
theorem videoSessionOpen (h : Nat) (data : Bytes) : Statement (.videoSessionOpen h data) := by
  simp +contextual [Statement, numbers, Instr.wf, okHandle]

/-- VIDEO_SESSION_RECONFIG. -/
theorem videoSessionReconfig (h : Nat) (data : Bytes) : Statement (.videoSessionReconfig h data) := by
  simp +contextual [Statement, numbers, Instr.wf, okHandle]

/-- VIDEO_SESSION_CLOSE. -/
theorem videoSessionClose (h : Nat) : Statement (.videoSessionClose h) := by
  simp +contextual [Statement, numbers, Instr.wf, okHandle]

/-- VIDEO_FRAME. -/
theorem videoFrame (h : Nat) (data : Bytes) : Statement (.videoFrame h data) := by
  simp +contextual [Statement, numbers, Instr.wf, okHandle]

/-- VIDEO_FRAME_EOS. -/
theorem videoFrameEos (h : Nat) (data : Bytes) : Statement (.videoFrameEos h data) := by
  simp +contextual [Statement, numbers, Instr.wf, okHandle]

/-- COLLECTIVE_LAUNCH. -/
theorem collectiveLaunch (h : Nat) (data : Bytes) : Statement (.collectiveLaunch h data) := by
  simp +contextual [Statement, numbers, Instr.wf, okHandle]

/-- ATTEST. -/
theorem attest (h : Nat) : Statement (.attest h) := by
  simp +contextual [Statement, numbers, Instr.wf, okHandle]

/-- SESSION_OPEN. -/
theorem sessionOpen (h : Nat) (data : Bytes) : Statement (.sessionOpen h data) := by
  simp +contextual [Statement, numbers, Instr.wf, okHandle]

/-- KEY_IMPORT. -/
theorem keyImport (h : Nat) (data : Bytes) : Statement (.keyImport h data) := by
  simp +contextual [Statement, numbers, Instr.wf, okHandle]

/-- KEY_IMPORT_ERASE. -/
theorem keyImportErase (h : Nat) (data : Bytes) : Statement (.keyImportErase h data) := by
  simp +contextual [Statement, numbers, Instr.wf, okHandle]

/-- KEY_ROTATE. -/
theorem keyRotate (h : Nat) : Statement (.keyRotate h) := by
  simp +contextual [Statement, numbers, Instr.wf, okHandle]

/-- LEDGER_READ. -/
theorem ledgerRead (h : Nat) : Statement (.ledgerRead h) := by
  simp +contextual [Statement, numbers, Instr.wf, okHandle]

/-- TELEMETRY_READ. -/
theorem telemetryRead (h : Nat) : Statement (.telemetryRead h) := by
  simp +contextual [Statement, numbers, Instr.wf, okHandle]

/-- FW_UPDATE_STAGE. -/
theorem fwUpdateStage (h : Nat) (data : Bytes) : Statement (.fwUpdateStage h data) := by
  simp +contextual [Statement, numbers, Instr.wf, okHandle]

/-- FW_UPDATE_COMMIT. -/
theorem fwUpdateCommit (h : Nat) : Statement (.fwUpdateCommit h) := by
  simp +contextual [Statement, numbers, Instr.wf, okHandle]

/-- FW_COMMIT_COMPLETE. -/
theorem fwCommitComplete (ok : Bool) : Statement (.fwCommitComplete ok) := by
  simp +contextual [Statement, numbers, Instr.wf]

/-- MM_TILE. -/
theorem mmTile (core : Nat) : Statement (.mmTile core) := by
  simp +contextual [Statement, numbers, Instr.wf, okCore]

/-- MM_CONV. -/
theorem mmConv (core : Nat) : Statement (.mmConv core) := by
  simp +contextual [Statement, numbers, Instr.wf, okCore]

/-- MM_DRAIN. -/
theorem mmDrain (core : Nat) : Statement (.mmDrain core) := by
  simp +contextual [Statement, numbers, Instr.wf, okCore]

/-- RESIDUAL_FETCH_LANDED. -/
theorem residualFetchLanded (core : Nat) : Statement (.residualFetchLanded core) := by
  simp +contextual [Statement, numbers, Instr.wf, okCore]

/-- QZ_QUANT. -/
theorem qzQuant (core : Nat) : Statement (.qzQuant core) := by
  simp +contextual [Statement, numbers, Instr.wf, okCore]

/-- QZ_DEQUANT. -/
theorem qzDequant (core : Nat) : Statement (.qzDequant core) := by
  simp +contextual [Statement, numbers, Instr.wf, okCore]

/-- VX_EW. -/
theorem vxEw (core : Nat) : Statement (.vxEw core) := by
  simp +contextual [Statement, numbers, Instr.wf, okCore]

/-- VX_ROW. -/
theorem vxRow (core : Nat) : Statement (.vxRow core) := by
  simp +contextual [Statement, numbers, Instr.wf, okCore]

/-- VX_COL. -/
theorem vxCol (core : Nat) : Statement (.vxCol core) := by
  simp +contextual [Statement, numbers, Instr.wf, okCore]

/-- VX_FILL. -/
theorem vxFill (core : Nat) : Statement (.vxFill core) := by
  simp +contextual [Statement, numbers, Instr.wf, okCore]

/-- SF_FN. -/
theorem sfFn (core : Nat) : Statement (.sfFn core) := by
  simp +contextual [Statement, numbers, Instr.wf, okCore]

/-- SF_PROG. -/
theorem sfProg (core : Nat) : Statement (.sfProg core) := by
  simp +contextual [Statement, numbers, Instr.wf, okCore]

/-- RS_SUM. -/
theorem rsSum (core : Nat) : Statement (.rsSum core) := by
  simp +contextual [Statement, numbers, Instr.wf, okCore]

/-- RS_MAX. -/
theorem rsMax (core : Nat) : Statement (.rsMax core) := by
  simp +contextual [Statement, numbers, Instr.wf, okCore]

/-- RS_SMAX. -/
theorem rsSmax (core : Nat) : Statement (.rsSmax core) := by
  simp +contextual [Statement, numbers, Instr.wf, okCore]

/-- RS_GAP. -/
theorem rsGap (core : Nat) : Statement (.rsGap core) := by
  simp +contextual [Statement, numbers, Instr.wf, okCore]

/-- DMA_COPY. -/
theorem dmaCopy (core : Nat) : Statement (.dmaCopy core) := by
  simp +contextual [Statement, numbers, Instr.wf, okCore]

/-- DMA_SEQ. -/
theorem dmaSeq (core : Nat) : Statement (.dmaSeq core) := by
  simp +contextual [Statement, numbers, Instr.wf, okCore]

/-- DMA_PREFETCH. -/
theorem dmaPrefetch (core : Nat) : Statement (.dmaPrefetch core) := by
  simp +contextual [Statement, numbers, Instr.wf, okCore]

/-- DMA_RING. -/
theorem dmaRing (core : Nat) : Statement (.dmaRing core) := by
  simp +contextual [Statement, numbers, Instr.wf, okCore]

/-- RING_BURST_FETCH. -/
theorem ringBurstFetch (core : Nat) : Statement (.ringBurstFetch core) := by
  simp +contextual [Statement, numbers, Instr.wf, okCore]

/-- DESCRIPTOR_COMPLETE. -/
theorem descriptorComplete (core : Nat) (index : Nat) : Statement (.descriptorComplete core index) := by
  simp +contextual [Statement, numbers, Instr.wf, okCore]

/-- HX_PUT. -/
theorem hxPut (core : Nat) : Statement (.hxPut core) := by
  simp +contextual [Statement, numbers, Instr.wf, okCore]

/-- HX_GET. -/
theorem hxGet (core : Nat) : Statement (.hxGet core) := by
  simp +contextual [Statement, numbers, Instr.wf, okCore]

/-- HX_FREE. -/
theorem hxFree (core : Nat) : Statement (.hxFree core) := by
  simp +contextual [Statement, numbers, Instr.wf, okCore]

/-- HALO_WAIT_SATISFIED. -/
theorem haloWaitSatisfied (core : Nat) : Statement (.haloWaitSatisfied core) := by
  simp +contextual [Statement, numbers, Instr.wf, okCore]

/-- CNT_CLAIM. -/
theorem cntClaim (core : Nat) : Statement (.cntClaim core) := by
  simp +contextual [Statement, numbers, Instr.wf, okCore]

/-- CNT_ADD. -/
theorem cntAdd (core : Nat) : Statement (.cntAdd core) := by
  simp +contextual [Statement, numbers, Instr.wf, okCore]

/-- CNT_CAS. -/
theorem cntCas (core : Nat) : Statement (.cntCas core) := by
  simp +contextual [Statement, numbers, Instr.wf, okCore]

/-- CNT_READ. -/
theorem cntRead (core : Nat) : Statement (.cntRead core) := by
  simp +contextual [Statement, numbers, Instr.wf, okCore]

/-- CNT_STEAL. -/
theorem cntSteal (core : Nat) : Statement (.cntSteal core) := by
  simp +contextual [Statement, numbers, Instr.wf, okCore]

/-- CNT_COMMIT. -/
theorem cntCommit (core : Nat) : Statement (.cntCommit core) := by
  simp +contextual [Statement, numbers, Instr.wf, okCore]

/-- CNT_CREDIT. -/
theorem cntCredit (core : Nat) : Statement (.cntCredit core) := by
  simp +contextual [Statement, numbers, Instr.wf, okCore]

/-- PG_APPEND. -/
theorem pgAppend (core : Nat) : Statement (.pgAppend core) := by
  simp +contextual [Statement, numbers, Instr.wf, okCore]

/-- PG_PUBLISH. -/
theorem pgPublish (core : Nat) : Statement (.pgPublish core) := by
  simp +contextual [Statement, numbers, Instr.wf, okCore]

/-- PG_PREFETCH. -/
theorem pgPrefetch (core : Nat) : Statement (.pgPrefetch core) := by
  simp +contextual [Statement, numbers, Instr.wf, okCore]

/-- PG_INFO. -/
theorem pgInfo (core : Nat) : Statement (.pgInfo core) := by
  simp +contextual [Statement, numbers, Instr.wf, okCore]

/-- WALKER_DESCRIPTOR_EMIT. -/
theorem walkerDescriptorEmit (cluster : Nat) : Statement (.walkerDescriptorEmit cluster) := by
  simp +contextual [Statement, numbers, Instr.wf, okCluster]

/-- COL_SEND. -/
theorem colSend (core : Nat) : Statement (.colSend core) := by
  simp +contextual [Statement, numbers, Instr.wf, okCore]

/-- COL_RECV. -/
theorem colRecv (core : Nat) : Statement (.colRecv core) := by
  simp +contextual [Statement, numbers, Instr.wf, okCore]

/-- COL_RECV_SATISFIED. -/
theorem colRecvSatisfied (core : Nat) : Statement (.colRecvSatisfied core) := by
  simp +contextual [Statement, numbers, Instr.wf, okCore]

/-- COL_REDUCE. -/
theorem colReduce (core : Nat) : Statement (.colReduce core) := by
  simp +contextual [Statement, numbers, Instr.wf, okCore]

/-- COL_BARRIER. -/
theorem colBarrier (core : Nat) : Statement (.colBarrier core) := by
  simp +contextual [Statement, numbers, Instr.wf, okCore]

/-- USNEA_GROUP_COMPLETE. -/
theorem usneaGroupComplete (core : Nat) : Statement (.usneaGroupComplete core) := by
  simp +contextual [Statement, numbers, Instr.wf, okCore]

/-- SYNC_DONE. -/
theorem syncDone (core : Nat) : Statement (.syncDone core) := by
  simp +contextual [Statement, numbers, Instr.wf, okCore]

/-- SYNC_TICK. -/
theorem syncTick (core : Nat) : Statement (.syncTick core) := by
  simp +contextual [Statement, numbers, Instr.wf, okCore]

/-- SYNC_WAIT. -/
theorem syncWait (core : Nat) : Statement (.syncWait core) := by
  simp +contextual [Statement, numbers, Instr.wf, okCore]

/-- SYNC_WAIT_SATISFIED. -/
theorem syncWaitSatisfied (core : Nat) : Statement (.syncWaitSatisfied core) := by
  simp +contextual [Statement, numbers, Instr.wf, okCore]

/-- SYNC_TIME. -/
theorem syncTime (core : Nat) : Statement (.syncTime core) := by
  simp +contextual [Statement, numbers, Instr.wf, okCore]

/-- CTL_LI. -/
theorem ctlLi (core : Nat) : Statement (.ctlLi core) := by
  simp +contextual [Statement, numbers, Instr.wf, okCore]

/-- CTL_ALU. -/
theorem ctlAlu (core : Nat) : Statement (.ctlAlu core) := by
  simp +contextual [Statement, numbers, Instr.wf, okCore]

/-- CTL_CMP. -/
theorem ctlCmp (core : Nat) : Statement (.ctlCmp core) := by
  simp +contextual [Statement, numbers, Instr.wf, okCore]

/-- CTL_PSET. -/
theorem ctlPset (core : Nat) : Statement (.ctlPset core) := by
  simp +contextual [Statement, numbers, Instr.wf, okCore]

/-- CTL_BR. -/
theorem ctlBr (core : Nat) : Statement (.ctlBr core) := by
  simp +contextual [Statement, numbers, Instr.wf, okCore]

/-- CTL_LOOP. -/
theorem ctlLoop (core : Nat) : Statement (.ctlLoop core) := by
  simp +contextual [Statement, numbers, Instr.wf, okCore]

/-- CTL_LDR. -/
theorem ctlLdr (core : Nat) : Statement (.ctlLdr core) := by
  simp +contextual [Statement, numbers, Instr.wf, okCore]

/-- CTL_STR. -/
theorem ctlStr (core : Nat) : Statement (.ctlStr core) := by
  simp +contextual [Statement, numbers, Instr.wf, okCore]

/-- CTL_NOP. -/
theorem ctlNop (core : Nat) : Statement (.ctlNop core) := by
  simp +contextual [Statement, numbers, Instr.wf, okCore]

/-- OPERATION_COMPLETE. -/
theorem operationComplete (core : Nat) (index : Nat) : Statement (.operationComplete core index) := by
  simp +contextual [Statement, numbers, Instr.wf, okCore]

/-- DONE_REPORT. -/
theorem doneReport (core : Nat) : Statement (.doneReport core) := by
  simp +contextual [Statement, numbers, Instr.wf, okCore]

/-- TICK_BOUNDARY. -/
theorem tickBoundary (p : Nat) : Statement (.tickBoundary p) := by
  simp +contextual [Statement, numbers, Instr.wf, okPart]

/-- STRETCH_LIMIT. -/
theorem stretchLimit (p : Nat) : Statement (.stretchLimit p) := by
  simp +contextual [Statement, numbers, Instr.wf, okPart]

/-- BOUNDARY_DECISION. -/
theorem boundaryDecision (p : Nat) : Statement (.boundaryDecision p) := by
  simp +contextual [Statement, numbers, Instr.wf, okPart]

/-- HOLD_EXPIRY. -/
theorem holdExpiry (p : Nat) (seq : Nat) : Statement (.holdExpiry p seq) := by
  simp +contextual [Statement, numbers, Instr.wf, okPart]

/-- EDIT_BATCH_EXPIRY. -/
theorem editBatchExpiry (p : Nat) : Statement (.editBatchExpiry p) := by
  simp +contextual [Statement, numbers, Instr.wf, okPart]

/-- RESUME_EXPIRY. -/
theorem resumeExpiry (p : Nat) (seq : Nat) : Statement (.resumeExpiry p seq) := by
  simp +contextual [Statement, numbers, Instr.wf, okPart]

/-- RUN_WINDOW_COUNT_REACHED. -/
theorem runWindowCountReached (p : Nat) (slot : Nat) : Statement (.runWindowCountReached p slot) := by
  simp +contextual [Statement, numbers, Instr.wf, okPart]

/-- PIPELINE_STOP_DRAINED. -/
theorem pipelineStopDrained (p : Nat) (slot : Nat) : Statement (.pipelineStopDrained p slot) := by
  simp +contextual [Statement, numbers, Instr.wf, okPart]

/-- LEDGER_STAGING_PLACE. -/
theorem ledgerStagingPlace (p : Nat) : Statement (.ledgerStagingPlace p) := by
  simp +contextual [Statement, numbers, Instr.wf, okPart]

/-- PARK_COMPLETE. -/
theorem parkComplete (p : Nat) (seq : Nat) : Statement (.parkComplete p seq) := by
  simp +contextual [Statement, numbers, Instr.wf, okPart]

/-- RESUME_COMPLETE. -/
theorem resumeComplete (p : Nat) (seq : Nat) : Statement (.resumeComplete p seq) := by
  simp +contextual [Statement, numbers, Instr.wf, okPart]

/-- BASE_DIE_REQUEST. -/
theorem baseDieRequest (stack : Nat) (req : StackReq) : Statement (.baseDieRequest stack req) := by
  simp +contextual [Statement, numbers, Instr.wf, okStack]

/-- THROTTLE_RELEASE. -/
theorem throttleRelease (stack : Nat) (tokens : Nat) : Statement (.throttleRelease stack tokens) := by
  simp +contextual [Statement, numbers, Instr.wf, okStack]

/-- TAG_CONVERSION_DONE. -/
theorem tagConversionDone (stack : Nat) (unit : Nat) : Statement (.tagConversionDone stack unit) := by
  simp +contextual [Statement, numbers, Instr.wf, okStack, okUnit]

/-- THERMAL_SAMPLE. -/
theorem thermalSample (stack : Nat) (temp : Nat) : Statement (.thermalSample stack temp) := by
  simp +contextual [Statement, numbers, Instr.wf, okStack]

/-- DRAM_REFRESH. -/
theorem dramRefresh (stack : Nat) (bank : Nat) : Statement (.dramRefresh stack bank) := by
  simp +contextual [Statement, numbers, Instr.wf, okBank, okStack]

/-- BACKGROUND_ATOM_SCRUB. -/
theorem backgroundAtomScrub (stack : Nat) (atom : Nat) (ecc : EccOutcome) : Statement (.backgroundAtomScrub stack atom ecc) := by
  simp +contextual [Statement, numbers, Instr.wf, okStack]

/-- MIGRATION_LANDED. -/
theorem migrationLanded (p : Nat) (page : Nat) (bad : Nat) : Statement (.migrationLanded p page bad) := by
  simp +contextual [Statement, numbers, Instr.wf, okPart]

/-- FOLNAS_RETRY_BOUND. -/
theorem folnasRetryBound (p : Nat) (page : Nat) (undecoded : Nat) : Statement (.folnasRetryBound p page undecoded) := by
  simp +contextual [Statement, numbers, Instr.wf, okPart]

/-- RESERVE_FRAME_RETURN. -/
theorem reserveFrameReturn (p : Nat) (page : Nat) : Statement (.reserveFrameReturn p page) := by
  simp +contextual [Statement, numbers, Instr.wf, okPart]

/-- BACKGROUND_WRITE_BACK. -/
theorem backgroundWriteBack (p : Nat) : Statement (.backgroundWriteBack p) := by
  simp +contextual [Statement, numbers, Instr.wf, okPart]

/-- EVICTION_WRITE_BACK_DONE. -/
theorem evictionWriteBackDone (p : Nat) (page : Nat) : Statement (.evictionWriteBackDone p page) := by
  simp +contextual [Statement, numbers, Instr.wf, okPart]

/-- TIER_FLUSH_DURABLE. -/
theorem tierFlushDurable (h : Nat) (ok : Bool) : Statement (.tierFlushDurable h ok) := by
  simp +contextual [Statement, numbers, Instr.wf, okHandle]

/-- GARBAGE_COLLECTION. -/
theorem garbageCollection (block : Nat) : Statement (.garbageCollection block) := by
  simp +contextual [Statement, numbers, Instr.wf, okBlock]

/-- WEAR_LEVELLING. -/
theorem wearLevelling (cold : Nat) (worn : Nat) : Statement (.wearLevelling cold worn) := by
  simp +contextual [Statement, numbers, Instr.wf, okBlock]

/-- READ_DISTURB_REFRESH. -/
theorem readDisturbRefresh (block : Nat) : Statement (.readDisturbRefresh block) := by
  simp +contextual [Statement, numbers, Instr.wf, okBlock]

/-- FOLNAS_PATROL. -/
theorem folnasPatrol (block : Nat) (corrected : Nat) : Statement (.folnasPatrol block corrected) := by
  simp +contextual [Statement, numbers, Instr.wf, okBlock]

/-- BAD_BLOCK_RETIRE. -/
theorem badBlockRetire (block : Nat) : Statement (.badBlockRetire block) := by
  simp +contextual [Statement, numbers, Instr.wf, okBlock]

/-- READ_ONLY_MODE_ENTRY. -/
theorem readOnlyModeEntry : Statement (.readOnlyModeEntry) := by
  simp +contextual [Statement, numbers, Instr.wf]

/-- FLIT_CRC_FAILURE. -/
theorem flitCrcFailure (link : Nat) (dir : Nat) : Statement (.flitCrcFailure link dir) := by
  simp +contextual [Statement, numbers, Instr.wf, okDir, okLink]

/-- REPLAY_RUN_EXHAUSTED. -/
theorem replayRunExhausted (link : Nat) : Statement (.replayRunExhausted link) := by
  simp +contextual [Statement, numbers, Instr.wf, okLink]

/-- RETRAIN_COMPLETE. -/
theorem retrainComplete (link : Nat) (lanes : Nat) : Statement (.retrainComplete link lanes) := by
  simp +contextual [Statement, numbers, Instr.wf, okLink]

/-- USNEA_HUB_FAILURE. -/
theorem usneaHubFailure (level : Nat) (unit : Nat) : Statement (.usneaHubFailure level unit) := by
  simp +contextual [Statement, numbers, Instr.wf]

/-- CLUSTER_CONTROL_CORE_FAILURE. -/
theorem clusterControlCoreFailure (cluster : Nat) : Statement (.clusterControlCoreFailure cluster) := by
  simp +contextual [Statement, numbers, Instr.wf, okCluster]

/-- CARNELIAN_FAULT. -/
theorem carnelianFault (kind : Nat) : Statement (.carnelianFault kind) := by
  simp +contextual [Statement, numbers, Instr.wf]

/-- PERIDOT_WATCHDOG. -/
theorem peridotWatchdog (core : Nat) : Statement (.peridotWatchdog core) := by
  simp +contextual [Statement, numbers, Instr.wf, okCore]

/-- PERIDOT_SRAM_ERROR. -/
theorem peridotSramError (core : Nat) : Statement (.peridotSramError core) := by
  simp +contextual [Statement, numbers, Instr.wf, okCore]

/-- VIDEO_FRAME_START. -/
theorem videoFrameStart (engine : Nat) : Statement (.videoFrameStart engine) := by
  simp +contextual [Statement, numbers, Instr.wf, okEngine]

/-- GUARD_ROW_COUNTED. -/
theorem guardRowCounted (engine : Nat) (bits : Nat) : Statement (.guardRowCounted engine bits) := by
  simp +contextual [Statement, numbers, Instr.wf, okEngine]

/-- VIDEO_FRAME_COMPLETE. -/
theorem videoFrameComplete (engine : Nat) (result : FrameResult) : Statement (.videoFrameComplete engine result) := by
  simp +contextual [Statement, numbers, Instr.wf, okEngine]

/-- AGATE_ENGINE_FAILURE. -/
theorem agateEngineFailure (engine : Nat) : Statement (.agateEngineFailure engine) := by
  simp +contextual [Statement, numbers, Instr.wf, okEngine]

/-- SWEEP_COMPLETE. -/
theorem sweepComplete (p : Nat) : Statement (.sweepComplete p) := by
  simp +contextual [Statement, numbers, Instr.wf, okPart]

/-- COMMAND_FETCH. -/
theorem commandFetch (fn : Nat) (q : Nat) (cmd : Bytes) : Statement (.commandFetch fn q cmd) := by
  simp +contextual [Statement, numbers, Instr.wf, okFn, okQueue]

/-- COMMAND_TIMEOUT. -/
theorem commandTimeout (h : Nat) : Statement (.commandTimeout h) := by
  simp +contextual [Statement, numbers, Instr.wf, okHandle]

/-- TIMEOUT_DEFERRAL_END. -/
theorem timeoutDeferralEnd (h : Nat) : Statement (.timeoutDeferralEnd h) := by
  simp +contextual [Statement, numbers, Instr.wf, okHandle]

/-- LATE_COMPLETION. -/
theorem lateCompletion (h : Nat) : Statement (.lateCompletion h) := by
  simp +contextual [Statement, numbers, Instr.wf, okHandle]

/-- QP_DRAIN_COMPLETE. -/
theorem qpDrainComplete (fn : Nat) (q : Nat) : Statement (.qpDrainComplete fn q) := by
  simp +contextual [Statement, numbers, Instr.wf, okFn, okQueue]

/-- REQUESTER_COMPLETION_TIMEOUT. -/
theorem requesterCompletionTimeout (fn : Nat) (q : Nat) : Statement (.requesterCompletionTimeout fn q) := by
  simp +contextual [Statement, numbers, Instr.wf, okFn, okQueue]

/-- QP_SQ_DOORBELL. -/
theorem qpSqDoorbell (fn : Nat) (q : Nat) (value : Nat) : Statement (.qpSqDoorbell fn q value) := by
  simp +contextual [Statement, numbers, Instr.wf, okFn, okQueue, okValue]

/-- QP_CQ_DOORBELL. -/
theorem qpCqDoorbell (fn : Nat) (q : Nat) (value : Nat) : Statement (.qpCqDoorbell fn q value) := by
  simp +contextual [Statement, numbers, Instr.wf, okFn, okQueue, okValue]

/-- QP_ENABLE. -/
theorem qpEnable (fn : Nat) (q : Nat) (value : Nat) : Statement (.qpEnable fn q value) := by
  simp +contextual [Statement, numbers, Instr.wf, okFn, okQueue, okValue]

/-- QP_DISABLE. -/
theorem qpDisable (fn : Nat) (q : Nat) (value : Nat) : Statement (.qpDisable fn q value) := by
  simp +contextual [Statement, numbers, Instr.wf, okFn, okQueue, okValue]

/-- QP_REARM. -/
theorem qpRearm (fn : Nat) (q : Nat) (value : Nat) : Statement (.qpRearm fn q value) := by
  simp +contextual [Statement, numbers, Instr.wf, okFn, okQueue, okValue]

/-- HOST_BAR2_WINDOW_WRITE. -/
theorem hostBar2WindowWrite (fn : Nat) (value : Nat) : Statement (.hostBar2WindowWrite fn value) := by
  simp +contextual [Statement, numbers, Instr.wf, okBase, okFn]

/-- HOST_PORT_CFG_WRITE. -/
theorem hostPortCfgWrite (fn : Nat) (value : Nat) : Statement (.hostPortCfgWrite fn value) := by
  simp +contextual [Statement, numbers, Instr.wf, okFn, okValue]

/-- BERYL_THERM_CFG_WRITE. -/
theorem berylThermCfgWrite (fn : Nat) (value : Nat) : Statement (.berylThermCfgWrite fn value) := by
  simp +contextual [Statement, numbers, Instr.wf, okFn, okValue]

/-- TICK_REGISTER_LOW_READ. -/
theorem tickRegisterLowRead (fn : Nat) (offset : Nat) : Statement (.tickRegisterLowRead fn offset) := by
  simp +contextual [Statement, numbers, Instr.wf, okFn]

/-- REGISTER_WRITE. -/
theorem registerWrite (fn : Nat) (offset : Nat) (value : Nat) : Statement (.registerWrite fn offset value) := by
  simp +contextual [Statement, numbers, Instr.wf, okFn, okValue]

/-- ROM_REC_WRITE. -/
theorem romRecWrite (fn : Nat) (chunk : Nat) : Statement (.romRecWrite fn chunk) := by
  simp +contextual [Statement, numbers, Instr.wf, okFn]

/-- ROM_REC_FINISH. -/
theorem romRecFinish (fn : Nat) : Statement (.romRecFinish fn) := by
  simp +contextual [Statement, numbers, Instr.wf, okFn]

/-- ROM_REC_ABORT. -/
theorem romRecAbort (fn : Nat) : Statement (.romRecAbort fn) := by
  simp +contextual [Statement, numbers, Instr.wf, okFn]

/-- BAR2_REQUEST. -/
theorem bar2Request (fn : Nat) (offset : Nat) (req : Bar2Req) : Statement (.bar2Request fn offset req) := by
  simp +contextual [Statement, numbers, Instr.wf, okFn]

/-- BAR2_RESIZE. -/
theorem bar2Resize (fn : Nat) (log2 : Nat) : Statement (.bar2Resize fn log2) := by
  simp +contextual [Statement, numbers, Instr.wf, okFn]

/-- HOST_LINK_UP. -/
theorem hostLinkUp (port : Nat) (width : Nat) (speed : Nat) (flit : Bool) : Statement (.hostLinkUp port width speed flit) := by
  simp +contextual [Statement, numbers, Instr.wf, okPort]

/-- HOST_LINK_DOWN. -/
theorem hostLinkDown (port : Nat) : Statement (.hostLinkDown port) := by
  simp +contextual [Statement, numbers, Instr.wf, okPort]

/-- PERST_ASSERT. -/
theorem perstAssert (port : Nat) : Statement (.perstAssert port) := by
  simp +contextual [Statement, numbers, Instr.wf, okPort]

/-- PERST_RELEASE. -/
theorem perstRelease (port : Nat) : Statement (.perstRelease port) := by
  simp +contextual [Statement, numbers, Instr.wf, okPort]

/-- HOT_RESET. -/
theorem hotReset (port : Nat) : Statement (.hotReset port) := by
  simp +contextual [Statement, numbers, Instr.wf, okPort]

/-- FUNCTION_LEVEL_RESET. -/
theorem functionLevelReset (fn : Nat) : Statement (.functionLevelReset fn) := by
  simp +contextual [Statement, numbers, Instr.wf, okFn]

/-- VF_DISABLE. -/
theorem vfDisable (port : Nat) : Statement (.vfDisable port) := by
  simp +contextual [Statement, numbers, Instr.wf, okPort]

/-- GRACE_EXPIRY. -/
theorem graceExpiry (p : Nat) : Statement (.graceExpiry p) := by
  simp +contextual [Statement, numbers, Instr.wf, okPart]

/-- D3HOT_ENTRY. -/
theorem d3hotEntry (port : Nat) : Statement (.d3hotEntry port) := by
  simp +contextual [Statement, numbers, Instr.wf, okPort]

/-- D0_RETURN. -/
theorem d0Return (port : Nat) : Statement (.d0Return port) := by
  simp +contextual [Statement, numbers, Instr.wf, okPort]

/-- LOW_POWER_ENTRY. -/
theorem lowPowerEntry : Statement (.lowPowerEntry) := by
  simp +contextual [Statement, numbers, Instr.wf]

/-- GET_VERSION. -/
theorem getVersion (src : SpdmSrc) : Statement (.getVersion src) := by
  simp +contextual [Statement, numbers, Instr.wf]

/-- GET_CAPABILITIES. -/
theorem getCapabilities (src : SpdmSrc) : Statement (.getCapabilities src) := by
  simp +contextual [Statement, numbers, Instr.wf]

/-- NEGOTIATE_ALGORITHMS. -/
theorem negotiateAlgorithms (src : SpdmSrc) (algs : Nat) : Statement (.negotiateAlgorithms src algs) := by
  simp +contextual [Statement, numbers, Instr.wf]

/-- GET_DIGESTS. -/
theorem getDigests (src : SpdmSrc) : Statement (.getDigests src) := by
  simp +contextual [Statement, numbers, Instr.wf]

/-- GET_CERTIFICATE. -/
theorem getCertificate (src : SpdmSrc) : Statement (.getCertificate src) := by
  simp +contextual [Statement, numbers, Instr.wf]

/-- GET_MEASUREMENTS. -/
theorem getMeasurements (src : SpdmSrc) (nonce : Bytes) : Statement (.getMeasurements src nonce) := by
  simp +contextual [Statement, numbers, Instr.wf]

/-- KEY_EXCHANGE. -/
theorem keyExchange (src : SpdmSrc) (ek : Bytes) : Statement (.keyExchange src ek) := by
  simp +contextual [Statement, numbers, Instr.wf]

/-- FINISH. -/
theorem finish (src : SpdmSrc) (verified : Bool) : Statement (.finish src verified) := by
  simp +contextual [Statement, numbers, Instr.wf]

/-- PSK_EXCHANGE. -/
theorem pskExchange (src : SpdmSrc) (tag : Nat) (psk : Bytes) : Statement (.pskExchange src tag psk) := by
  simp +contextual [Statement, numbers, Instr.wf]

/-- PSK_FINISH. -/
theorem pskFinish (src : SpdmSrc) (verified : Bool) : Statement (.pskFinish src verified) := by
  simp +contextual [Statement, numbers, Instr.wf]

/-- IDE_KM. -/
theorem ideKm (src : SpdmSrc) (fn : Nat) (stream : Nat) : Statement (.ideKm src fn stream) := by
  simp +contextual [Statement, numbers, Instr.wf, okFn]

/-- IDE_STREAM_LEAVES_SECURE. -/
theorem ideStreamLeavesSecure (port : Nat) (stream : Nat) : Statement (.ideStreamLeavesSecure port stream) := by
  simp +contextual [Statement, numbers, Instr.wf, okPort]

/-- DEBUG_UNLOCK_TOKEN. -/
theorem debugUnlockToken (body : Bytes) (key : Bytes) (sig : Bytes) : Statement (.debugUnlockToken body key sig) := by
  simp +contextual [Statement, numbers, Instr.wf]

/-- PLDM_FIRMWARE_UPDATE. -/
theorem pldmFirmwareUpdate (image : Bytes) : Statement (.pldmFirmwareUpdate image) := by
  simp +contextual [Statement, numbers, Instr.wf]

/-- PLDM_PORT_CONFIG_WRITE. -/
theorem pldmPortConfigWrite (code : Nat) : Statement (.pldmPortConfigWrite code) := by
  simp +contextual [Statement, numbers, Instr.wf]

/-- PLDM_ALERT_CLEAR. -/
theorem pldmAlertClear : Statement (.pldmAlertClear) := by
  simp +contextual [Statement, numbers, Instr.wf]

/-- DIE_TEMPERATURE_SAMPLE. -/
theorem dieTemperatureSample (die : Nat) (temp : Nat) : Statement (.dieTemperatureSample die temp) := by
  simp +contextual [Statement, numbers, Instr.wf, okDie]

/-- INPUT_POWER_ON. -/
theorem inputPowerOn (millivolts : Nat) : Statement (.inputPowerOn millivolts) := by
  simp +contextual [Statement, numbers, Instr.wf]

/-- UNDERVOLTAGE. -/
theorem undervoltage (millivolts : Nat) : Statement (.undervoltage millivolts) := by
  simp +contextual [Statement, numbers, Instr.wf]

/-- OVERVOLTAGE. -/
theorem overvoltage (millivolts : Nat) (micros : Nat) : Statement (.overvoltage millivolts micros) := by
  simp +contextual [Statement, numbers, Instr.wf]

/-- INPUT_OVERCURRENT. -/
theorem inputOvercurrent (milliamps : Nat) (micros : Nat) : Statement (.inputOvercurrent milliamps micros) := by
  simp +contextual [Statement, numbers, Instr.wf]

/-- LATCH_CLEAR. -/
theorem latchClear (millivolts : Nat) (millis : Nat) : Statement (.latchClear millivolts millis) := by
  simp +contextual [Statement, numbers, Instr.wf]

/-- MOD_RESET_ASSERT. -/
theorem modResetAssert (micros : Nat) : Statement (.modResetAssert micros) := by
  simp +contextual [Statement, numbers, Instr.wf]

/-- MOD_RESET_RELEASE. -/
theorem modResetRelease : Statement (.modResetRelease) := by
  simp +contextual [Statement, numbers, Instr.wf]

/-- BOOT_STAGE_COMPLETE. -/
theorem bootStageComplete (result : BootResult) : Statement (.bootStageComplete result) := by
  simp +contextual [Statement, numbers, Instr.wf]

/-- SCRUB_COMPLETE. -/
theorem scrubComplete (p : Nat) : Statement (.scrubComplete p) := by
  simp +contextual [Statement, numbers, Instr.wf, okPart]

/-- DEMOTION_COMPLETE. -/
theorem demotionComplete (p : Nat) (seq : Nat) (page : Nat) : Statement (.demotionComplete p seq page) := by
  simp +contextual [Statement, numbers, Instr.wf, okPart]

/-- WEIGHTS_BIND_COMPLETE. -/
theorem weightsBindComplete (h : Nat) : Statement (.weightsBindComplete h) := by
  simp +contextual [Statement, numbers, Instr.wf, okHandle]

/-- ROM_REC_ACTION_DONE. -/
theorem romRecActionDone (ok : Bool) : Statement (.romRecActionDone ok) := by
  simp +contextual [Statement, numbers, Instr.wf]

/-- PLDM_THERM_CFG_WRITE. -/
theorem pldmThermCfgWrite (value : Nat) : Statement (.pldmThermCfgWrite value) := by
  simp +contextual [Statement, numbers, Instr.wf, okValue]

/-- MANAGEMENT_END_GRACE. -/
theorem managementEndGrace (p : Nat) : Statement (.managementEndGrace p) := by
  simp +contextual [Statement, numbers, Instr.wf, okPart]

/-- VF_ENABLE. -/
theorem vfEnable (port : Nat) (count : Nat) : Statement (.vfEnable port count) := by
  simp +contextual [Statement, numbers, Instr.wf, okPort]

/-- USNEA_MESSAGE_CRC_FAILURE. -/
theorem usneaMessageCrcFailure (level : Nat) (unit : Nat) : Statement (.usneaMessageCrcFailure level unit) := by
  simp +contextual [Statement, numbers, Instr.wf]

/-- MSIX_MESSAGE_SEND. -/
theorem msixMessageSend (fn : Nat) (q : Nat) : Statement (.msixMessageSend fn q) := by
  simp +contextual [Statement, numbers, Instr.wf, okFn, okQueue]

end Sys2Proof.Laws.Operands
end

