-- ==== Sys2Proof/Tests/Slice0.lean ====
section
/-!
SUPPORT. The model's own tests: ill-formed commands that the check refuses, single steps on small states, and for each
statement a state and operands that meet its hypotheses.
-/

set_option Elab.async false

namespace Sys2Proof.Tests

open Sys2Proof.Machine

/-! ## Ill-formed commands, one for each check -/

theorem test_handle_in_20_bits : (Instr.nop (2 ^ 20)).wf = false ∧ (Instr.nop (2 ^ 20 - 1)).wf = true := by decide
theorem test_core_below_256 : (Instr.mmTile 256).wf = false ∧ (Instr.mmTile 255).wf = true := by decide
theorem test_cluster_below_32 : (Instr.walkerDescriptorEmit 32).wf = false ∧ (Instr.walkerDescriptorEmit 31).wf = true := by decide
theorem test_partition_below_4 : (Instr.tickBoundary 4).wf = false ∧ (Instr.tickBoundary 3).wf = true := by decide
theorem test_stack_below_16 : (Instr.thermalSample 16 40).wf = false ∧ (Instr.thermalSample 15 40).wf = true := by decide
theorem test_bank_below_32 : (Instr.dramRefresh 0 32).wf = false ∧ (Instr.dramRefresh 0 31).wf = true := by decide
theorem test_tag_unit_in_the_stack :
    (Instr.tagConversionDone 0 (2 ^ 22)).wf = false ∧ (Instr.tagConversionDone 0 (2 ^ 22 - 1)).wf = true := by decide
theorem test_engine_below_4 : (Instr.videoFrameStart 4).wf = false ∧ (Instr.videoFrameStart 3).wf = true := by decide
theorem test_link_below_10 : (Instr.retrainComplete 10 0).wf = false ∧ (Instr.retrainComplete 9 0).wf = true := by decide
theorem test_direction_below_2 : (Instr.flitCrcFailure 0 2).wf = false ∧ (Instr.flitCrcFailure 0 1).wf = true := by decide
theorem test_hub_exists : (Instr.usneaHubFailure 1 4).wf = false ∧ (Instr.usneaHubFailure 2 0).wf = true := by decide
theorem test_block_in_raw_capacity :
    (Instr.badBlockRetire (64 * 2 ^ 40 / (24 * 2 ^ 20))).wf = false ∧ (Instr.badBlockRetire 0).wf = true := by decide
theorem test_port_below_4 : (Instr.hotReset 4).wf = false ∧ (Instr.hotReset 3).wf = true := by decide
theorem test_function_below_260 : (Instr.functionLevelReset 260).wf = false ∧ (Instr.functionLevelReset 259).wf = true := by decide
theorem test_queue_below_65536 : (Instr.qpDrainComplete 0 65536).wf = false ∧ (Instr.qpDrainComplete 0 65535).wf = true := by decide
theorem test_die_below_4 : (Instr.dieTemperatureSample 4 40).wf = false ∧ (Instr.dieTemperatureSample 3 40).wf = true := by decide
theorem test_value_in_32_bits : (Instr.pldmThermCfgWrite (2 ^ 32)).wf = false ∧ (Instr.pldmThermCfgWrite 0).wf = true := by decide
theorem test_value_in_64_bits :
    (Instr.hostBar2WindowWrite 0 (2 ^ 64)).wf = false ∧ (Instr.hostBar2WindowWrite 0 0).wf = true := by decide
theorem test_entry_of_64_bytes : (Instr.commandFetch 0 0 [1]).wf = false ∧ (Instr.commandFetch 0 0 (List.replicate 64 0)).wf = true := by
  decide
theorem test_spdm_transport : (Instr.getVersion (.doe 4)).wf = false ∧ (Instr.getVersion .mctp).wf = true := by decide
theorem test_stack_write_of_its_length :
    (Instr.baseDieRequest 0 ⟨0, 32, some [], 0, .clean⟩).wf = false ∧ (Instr.baseDieRequest 0 ⟨0, 32, none, 0, .clean⟩).wf = true := by
  decide

/-! ## Small states -/

/-- A word of a class and op, its fields given by offset, width and value. -/
def wordOf (cls op : Nat) (fields : List (Nat × Nat × Nat)) : Bytes :=
  fields.foldl (fun (b : Bytes) f => overlay b f.1 (natLE f.2.1 f.2.2))
    (overlay (List.replicate 64 0) 0 [BitVec.ofNat 8 cls, BitVec.ofNat 8 op])

/-- A program of words: its header and the words. -/
def progOf (ws : List Bytes) : Bytes := overlay (overlay (List.replicate 64 0) 0 [1]) 2 (natLE 2 ws.length) ++ ws.flatMap id

/-- A stage of some cores. -/
def stageOf (cores : List Nat) : Stage := ⟨cores, 0, false, false, 0, 0, 0, none⟩

/-- A pipeline of one stage on core 0 that runs, with one halo entry: stage 0 to itself, the same core. -/
def pipe0 : Pipe := ⟨[stageOf [0]], [], [⟨0, 0, 0, false, 256, 1024, 4096⟩], [], [], false, false, [], some (Run.fresh 0 1 1), []⟩

/-- Partition 0 under the shipped layout, with a host once attached. -/
def part0 : Part := { Part.reset with layout := some Layout.shipped, everAttached := true, pipes := [(0, pipe0)] }

/-- The device with partition 0. -/
def dev0 : Dev := { Dev.reset with parts := [(0, part0)] }

/-- The module at READY. -/
def upOf (d : Dev) : State := ⟨{ Plat.reset with boot := .ready }, d, []⟩

/-- Core 0 at the first word of a program. -/
def coreOf (ws : List Bytes) : Core := { Core.reset with phase := .running, run := some (0, 0, 0), progMem := progOf ws }

/-- The module with core 0 as given. -/
def on0 (k : Core) : State := upOf { dev0 with cores := [(0, k)] }

/-- Core 0 about to run one word. -/
def runs (w : Bytes) : State := on0 (coreOf [w])

/-- An operation in the window that touches nothing. -/
def opOf (w : Bytes) (wait : Wait) : Issued := ⟨0, 0, w, ⟨[], [], 0, 0⟩, stOK, false, wait, 0⟩

/-- The device that an outcome leaves; the reset device where there is none. -/
def after (o : Host.Outcome State Fault Refusal) : State :=
  match o with
  | .next t => t
  | _ => State.reset

/-- A climb of operation `op` at a rung, from an empty accumulator, one value exceeding. -/
def climb0 (op rung : Nat) : Climb := ⟨op, rung, 0, false, [], Acc.reset, Acc.reset, false, 1, 0, 0, 0⟩

/-- A stage's part of a run with nothing counted. -/
def stageRun0 : StageRun := StageRun.zero

/-- A descriptor of operation `op` that has started, from the word of dma.copy given. -/
def descrOf (op : Nat) (w : Bytes) : Descr := ⟨op, copyXfer [] w, true, false, false, 0, 0, [], none, 0, 0, 0⟩

/-- A scratchpad reference that names nothing. -/
def away : Nat := 2 ^ 29

/-- One well-formed word for each op of classes 1 to 12, scratchpad operands at 0 and above. -/
def sample : Nat → Nat → Bytes
  | 1, 1 => wordOf 1 1 [(20, 4, 32768), (24, 4, 65536), (28, 4, away), (40, 2, 1), (42, 1, 9), (43, 1, 9), (44, 1, 16), (60, 4, away)]
  | 1, 2 => wordOf 1 2 [(20, 4, 65536), (24, 4, away), (28, 4, away), (32, 2, 1), (34, 1, 1), (35, 1, 1), (36, 1, 1),
      (37, 1, 0x11), (38, 1, 0x11), (39, 1, 0x11), (48, 1, 9), (49, 1, 9), (50, 1, 16)]
  | 1, 3 => wordOf 1 3 [(21, 1, 16)]
  | 2, 1 => wordOf 2 1 [(20, 4, 128), (24, 4, away), (28, 2, 1), (30, 2, 4), (32, 2, 1), (34, 2, 1), (36, 1, 16), (37, 1, 7)]
  | 2, 2 => wordOf 2 2 [(20, 4, 2048), (24, 4, away), (28, 2, 1), (30, 2, 32), (32, 2, 1), (34, 2, 1), (36, 1, 4), (37, 1, 16)]
  | 3, op => wordOf 3 op [(20, 4, away), (24, 4, away), (28, 4, 128), (32, 2, 1), (34, 2, 4), (36, 2, 1), (38, 2, 1), (40, 1, 16),
      (41, 1, 16), (42, 1, 16), (43, 1, 16), (48, 4, 0x3F800000)]
  | 4, op => wordOf 4 op [(20, 4, 128), (24, 4, away), (28, 2, 1), (30, 2, 4), (32, 2, 1), (34, 2, 1), (36, 1, 16), (37, 1, 16), (38, 1, 1)]
  | 5, 4 => wordOf 5 4 [(20, 4, 128), (24, 4, away), (28, 2, 1), (30, 2, 16), (32, 2, 1), (34, 1, 16)]
  | 5, op => wordOf 5 op [(20, 4, 128), (24, 4, if op = 3 then 256 else away), (28, 2, 1), (30, 2, 4), (32, 2, 1), (34, 1, 16)]
  | 6, 1 => wordOf 6 1 [(24, 8, 64), (32, 4, 128), (36, 4, 1), (48, 1, 4)]
  | 6, 2 => wordOf 6 2 [(32, 4, 128), (36, 4, 1), (48, 8, 0)]
  | 6, 3 => wordOf 6 3 [(16, 8, 65536), (24, 8, 128)]
  | 6, 4 => wordOf 6 4 [(16, 8, 1024), (24, 4, 32), (32, 4, 1)]
  | 7, op => wordOf 7 op [(16, 2, 5), (20, 4, 128), (24, 8, 2), (32, 8, 9)]
  | 8, 3 => wordOf 8 3 [(16, 4, away), (24, 4, 2)]
  | 8, op => wordOf 8 op [(24, 4, 2), (28, 4, 128)]
  | 9, op => wordOf 9 op [(16, 4, 65536 + 3), (20, 4, if op = 3 then away else 128), (32, 8, if op = 1 ∨ op = 3 then 128 else 0),
      (40, 4, if op = 2 then 1 else 0)]
  | 10, 3 => wordOf 10 3 [(24, 4, 128), (43, 1, 1)]
  | 10, 4 => wordOf 10 4 []
  | 10, op => wordOf 10 op [(24, 8, 256), (32, 4, 128), (36, 2, 7)]
  | 11, 3 => wordOf 11 3 [(16, 1, 1), (18, 2, 4), (24, 8, 2)]
  | 12, 1 => wordOf 12 1 [(16, 1, 3), (20, 4, 7)]
  | 12, 2 => wordOf 12 2 [(16, 1, 3), (17, 1, 4), (18, 1, 0xFF), (19, 1, 0), (20, 4, 1)]
  | 12, 4 => wordOf 12 4 [(2, 1, 0x10), (4, 1, 9)]
  | 12, 7 => wordOf 12 7 [(16, 1, 3), (20, 4, 128), (24, 1, 2)]
  | 12, 8 => wordOf 12 8 [(17, 1, 3), (20, 4, 128), (24, 1, 2)]
  | cls, op => wordOf cls op []

/-- Every class with each of its ops. -/
def allOps : List (Nat × Nat) := (List.range 13).flatMap (fun c => (List.range (opsOfClass c)).map (fun o => (c, o + 1)))

/-! ## Witnesses: operations issue -/

/-- Every operation of every class issues somewhere (WordsIssueOrAreTakenOff, ControlWordsRun, UnitOperationsComplete). -/
theorem wit_every_operation_issues :
    allOps.length = 50 ∧ ∀ e ∈ allOps, Issues (runs (sample e.1 e.2)) 0 e.1 e.2 (sample e.1 e.2) := by decide +kernel

/-- A word is predicated off, fails a check, or does not issue yet (WordsIssueOrAreTakenOff). -/
theorem wit_words_off_bad_waiting :
    (runs (wordOf 12 9 [(2, 1, 2), (3, 1, 9)])).dev.issuing 0 12 9 = .off ∧
    (runs (wordOf 12 1 [(16, 1, 0x18)])).dev.issuing 0 12 1 = .bad (wordOf 12 1 [(16, 1, 0x18)]) stInvalid ∧
    (on0 { coreOf [wordOf 12 9 [(2, 1, 1)]] with window := [opOf (sample 11 3) .ready] }).dev.issuing 0 12 9 = .no ∧
    (Instr.ctlNop 0, 12, 9) ∈ operationsOf 0 ∧ CoreUp (runs []) 0 := by decide +kernel

theorem wit_fault_of_a_run : ((runs []).dev.core 0).run = some (0, 0, 0) ∧
    (Tab.find ((runs []).dev.part 0).pipes 0).map Pipe.cores = some [0] := by decide +kernel

/-- A loop counter at 0 and above (ControlWordsRun). -/
theorem wit_loop_counters :
    Issues (runs (sample 12 6)) 0 12 6 (sample 12 6) ∧ ((runs (sample 12 6)).dev.core 0).reg 16 = 0 ∧
    Issues (on0 { coreOf [sample 12 6] with loops := [(0, 1)] }) 0 12 6 (sample 12 6) ∧
    ((on0 { coreOf [sample 12 6] with loops := [(0, 1)] }).dev.core 0).reg 16 ≠ 0 := by decide +kernel

/-- qz. with and without a climb that holds the unit; sf.prog with and without a loaded micro-program. -/
theorem wit_units : ((runs (sample 2 1)).dev.core 0).climb = none ∧
    (let s := on0 { coreOf [sample 2 1] with climb := some (climb0 0 0) }
     Issues s 0 2 1 (sample 2 1) ∧ (s.dev.core 0).climb.isSome = true) ∧
    fieldOf ((runs (sample 4 2)).dev.microImage 0 1) 1 1 = 0 ∧
    (let s := upOf { dev0 with parts := [(0, { part0 with micro := [(1, [1, 1])] })], cores := [(0, coreOf [sample 4 2])] }
     Issues s 0 4 2 (sample 4 2) ∧ fieldOf (s.dev.microImage 0 1) 1 1 ≠ 0) := by decide +kernel

/-- vx.: bytes before, between and after the destination rows, and a pitch that holds a row (VectorsStayInTheirRows). -/
theorem wit_vx_rows : (0 < 128 + 0 * 1 * 128 ∨ 128 + 0 * 1 * 128 + ceilDiv (4 * fmtBits 16) 8 ≤ 0) ∧
    (144 < 128 + 0 * 1 * 128 ∨ 128 + 0 * 1 * 128 + ceilDiv (4 * fmtBits 16) 8 ≤ 144) ∧
    ceilDiv (fieldOf (sample 3 4) 34 2 * fmtBits (fieldOf (sample 3 4) 43 1)) 8 ≤ fieldOf (sample 3 4) 38 2 * 128 := by decide +kernel

/-- An unflagged product, an empty one, the drain's two cases, and words that wait for a climb. -/
theorem wit_matrix :
    (let j := mmJob [] (sample 1 1); j.kTotal ≠ 0 ∧ j.bounded = false) ∧
    (let j := mmJob [] (sample 1 2); j.kTotal ≠ 0 ∧ j.bounded = false) ∧
    (bitOf (fieldOf (sample 1 1) 45 1) 1 && (Acc.reset.isInt != fmtInt (fieldOf (sample 1 1) 42 1))) = false ∧
    opCode (sample 1 1) = 1 ∧ opCode (sample 1 2) = 2 ∧
    (let w := wordOf 1 1 [(24, 4, away), (28, 4, away), (42, 1, 9), (43, 1, 9), (44, 1, 16), (60, 4, away)]
     Issues (runs w) 0 1 1 w ∧ fieldOf w 40 2 = 0) ∧
    fieldOf (sample 1 3) 21 1 ≠ 0x11 ∧ ((coreOf []).acc 0).isInt = false ∧
    (let w := wordOf 1 3 [(21, 1, 0x11)]; Issues (runs w) 0 1 3 w) ∧
    (∀ op ∈ [1, 2, 3], Issues (on0 { coreOf [sample 1 op] with climb := some (climb0 0 0) })
      0 1 op (sample 1 op)) := by decide +kernel

/-! ## Witnesses: climbs, transfers, halos -/

/-- A bounded word: MXFP4 against MXFP4, rung 0, up to rung 2, wide copies present. -/
def boundedWord : Bytes := wordOf 1 1 [(20, 4, 131072), (24, 4, away), (28, 4, 262144), (40, 2, 1), (42, 1, 1), (43, 1, 1),
  (44, 1, 16), (46, 1, 2), (60, 4, 393216)]

/-- Core 0 with that word in its window, its climb decided at the end of an attempt at a rung. -/
def climbing (rung : Nat) : Core := { coreOf [boundedWord] with window := [opOf boundedWord .climb], climb := some (climb0 0 rung) }

/-- A bounded word issues; its climb at rung 2 is at the ceiling, at rung 0 it repeats, in a stage that stops it is abandoned. -/
theorem wit_climbs :
    (let j := mmJob [] boundedWord; j.bounded = true ∧ j.flagCount < 1 ∧ j.escMax = 2 ∧ j.kTotal ≠ 0) ∧
    (Issues (runs boundedWord) 0 1 1 boundedWord ∧ ((runs boundedWord).dev.core 0).climb = none ∧
      (bitOf (fieldOf boundedWord 45 1) 1 && (Acc.reset.isInt != fmtInt (fieldOf boundedWord 42 1))) = false) ∧
    (CoreUp (on0 (climbing 0)) 0 ∧ (climbing 0).window[0]? = some (opOf boundedWord .climb) ∧ (climbing 0).climb = some (climb0 0 0) ∧
      ((on0 (climbing 0)).dev.coreRun 0).isSome = true ∧ (climbing 0).phase = .running) ∧
    (ceilingOf (mmJob [] boundedWord) false (climb0 0 2)).isSome = true ∧ ceilingOf (mmJob [] boundedWord) false (climb0 0 0) = none ∧
    ({ climbing 0 with phase := .stopping } : Core).phase ≠ .running ∧ ({ climb0 0 0 with nonfinite := true } : Climb).nonfinite = true ∧
    stageBudget (stageOf [0]) stageRun0 = 0 := by decide +kernel

/-- A climb of the word in the window that waits for its residual plane. -/
theorem wit_residual_landed :
    (let k := { coreOf [boundedWord] with
       climb := some (climb0 0 1), window := [opOf (wordOf 1 1 [(32, 8, 65536)]) .residual] }
     let x : Xfer := ⟨2, 65536, 0, 0, residBytes 0, 1, 0, 0, 0, 0⟩
     let r := ((on0 k).dev.xferCarried 0 0 x).devRead 0 x.src x.rowBytes 0
     CoreUp (on0 k) 0 ∧ (k.window.find? (fun e => e.id == (climb0 0 1).op && e.wait == .residual)).isSome = true ∧ k.phase = .running ∧
     k.descrs.length < 64 ∧ k.atomsOut + min atomLimit (ceilDiv x.rowBytes 32) ≤ atomLimit ∧
     ((on0 k).dev.part 0).coldPages x.src x.rowBytes = [] ∧ (on0 k).dev.xferWay 0 0 x = 0 ∧ (on0 k).dev.xferWaits 0 x = false ∧
     (on0 k).dev.affords r.2 = true ∧ poisoned r.1 = false) ∧
    ((runs []).dev.core 0).climb = none := by decide +kernel

/-- A sequence in slot 3, generation 1, of one plane of 16-token pages: 16 of 64 tokens stored, page 0 in frame 9 of die 0. -/
def seq0 : Seq where
  gen := 1
  pageTokens := 16
  planes := 1
  maxTokens := 64
  homeDie := 0
  evictable := false
  ns := 0
  state := .active
  tokens := 16
  entries := [(0, ⟨none, 0, 0, 9, 16, 0, false, false, 0⟩)]
  dirBlock := 0
  leaves := [(0, 1)]
  leafStore := []
  hold := none
  noSpaceOnce := false
  durable := false
  parkHandle := none
  pending := []
  resumeBy := 0
  walked := 0
  badLeaves := []

/-- Partition 0 with a sequence in slot 3. -/
def seqPart (q : Seq) : Part := { part0 with seqs := [(3, q)], frames := [(9, 1)] }

/-- Core 0 about to run one word, beside a sequence. -/
def seqRuns (q : Seq) (w : Bytes) : State := upOf { dev0 with parts := [(0, seqPart q)], cores := [(0, coreOf [w])] }

theorem wit_transfers :
    (let x := copyXfer [] (sample 6 1); x.rowBytes ≠ 0 ∧ x.rows = 1 ∧ x.srcSpace = 0 ∧ x.dstSpace = 1 ∧ x.dst / 2 ^ 25 = clusterOfCore 0) ∧
    (let k := (runs (sample 6 1)).dev.core 0
     k.descrs = [] ∧ k.dmaQ = [] ∧ k.fetchBuf = [] ∧ k.window = [] ∧
     ((runs (sample 6 1)).dev.cluster 0).descQ.filter (fun e => e.1 == 0) = []) ∧
    (let k := { coreOf [sample 6 1] with descrs := List.replicate 64 (descrOf 0 (sample 6 1)) }
     Issues (on0 k) 0 6 1 (sample 6 1) ∧ 64 ≤ k.places) ∧
    (let w := wordOf 6 2 [(16, 4, 65536 + 3), (32, 4, 128), (36, 4, 1), (48, 8, 0)]
     Issues (seqRuns seq0 w) 0 6 2 w ∧ (seqPart seq0).seqOf (fieldOf w 16 4) = some (3, seq0) ∧ seq0.hold = none ∧ seq0.state = .active ∧
     ((seqRuns seq0 w).dev.cluster (clusterOfCore 0)).failed = false ∧ fieldOf w 32 4 ≠ 0 ∧ fieldOf w 36 4 ≠ 0 ∧
     seq0.walkFail (fieldOf w 24 8) (fieldOf w 32 4) (fieldOf w 36 4) (fieldOf w 40 4) = none) ∧
    fieldOf (sample 6 3) 24 8 ≠ 0 ∧
    (let r : Ring := ⟨0, 1024, 0, 32, 0, 1⟩
     let s := upOf { dev0 with clusters := [(0, { Cluster.reset with mem := [(1030, 4)] })], cores := [(0, coreOf [sample 6 4])] }
     Issues s 0 6 4 (sample 6 4) ∧ (s.dev.core 0).nextId = r.op ∧ r.left ≠ 0 ∧
     ∀ i, i < r.left → checkDescr (s.dev.part 0) (s.dev.ringEntry r (r.next + i)) = none) := by decide +kernel

/-- The last descriptor of an operation; nothing to fetch, complete or emit. -/
theorem wit_descriptors :
    (let y : Descr := descrOf 0 (sample 6 1)
     let k := { coreOf [] with descrs := [y], window := [opOf (sample 6 1) (.descr 1)] }
     CoreUp (on0 k) 0 ∧ k.fetchBuf = [] ∧ k.dmaQ = [] ∧ ((on0 k).dev.cluster (clusterOfCore 0)).descQ = [] ∧ y.started = true ∧
     k.window.map (fun e => (e.id, e.wait, opClass e.bytes)) = [(y.op, .descr 1, 6)]) ∧
    (∀ r ∈ ((runs []).dev.core 0).rings, r.left = 0) ∧ (∀ v ∈ ((runs []).dev.cluster 0).walks, v.pages = []) := by decide +kernel

/-- hx.put meets epoch 2 at once (both words 0), hx.get must wait for it; an empty one; an epoch below its flag; a core
outside the stage; a control line with a word that ECC cannot correct; links that retrain and that are down; a waiting hx.get
whose flag has come; hx.free of epoch 2. -/
theorem wit_halos :
    (∀ op ∈ [1, 2], let s := runs (sample 8 op)
     Issues s 0 8 op (sample 8 op) ∧ s.dev.haloAt 0 0 (op == 1) = .area 0 4096 256 ∧
     epochLegal (op == 1) 2 (s.dev.haloWord 0 4096 0) = true ∧ fieldOf (sample 8 op) 24 4 = 2 ∧
     fieldOf (sample 8 op) 28 4 ≠ 0 ∧ s.dev.haloBad 0 4096 = false ∧ s.dev.wayState 0 0 = 0 ∧ (s.dev.core 0).clusterPending = false) ∧
    (runs (sample 8 1)).dev.haloMet true 0 4096 2 = true ∧ (runs (sample 8 2)).dev.haloMet false 0 4096 2 = false ∧
    epochLegal true 2 2 = false ∧ epochLegal false 2 2 = true ∧ epochLegal true ones32 0 = false ∧
    (let w := wordOf 8 1 [(24, 4, 2)]; Issues (runs w) 0 8 1 w ∧ fieldOf w 28 4 = 0) ∧
    (runs []).dev.haloAt 0 0 true = .area 0 4096 256 ∧
    (upOf { dev0 with clusters := [(0, { Cluster.reset with bad := [512] })] }).dev.haloBad 0 4096 = true ∧
    (∀ n ∈ [1, 2], (upOf { dev0 with links := [(0, { Link.reset 0 with state := n })] }).dev.wayState 0 1 = n) ∧
    (let s := upOf { dev0 with
       parts := [(0, { part0 with pipes := [(0, { pipe0 with stages := [stageOf [0], stageOf [1]], halos := [⟨1, 1, 0, false, 256, 1024, 4096⟩] })] })]
       cores := [(0, coreOf [sample 8 1])] }
     Issues s 0 8 1 (sample 8 1) ∧ s.dev.haloAt 0 0 true = .outside) ∧
    (Issues (runs (sample 8 3)) 0 8 3 (sample 8 3) ∧ (runs (sample 8 3)).dev.haloAt 0 0 false = .area 0 4096 256 ∧
      fieldOf (sample 8 3) 24 4 ≠ ones32) ∧
    (let k := { coreOf [] with window := [opOf (sample 8 2) .halo] }
     let s := upOf { dev0 with clusters := [(0, { Cluster.reset with mem := [(4096, 2)] })], cores := [(0, k)] }
     k.clusterPending = false ∧ s.dev.haloBad 0 4096 = false ∧ s.dev.wayState (dieOfCore 0) (0 / 8) = 0 ∧
     s.dev.haloAt 0 (fieldOf (sample 8 2) 20 2) (opCode (sample 8 2) == 1) = .area 0 4096 256 ∧
     s.dev.haloMet (opCode (sample 8 2) == 1) 0 4096 (fieldOf (sample 8 2) 24 4) = true) := by decide +kernel

/-! ## Witnesses: sequences from a core -/

/-- The module with a partition 0. -/
def partState (x : Part) : State := upOf { dev0 with parts := [(0, x)] }

/-- An edit record. -/
def editOf (fields : List (Nat × Nat × Nat)) : Bytes := (wordOf 0 0 fields).take 32

/-- Every pg. operation on a sequence that is there, with its cluster's queue empty; each state that a clause names. -/
theorem wit_page_operations :
    (∀ op ∈ [1, 2, 3, 4], let s := seqRuns seq0 (sample 9 op)
      Issues s 0 9 op (sample 9 op) ∧ opCode (sample 9 op) = op ∧ (s.dev.cluster (clusterOfCore 0)).pgQ = [] ∧
      (∀ i, i < 8 → (s.dev.core (8 * clusterOfCore 0 + i)).window = []) ∧ (s.dev.cluster (clusterOfCore 0)).failed = false ∧
      ((s.dev.core 0).entered (sample 9 op) stOK false .pgq s.dev.now).newest.isSome = true) ∧
    (seqPart seq0).seqOf (fieldOf (sample 9 4) 16 4) = some (3, seq0) ∧
    fieldOf (sample 9 2) 40 4 ≠ 0 ∧ fieldOf (sample 9 3) 32 8 ≠ 0 ∧ fieldOf (sample 9 1) 32 8 ≠ 0 ∧
    batchFail (seqPart seq0) seq0 [editOf [(4, 1, 1)]] = none ∧
    (∀ q ∈ [SeqState.active, .suspended, .parking, .parked, .resuming], (seqPart { seq0 with state := q }).seqOf (65536 + 3) =
      some (3, { seq0 with state := q })) := by decide +kernel

/-- The bounds of an append: the last byte of the region and the one after it, the first free token, the last token. -/
theorem wit_append_bounds :
    seq0.appendFail (seq0.regionBytes - 128) 129 0 = some stBounds ∧ seq0.appendFail 65536 128 0 = none ∧
    seq0.appendFail 65408 128 0 = some stBounds ∧ seq0.appendFail (seq0.regionBytes - 128) 128 48 = none ∧
    seq0.appendFail (seq0.regionBytes - 128) 128 49 = some stLength := by decide +kernel

/-! ## Witnesses: counters, ledger, channels, groups -/

theorem wit_counters : (∀ op ∈ [1, 2, 3, 4, 5, 6, 7], Issues (runs (sample 7 op)) 0 7 op (sample 7 op)) ∧
    cntCluster 0 (sample 7 1) = 0 ∧ (runs (sample 7 1)).dev.wayState (dieOfCore 0) 0 = 0 ∧
    (let w := wordOf 7 1 [(18, 1, 0x28), (20, 4, away)]
     let s := upOf { dev0 with links := [(0, { Link.reset 0 with state := 1 })], cores := [(0, coreOf [w])] }
     Issues s 0 7 1 w ∧ cntCluster 0 w = 8 ∧ s.dev.wayState (dieOfCore 0) (8 / 8) = 1) := by decide +kernel

theorem wit_ledger :
    (let s := upOf { dev0 with clusters := [(0, { Cluster.reset with bits := [(5, 3)] })], cores := [(0, coreOf [sample 7 6])] }
     Issues s 0 7 6 (sample 7 6) ∧ Tab.getD (s.dev.cluster 0).bits (fieldOf (sample 7 6) 16 2) 0 % 4 = 3 ∧
     (s.dev.core 0).run = some (0, 0, 0) ∧ (s.dev.part 0).ledger.staged = [] ∧ (s.dev.part 0).ledger.recs.length < 1044480) ∧
    PartUp (runs []) 0 ∧ PartUp (runs []) 3 ∧
    (let r : LedgerRec := ⟨0, none, 3, 0, 0, 0, 0, 0, 0, []⟩
     let h : LedgerRec := { r with core := 8 }
     let l : Ledger := ⟨[], [r], [h], [], false, false⟩
     let s := partState { part0 with ledger := l }
     (s.dev.part 0).ledger.staged = [r] ∧ l.recs.length < 1044480 ∧
     l.held.find? { l with staged := [] }.stagingRoom = some h) := by decide +kernel

/-- A send, a receive whose bytes are there (exactly) and one that lacks a byte; a waiting receive. -/
theorem wit_channels :
    (let w := sample 10 1
     Issues (runs w) 0 10 1 w ∧ (endpoint (bitsOf (fieldOf w 38 1) 1 0) (fieldOf w 16 8) 0).space = 0 ∧ fieldOf w 32 4 ≠ 0 ∧
     (runs w).dev.wayState (dieOfCore 0) ((endpoint 1 (fieldOf w 24 8) 0).cluster / 8) = 0 ∧ ((runs w).dev.core 0).clusterPending = false) ∧
    (let w := sample 10 2
     let s := fun n => upOf { dev0 with clusters := [(0, { Cluster.reset with chan := [(7, n)] })], cores := [(0, coreOf [w])] }
     Issues (s 128) 0 10 2 w ∧ fieldOf w 32 4 ≤ (s 128).dev.chanOf 0 (fieldOf w 36 2) ∧
     Issues (s 127) 0 10 2 w ∧ (s 127).dev.chanOf 0 (fieldOf w 36 2) < fieldOf w 32 4) ∧
    (let k := { coreOf [] with window := [opOf (sample 10 2) (.recv 7 128)] }
     let s := upOf { dev0 with clusters := [(0, { Cluster.reset with chan := [(7, 128)] })], cores := [(0, k)] }
     CoreUp s 0 ∧ 128 ≤ s.dev.chanOf 0 7) := by decide +kernel

/-- A core of its group, a core outside one, and a contribution that waits in a group of one core. -/
theorem wit_groups :
    (∀ op ∈ [3, 4], Issues (runs (sample 10 op)) 0 10 op (sample 10 op)) ∧ fieldOf (sample 10 3) 43 1 ≠ 0 ∧
    (let s := runs (sample 10 3); (s.dev.coreRun 0).isSome = true ∧ 0 ∈ pipe0.members 0 0 ∧ pipe0.run.isSome = true ∧
     s.dev.groupPath (pipe0.members 0 0) = true) ∧
    (let s := upOf { dev0 with parts := [(0, { part0 with pipes := [(0, { pipe0 with groups := [[1]] })] })],
                               cores := [(0, coreOf [wordOf 10 4 [(40, 1, 16)]])] }
     Issues s 0 10 4 (wordOf 10 4 [(40, 1, 16)]) ∧ 0 ∉ ({ pipe0 with groups := [[1]] } : Pipe).members 0 16) ∧
    (let u : UsneaReq := ⟨0, 0, 0, true, 0, 0, [5], 1, 128, false⟩
     let s := on0 { coreOf [] with usnea := [u] }
     CoreUp s 0 ∧ (s.dev.coreRun 0).isSome = true ∧ u.done = false ∧ u.reduce = true ∧ pipe0.members 0 u.group = [0]) := by
  decide +kernel

/-! ## Witnesses: synchronisation and completion -/

theorem wit_synchronisation :
    (∀ op ∈ [1, 2, 3, 4], Issues (runs (sample 11 op)) 0 11 op (sample 11 op) ∧ ((runs (sample 11 op)).dev.coreRun 0).isSome = true) ∧
    (∀ op ∈ [1, 2], Issues (on0 { coreOf [sample 11 op] with window := [opOf (sample 3 1) .ready] }) 0 11 op (sample 11 op)) ∧
    (coreOf [sample 11 3]).waitOf (sample 11 3) = some (1, 4, 2) ∧ (runs []).dev.waitWay 0 1 4 = 0 ∧
    (coreOf [wordOf 11 3 []]).waitOf (wordOf 11 3 []) = none ∧ Issues (runs (wordOf 11 3 [])) 0 11 3 (wordOf 11 3 []) ∧
    (upOf { dev0 with clusters := [(0, { Cluster.reset with bad := [4] })] }).dev.waitWay 0 2 32 = 2 ∧
    (upOf { dev0 with links := [(0, { Link.reset 0 with state := 1 })] }).dev.waitWay 0 2 (8 * 2 ^ 25) = 1 ∧
    (let k := coreOf []; CoreUp (on0 k) 0 ∧ k.phase = .running ∧ k.words ≤ k.pc ∧ k.run = some (0, 0, 0) ∧ k.window = []) ∧
    (let k := { coreOf [] with window := [opOf (sample 3 1) .ready] }; k.words ≤ k.pc ∧ k.window ≠ []) := by decide +kernel

/-- A sync.wait at exactly its threshold; a report whose hubs work; operations that wait, wait their turn, end with a result
or with a fault. -/
theorem wit_ends :
    (let s := upOf { dev0 with clusters := [(0, { Cluster.reset with credit := [(4, 2)] })],
                               cores := [(0, { coreOf [] with window := [opOf (sample 11 3) (.sync 1 4 2)] })] }
     CoreUp s 0 ∧ s.dev.waitWay 0 1 4 = 0 ∧ s.dev.waitMet 0 1 4 2 = true ∧ s.dev.waitMet 0 1 4 3 = false) ∧
    (let s := on0 { coreOf [] with done := some 5 }
     ((s.dev.core 0).done.isSome = true ∧ (s.dev.core 0).reported = false ∧ s.dev.donePath 0 = true)) ∧
    (let k := { coreOf [] with window := [opOf (sample 3 1) .ready, opOf (sample 3 1) .ready, opOf (sample 11 3) (.sync 1 4 2)] }
     k.phase = .running ∧ k.fault = none ∧ k.window[0]?.isSome = true ∧
     (k.window[2]?.map (·.wait)) ≠ some .ready ∧ (k.window[2]?.map (·.wait)) ≠ some .climb ∧
     inOrderClass (opClass (sample 3 1)) = true ∧ (∃ x ∈ k.window.take 1, opClass x.bytes = opClass (sample 3 1)) ∧
     (∀ x ∈ k.window.take 0, opClass x.bytes ≠ 3 ∨ inOrderClass 3 = false)) ∧
    isResult 3 1 stOK = true ∧ isResult 1 1 stQuality = true ∧ isResult 3 1 stDeviceFault = false ∧
    (opOf (sample 3 1) .ready).isDma = false ∧ (opOf (sample 6 1) .ready).isDma = true ∧ opClass (sample 10 1) = 10 ∧ opCode (sample 10 1) = 1 := by
  decide +kernel

/-! ## Witnesses: windows and runs -/

/-- A boundary with no late stage (the run's first window has not begun), one under each policy, one that a late stage
stretches, one held back by low power, a stretch at its limit. -/
def lateRun : Run := { Run.fresh 0 4 1 with started := true }

/-- Partition 0 with a run that has begun, under tick parameters and a tick. -/
def tickState (t : Tick) (r : Run) (low : Bool) : State :=
  { upOf { dev0 with parts := [(0, { part0 with tick := t, pipes := [(0, { pipe0 with run := some r })] })], cores := [(0, coreOf [])] } with
    plat := { Plat.reset with boot := .ready, lowPower := low } }

theorem wit_boundaries :
    (let t := Tick.reset; let s := tickState t (Run.fresh 0 4 1) false
     PartUp s 0 ∧ s.plat.lowPower = false ∧ (s.dev.part 0).layout.isSome = true ∧ t.boundary = none ∧ t.held = none ∧ t.inStretch = false ∧
     (s.dev.reach (t.origin + t.nominal)).lateStages 0 t.nominal = []) ∧
    (∀ policy ∈ [0, 1, 2], let t := { Tick.reset with par := ⟨10000, 0, policy, 1⟩ }; let s := tickState t lateRun false
     PartUp s 0 ∧ (s.dev.reach (t.origin + t.nominal)).lateStages 0 t.nominal ≠ []) ∧
    ((runs []).dev.part 3).layout = none ∧
    (let s := tickState Tick.reset lateRun true; s.plat.lowPower = true ∧ (s.dev.part 0).tick.boundary = none) ∧
    (let t := { Tick.reset with inStretch := true, late := [⟨0, 0, none⟩] }; let s := tickState t lateRun false
     PartUp s 0 ∧ t.boundary = none ∧ allCome (t.late.map (s.dev.lateInstant 0)) = none) ∧
    (let t := { Tick.reset with boundary := some ⟨1000000, 0⟩, start := 1000000, index := 1 }
     (tickState t lateRun false).dev.part 0 |>.tick.boundary.isSome) = true := by decide +kernel

/-- Records stamped before, at and after the boundary; a done stamp just before it and at it; a run with each ending. -/
theorem wit_window_rules :
    (let r : LedgerRec := ⟨99, none, 3, 0, 0, 0, 0, 0, 0, []⟩; r.window = none ∧ r.stamp < 100 ∧ ¬ ({ r with stamp := 100 } : LedgerRec).stamp < 100) ∧
    (99 < 100 ∧ 100 ≤ 100) ∧ ((coreOf []).window = []) ∧
    (let r := Run.fresh 0 1 1; r.stop.fault = none ∧ r.stop.device = false ∧ r.stop.noSpace = false ∧ r.stop.timeout = false ∧
      r.stop.overrun = false ∧ r.stop.aborted = false ∧ r.stale = false ∧ r.quality = false) ∧
    (let r := { Run.fresh 0 1 1 with stop := ⟨some (0, 0x10, ⟨0x10, 0, 0, 0⟩), true, true, true, true, true⟩ }; r.stop.fault.isSome = true) := by
  decide +kernel

/-- A run over at its last window, one with a window left, one that stops, one with an operation in flight. -/
theorem wit_runs :
    (let ended : Run := { lateRun with done := 4, handle := none }
     let s := tickState Tick.reset ended false
     (pipe0.cores).Nodup ∧ ended.started = true ∧ ended.stopping = false ∧ ended.count ≤ ended.done ∧ s.dev.pipeIdle pipe0 = true ∧
     ended.stoppers = [] ∧ ended.removeAfter = false ∧ pipe0.launched = false) ∧
    ({ lateRun with done := 3 } : Run).done < lateRun.count ∧
    (let s := upOf { dev0 with cores := [(0, { coreOf [] with window := [opOf (sample 3 1) .ready] })] }; s.dev.pipeIdle pipe0 = false) ∧
    (let r : Run := { lateRun with stopping := true, removeAfter := true, handle := none }; r.stopping = true ∧ r.removeAfter = true) := by
  decide +kernel

/-! ## Witnesses: sequences that move and expire -/

/-- A hold begun in window 0. -/
def hold0 : Hold := ⟨0, 0, none, false, 0⟩

/-- A partition whose pool has no frame. -/
def noFrames (x : Part) : Part := { x with layout := some { Layout.shipped with poolGib := 0 } }

theorem wit_expiries :
    (∀ i ∈ [0, 1], (({ seqPart { seq0 with hold := some hold0 } with tick := { Tick.reset with index := i } } : Part).holdDue hold0) = false) ∧
    (({ seqPart { seq0 with hold := some hold0 } with tick := { Tick.reset with index := 2 } } : Part).holdDue hold0) = true ∧
    (partState (seqPart seq0)).dev.heldAppends 0 (seq0.ident 3) = [] ∧ PartUp (partState (seqPart seq0)) 0 ∧
    ((partState (seqPart seq0)).dev.part 0).seq 3 = some seq0 ∧
    (let recs := [editOf [(0, 3, 1), (4, 1, 2), (11, 1, 0x80)]]
     let x := noFrames { seqPart seq0 with staged := [.edits none (65536 + 3) recs 0], tick := { Tick.reset with index := 2 } }
     0 + x.holdLimit ≤ x.tick.index ∧ x.seqOf (65536 + 3) = some (3, seq0) ∧ x.batchLacks 3 recs = true) ∧
    (let q := { seq0 with state := .resuming, resumeBy := 2, entries := [(0, ⟨none, 7, 0, 0, 16, 0, true, false, 1⟩)] }
     q.parkHandle = none ∧ (∃ e ∈ q.entries, e.2.tier = 1 ∧ Tab.has (seqPart q).storeMigr (pageKey 3 e.1) = false) ∧
     1 < q.resumeBy ∧ q.resumeBy ≤ 2) ∧
    (let q := { seq0 with state := .parking, pending := [0] }; q.state = .parking ∧ q.pending ≠ [] ∧ q.durable = false) ∧
    (let q := { seq0 with state := .resuming }; q.state = .resuming ∧ ∀ e ∈ q.entries, e.2.tier ≠ 1) ∧
    (let x := { seqPart { seq0 with entries := [] } with demoting := [(3, 0, false)] }
     x.demoting.find? (fun y => y.1 == 3 && y.2.1 == 0) ≠ none ∧ x.entryOf 3 0 = none) ∧
    (seqPart seq0).demoting.find? (fun y => y.1 == 3 && y.2.1 == 0) = none := by decide +kernel

/-! ## Witnesses: commands of a queue -/

/-- A fetched command of partition 0 from the admin function: opcode and fields. -/
def cmdOf (op : Nat) (fields : List (Nat × Nat × Nat)) : Cmd where
  gen := 1
  part := 0
  owned := true
  fn := 0
  q := 0
  order := 0
  bytes := wordOf (op % 256) (op / 256) fields
  stamp := 0
  window := 0
  fetched := 0
  deadline := none
  deferred := none
  phase := .fetched
  data := []
  work := []
  count := 0
  lost := false

/-- The module with a partition 0 and a command in handle slot 5. -/
def cmdState (x : Part) (c : Cmd) : State := upOf { dev0 with parts := [(0, x)], host := { HostSide.reset with live := [(5, c)] } }

/-- A command of each opcode starts. -/
theorem wit_commands_start :
    ∀ op ∈ [0x00, 0x01, 0x10, 0x11, 0x12, 0x20, 0x21, 0x22, 0x23, 0x24, 0x25, 0x30, 0x40, 0x41, 0x42, 0x43, 0x44, 0x45, 0x46,
        0x50, 0x51, 0x60, 0x61, 0x70, 0x80, 0x81, 0x82, 0x83, 0x90, 0x91, 0x92],
      Starts (cmdState part0 (cmdOf op [])) 5 op (cmdOf op []) := by decide +kernel

/-- SEQ_CREATE: fields that pass at their bounds, a fork, a slot and a block; fields and a fork that fail; no block. -/
theorem wit_seq_create :
    (let c := cmdOf 0x40 [(16, 2, 16), (18, 2, 1), (24, 8, 64)]
     Starts (cmdState part0 c) 5 0x40 c ∧
     firstFail (pageTokensFail 16 (c.field 16 2) ++ [(18, stCount, c.field 18 2 == 0 || decide (4096 < c.field 18 2)),
       (20, stPartition, !(part0.hasDie (c.field 20 1))), (21, stInvalid, decide (1 < c.field 21 1)),
       (24, stBounds, decide (2 ^ 40 < c.field 18 2 * ceilDiv (c.field 24 8) (c.field 16 2) * 65536))] ++ rsvBytes c [(22, 2), (40, 24)]) = none ∧
     forkFail part0 c = none ∧ c.field 24 8 ≠ 0 ∧ part0.freeSlot = some 0 ∧ (part0.pickBlock (c.field 20 1)).isSome = true) ∧
    firstFail (pageTokensFail 16 3) = some (stInvalid, 16) ∧ firstFail (pageTokensFail 16 512) = none ∧
    firstFail (pageTokensFail 16 1024) = some (stBounds, 16) ∧
    forkFail (seqPart seq0) (cmdOf 0x40 [(16, 2, 16), (18, 2, 1), (24, 8, 16), (36, 4, 65536 + 3)]) = none ∧
    forkFail (seqPart seq0) (cmdOf 0x40 [(16, 2, 16), (18, 2, 1), (24, 8, 15), (36, 4, 65536 + 3)]) = some (stLength, 24) ∧
    ({ part0 with layout := some { Layout.shipped with dies := 0 } } : Part).pickBlock 0 = none := by decide +kernel

theorem wit_append_and_edit :
    (let c := cmdOf 0x41 [(24, 4, 128), (28, 4, 65536 + 3)]
     Starts (cmdState (seqPart seq0) c) 5 0x41 c ∧ c.field 24 4 ≠ 0 ∧ HostObject c (c.field 24 4) ∧
     firstFail ([(24, stAlign, c.field 24 4 % 128 != 0), (28, stInvalid, ((seqPart seq0).seqOf (c.field 28 4)).isNone)] ++
       rsvBytes c [(44, 20)]) = none) ∧
    firstFail [(24, stAlign, (cmdOf 0x41 [(24, 4, 127)]).field 24 4 % 128 != 0)] = some (stAlign, 24) ∧
    (cmdOf 0x41 [(28, 4, 65536 + 3)]).field 24 4 = 0 ∧
    (let c := cmdOf 0x46 [(24, 4, 1), (28, 4, 65536 + 3)]
     Starts (cmdState (seqPart seq0) c) 5 0x46 c ∧ HostObject c 32 ∧
     firstFail ((28, stInvalid, false) :: (24, stCount, decide (4096 < c.field 24 4)) :: rsvBytes c [(32, 32)]) = none ∧
     batchFail (seqPart seq0) seq0 (recsOf (objectOf (editOf [(4, 1, 1)]) 32) 1) = none ∧
     batchFail (seqPart seq0) seq0 (recsOf (objectOf (editOf [(4, 1, 6)]) 32) 1) = some (stInvalid, 0, 4)) := by decide +kernel

/-- The three commands on a sequence in each state, with each form's bits. -/
theorem wit_state_commands :
    (∀ q ∈ [SeqState.active, .suspended, .parking, .parked, .resuming], ∀ b ∈ [0, 1, 3, 4, 12],
      let c := cmdOf 0x42 [(16, 4, 65536 + 3), (20, 1, b)]; let x := seqPart { seq0 with state := q }
      Starts (cmdState x c) 5 0x42 c ∧ (x.seqOf (c.field 16 4)).isSome = true ∧ firstFail ((16, stInvalid, false) :: suspendRsv c) = none) ∧
    (∀ b ∈ [0, 1], let c := cmdOf 0x43 [(16, 4, 65536 + 3), (20, 1, b)]; let x := seqPart { seq0 with state := .parked }
      Starts (cmdState x c) 5 0x43 c ∧ (x.seqOf (c.field 16 4)).isSome = true ∧ firstFail ((16, stInvalid, false) :: resumeRsv c) = none) ∧
    (let c := cmdOf 0x44 [(16, 4, 65536 + 3)]
     Starts (cmdState (seqPart seq0) c) 5 0x44 c ∧ firstFail ((16, stInvalid, false) :: rsvBytes c [(20, 44)]) = none) := by decide +kernel

/-- PREFIX_LOOKUP in its four modes with one block of two tokens, and the target of MAP and of INSERT. -/
theorem wit_prefixes :
    (∀ m ∈ [0, 1, 2, 3], let c := cmdOf 0x45 [(24, 4, 2), (28, 1, m), (36, 2, 2), (38, 2, 1), (40, 4, 65536 + 3)]
      Starts (cmdState (seqPart seq0) c) 5 0x45 c ∧ HostObject c (4 * c.field 24 4) ∧ firstFail (prefixChecks c) = none ∧ c.field 24 4 ≠ 0) ∧
    ({ seq0 with tokens := 0, entries := [], pageTokens := 2 } : Seq).fitFor 0 2 1 = true ∧
    (let q := { seq0 with pageTokens := 2 }; 2 ≤ q.tokens ∧ q.ns = 0 ∧ q.pageTokens = 2 ∧ q.planes = 1) ∧
    (let c := cmdOf 0x45 [(28, 1, 3)]; firstFail (rsvBytes c [(29, 3), (44, 20)]) = none) := by decide +kernel

/-- MEM_ALLOC up to the last byte of unified memory and one page beyond it, over a region and beside it; MEM_FREE of a region
that a running pipeline names and of one that none does. -/
theorem wit_regions :
    (let n := 49152 * 2 ^ 30
     let c := fun a => cmdOf 0x11 [(16, 8, a), (24, 8, 65536)]
     (∀ a ∈ [0, n - 65536, n], Starts (cmdState part0 (c a)) 5 0x11 (c a) ∧
       firstFail ([(16, stInvalid, wideAddr ((c a).field 16 8)), (16, stAlign, (c a).field 16 8 % 65536 != 0), (24, stAlign, (c a).field 24 8 % 65536 != 0)] ++ rsvBytes (c a) [(32, 32)]) = none) ∧
     part0.extent (n - 65536) 65536 = .unified ∧ part0.extent n 65536 = .outside) ∧
    (let x := { part0 with regions := [(1, ⟨65536, 65536, none⟩)] }
     (x.regions.any (fun e => e.2.meets 65536 65536)) = true ∧ (x.regions.any (fun e => e.2.meets 131072 65536)) = false ∧
     (x.regions.any (fun e => e.2.meets 0 65536)) = false ∧
     (let c := cmdOf 0x12 [(16, 4, 1)]
      Starts (cmdState x c) 5 0x12 c ∧ Tab.find x.regions (c.field 16 4) = some ⟨65536, 65536, none⟩ ∧ firstFail (rsvBytes c [(20, 44)]) = none ∧
      x.namesRegion ⟨65536, 65536, none⟩ = false ∧ (∀ g ∈ pagesOf 65536 65536, Tab.has x.migr g = false) ∧
      ({ x with pipes := [(0, { pipe0 with addrs := [131071] })] } : Part).namesRegion ⟨65536, 65536, none⟩ = true)) := by decide +kernel

/-! ## Witnesses: programs, pipelines, runs -/

/-- `n` bytes with fields laid over zeros. -/
def blockOf (n : Nat) (fields : List (Nat × Nat × Nat)) : Bytes :=
  fields.foldl (fun (b : Bytes) f => overlay b f.1 (natLE f.2.1 f.2.2)) (List.replicate n 0)

theorem wit_programs :
    (let b := progOf [sample 12 9]
     let c := cmdOf 0x20 [(24, 4, 128), (28, 1, 3)]
     Starts (cmdState part0 c) 5 0x20 c ∧ HostObject c 128 ∧ c.field 24 4 = 64 * (fieldOf (objectOf b 128) 2 2 + 1) ∧
     firstFail ([(24, stCount, c.field 24 4 != 0 && (c.field 24 4 % 64 != 0 || decide (64 * 65536 < c.field 24 4)))] ++ rsvBytes c [(29, 35)]) = none ∧
     part0.sealed = false ∧ part0.usesProgram 3 = false ∧ part0.usesProgram 0 = true) ∧
    firstFail [(24, stCount, (cmdOf 0x20 [(24, 4, 127)]).field 24 4 % 64 != 0)] = some (stCount, 24) ∧
    (cmdOf 0x20 [(24, 4, 192)]).field 24 4 ≠ 64 * (fieldOf (objectOf (progOf [sample 12 9]) 192) 2 2 + 1) := by decide +kernel

/-- MICROPROG_LOAD of an image of no steps, of one whose version is not 1, and of a shipped one. -/
theorem wit_micro_programs :
    (let c := cmdOf 0x21 [(24, 4, 8192), (28, 1, 63)]
     Starts (cmdState part0 c) 5 0x21 c ∧ firstFail (microChecks c) = none ∧ c.field 29 1 ≠ 1 ∧ HostObject c (c.field 24 4)) ∧
    checkImage (objectOf [1] 1024) = none ∧ checkImage (objectOf [2] 1024) = some (stUnsupported, 0) ∧
    (let c := cmdOf 0x21 [(29, 1, 1), (30, 1, 10)]; firstFail (microChecks c) = none ∧ c.field 29 1 = 1) := by decide +kernel

/-- TICK_SET at each bound: the period 9,999, 10,000, 10^8 and 10^8 + 10; the stretch at the period and above it; the
policies 2 and 3; the fallbacks 0, 1, 2. -/
theorem wit_tick_parameters :
    (let c := fun (p s y f : Nat) => cmdOf 0x25 [(16, 4, p), (20, 4, s), (24, 1, y), (25, 1, f)]
     (c 9999 0 0 1).field 16 4 < 10000 ∧ 100000000 < (c 100000010 0 0 1).field 16 4 ∧
     firstFail (tickChecks Part.reset (c 10000 10000 0 1)) = none ∧ firstFail (tickChecks Part.reset (c 100000000 0 2 2)) = none ∧
     (c 10001 0 0 1).field 16 4 % 10 ≠ 0 ∧ (c 10000 10010 0 1).field 16 4 < (c 10000 10010 0 1).field 20 4 ∧
     (c 10000 9999 0 1).field 20 4 % 10 ≠ 0 ∧ 2 < (c 10000 0 3 1).field 24 1 ∧ (c 10000 0 0 0).field 25 1 ≠ 1 ∧ (c 10000 0 0 3).field 25 1 ≠ 2 ∧
     Part.reset.runningPipes = [] ∧ firstFail (rsvBytes (c 10000 10000 0 1) [(26, 38)]) = none ∧
     Starts (cmdState part0 (c 10000 10000 0 1)) 5 0x25 (c 10000 10000 0 1) ∧
     (∀ y ∈ part0.runningPipes, part0.recoveryBound y ≤ (tickParOf (c 10000 10000 0 1)).allowance)) := by decide +kernel

/-- A pipeline object of one stage on core 0 with program 0. -/
def object1 : Bytes := blockOf 192 [(0, 1, 1), (1, 1, 1), (8, 4, 64), (64, 1, 1)]

/-- Partition 0 without a pipeline, program 0 loaded. -/
def idlePart : Part := { part0 with pipes := [], programs := [(0, progOf [sample 12 9])] }

theorem wit_submit :
    (let c := cmdOf 0x22 [(24, 4, 192), (28, 1, 3), (29, 1, 1)]
     Starts (cmdState idlePart c) 5 0x22 c ∧ 64 ≤ c.field 24 4 ∧ HostObject c 192 ∧ idlePart.submitSteps c (objectOf object1 192) = none ∧
     (let r := (cmdState idlePart c).dev.listStep 0 (objectOf object1 192)
      r.1 = none ∧ (r.2.2.part 0).areaSteps (objectOf object1 192) = none) ∧
     idlePart.submitSteps c (objectOf [] 192) = some (stUnsupported, locus 9 0 0)) ∧
    (cmdOf 0x22 [(24, 4, 63)]).field 24 4 < 64 := by decide +kernel

/-- That object with one tile whose super-tile order is an explicit list of one entry at an address. -/
def object2 (addr : Nat) : Bytes := blockOf 192 [(0, 1, 1), (1, 1, 1), (8, 4, 64), (64, 1, 1), (102, 1, 1), (128, 4, 128), (132, 4, 128),
  (140, 2, 1), (142, 2, 1), (144, 1, 1), (145, 1, 1), (146, 1, 5), (152, 4, 128), (160, 8, addr), (184, 2, 1)]

/-- Its list in unified memory that is not there, and in volatile memory: to be read, behind a link that retrains, behind one
that is down. -/
theorem wit_submit_lists :
    (let c := cmdOf 0x22 [(24, 4, 192), (28, 1, 3), (29, 1, 1)]
     let o := fun a => objectOf (object2 a) 192
     (∀ a ∈ [65536, volBase], idlePart.submitSteps c (o a) = none ∧ idlePart.lists (o a) = [(a, 4)]) ∧
     idlePart.lacking 5 65536 4 ≠ [] ∧ idlePart.lacking 5 volBase 4 = [] ∧
     (let d := (cmdState idlePart c).dev
      d.ioWay 0 volBase 4 = 0 ∧ d.extentHeld 0 volBase 4 = false ∧ poisoned (d.devRead 0 volBase 4 0).1 = false ∧
      (d.listStep 0 (o volBase)).1 = none ∧ ((d.listStep 0 (o volBase)).2.2.part 0).areaSteps (o volBase) = none) ∧
     (∀ n ∈ [1, 2], ({ (cmdState idlePart c).dev with links := [(6, { Link.reset 6 with state := n })] } : Dev).ioWay 0 volBase 4 = n)) := by
  decide +kernel

/-- A gather over the four dies, 128 bytes of each rank into volatile memory of rank 0; an empty one; a wrong kind. -/
def record1 (n : Nat) : Bytes := blockOf 256 [(0, 1, 2), (3, 1, 4), (32, 1, 1), (40, 1, 1), (48, 1, 1), (56, 1, 1),
  (64, 8, if n = 0 then 0 else volBase), (72, 8, if n = 0 then 0 else volBase + 4096), (80, 8, if n = 0 then 0 else volBase + 8192),
  (88, 8, if n = 0 then 0 else volBase + 12288), (96, 8, if n = 0 then 0 else volBase + 16384), (128, 8, n), (136, 8, n), (144, 8, n), (152, 8, n)]

theorem wit_collectives :
    (let c := cmdOf 0x70 [(24, 4, 256)]
     Starts (cmdState part0 c) 5 0x70 c ∧ firstFail (rsvBytes c [(28, 36)]) = none ∧ HostObject c 256) ∧
    coFail part0 (objectOf (record1 128) 256) = none ∧ coEmpty (objectOf (record1 128) 256) = false ∧
    part0.launchBusy (objectOf (record1 128) 256) = true ∧ idlePart.launchBusy (objectOf (record1 128) 256) = false ∧
    coFail part0 (objectOf (record1 0) 256) = none ∧ coEmpty (objectOf (record1 0) 256) = true ∧
    coFail part0 (objectOf (blockOf 256 [(0, 1, 9)]) 256) = some (stInvalid, 0) := by decide +kernel

/-- A run of a pipeline that stands still, one that runs, an allowance below the recovery bound, a count of 0. -/
theorem wit_run_and_stop :
    (part0.tick.inStretch = false ∧ ({ Tick.reset with inStretch := true, late := [⟨0, 0, none⟩] } : Tick).inStretch = true) ∧
    (let y := { pipe0 with run := none }
     let x := { part0 with pipes := [(2, y)] }
     (let c := cmdOf 0x23 [(28, 1, 2), (32, 8, 1)]
      Starts (cmdState x c) 5 0x23 c ∧ firstFail (rsvBytes c [(16, 12), (29, 3), (40, 24)]) = none ∧ c.field 32 8 ≠ 0) ∧
     x.runBusy y = false ∧ part0.runBusy pipe0 = true ∧ x.recoveryBound y ≤ x.tick.par.allowance ∧
     ({ x with tick := { Tick.reset with par := ⟨3990, 0, 0, 1⟩ } } : Part).tick.par.allowance < x.recoveryBound y ∧
     (cmdOf 0x23 [(28, 1, 2)]).field 32 8 = 0) ∧
    (∀ m ∈ [0, 1], let c := cmdOf 0x24 [(29, 1, m)]
      Starts (cmdState part0 c) 5 0x24 c ∧ firstFail (rsvBytes c [(16, 12), (30, 34)]) = none ∧ (Tab.find part0.pipes 0).isSome = true) := by
  decide +kernel

/-! ## Witnesses: partitions -/

/-- A PARTITION_SET object: all four dies, the unified and store memory it has, 512 GiB volatile in one shared region, 64 queue pairs of function 0. -/
def layout1 : Bytes := blockOf 256 [(0, 1, 1), (1, 1, 15), (4, 2, 0xFFFF), (6, 1, 0xFF), (16, 4, 49152), (20, 4, 8192), (24, 4, 512), (28, 4, 496),
  (32, 1, 1), (68, 4, 512), (128, 4, 512 + 64 * 1024)]

theorem wit_partition_set :
    (let c := cmdOf 0x10 [(24, 4, 256)]
     Starts (cmdState idlePart c) 5 0x10 c ∧ firstFail (setChecks c) = none ∧ HostObject c 256 ∧
     (cmdState idlePart c).dev.layoutFail 0 0 (objectOf layout1 256) = none ∧
     (cmdState idlePart c).dev.layoutFail 0 0 (objectOf [] 256) = some (stUnsupported, 0) ∧
     (cmdState idlePart c).dev.layoutBusy 0 5 (layoutOf (objectOf layout1 256)) = false ∧
     (cmdState part0 c).dev.layoutBusy 0 5 (layoutOf (objectOf layout1 256)) = true) ∧
    (let c := cmdOf 0x10 [(28, 1, 1), (29, 1, 1)]
     let s := upOf { dev0 with parts := [(0, idlePart), (1, { Part.reset with layout := some { Layout.shipped with functions := [] } })],
                               host := { HostSide.reset with live := [(5, c)] } }
     Starts s 5 0x10 c ∧ firstFail (noObject c ++ setChecks c) = none ∧ s.dev.idle 1 5 = true ∧ (s.dev.part 1).layout.isSome = true ∧
     adminFn ∉ (s.dev.part 1).fnList) ∧
    (let c := cmdOf 0x10 [(29, 1, 2)]
     let s := cmdState { idlePart with state := .departed 7 } c
     Starts s 5 0x10 c ∧ firstFail (noObject c ++ setChecks c) = none ∧ s.dev.idle 0 5 = true ∧ (s.dev.part 0).state.isDeparted = true) := by
  decide +kernel

/-- Layout fields at their bounds: dies 0, 1, 15 and 16; default codes. -/
theorem wit_layout_fields :
    (fieldOf (blockOf 256 [(0, 1, 1), (1, 1, 16)]) 1 1 = 16) ∧ firstFail (layoutChecks 0 (blockOf 256 [(0, 1, 1), (1, 1, 15)])) = none ∧
    firstFail (layoutChecks 0 (blockOf 256 [(0, 1, 1), (1, 1, 1)])) = none ∧ fieldOf (blockOf 256 []) 2 1 = 0 ∧
    fieldOf layout1 4 2 = 0xFFFF ∧ fieldOf layout1 6 1 = 0xFF := by decide +kernel

theorem wit_scrubs :
    (0 / 64 ∈ [0] ∧ 64 / 64 ∉ [0]) ∧
    (let s := partState { idlePart with state := .departed 7 }
     PartUp s 0 ∧ (s.dev.part 0).state = .departed 7 ∧ (s.dev.part 0).layout.isSome = true ∧ s.dev.host.live = []) ∧
    (let s := partState { idlePart with state := .scrubbing none false }
     (s.dev.part 0).state = .scrubbing none false ∧ ∀ f ∈ (s.dev.part 0).fnList, (s.dev.fn f).awaiting = false) ∧
    (let x := { idlePart with layout := some { Layout.shipped with functions := [] }, state := .scrubbing none true }; x.fnList = []) ∧
    (idlePart.state.isDeparted = false ∧ ∀ d ∈ [true, false], idlePart.state ≠ .scrubbing none d) := by decide +kernel

/-! ## Witnesses: keys, sessions, firmware -/

/-- ATTEST and SESSION_OPEN with areas in host memory. Whether a report or a response fits depends on lengths that the
model leaves open: the least area, of one byte, is too small for a report. -/
theorem wit_attest :
    (let c := cmdOf 0x80 [(24, 4, 1)]
     Starts (cmdState part0 c) 5 0x80 c ∧ firstFail (rsvBytes c [(28, 4)]) = none ∧ c.field 24 4 ≠ 0 ∧ HostOut c 16 1) ∧ dev0.carnelian = true ∧
    (let c := cmdOf 0x81 [(24, 4, 1), (28, 4, 1)]
     Starts (cmdState part0 c) 5 0x81 c ∧ firstFail (rsvBytes c [(40, 24)]) = none ∧ HostObject c 1 ∧ HostOut c 32 1) := by decide +kernel

theorem wit_report_is_larger_than_a_byte : 1 < reportBytes := by unfold reportBytes; omega

/-- The module with the functions of port 0 there and attached, beside SPDM sessions and resumption records of partition 0. -/
def hostState (x : Part) (f : Fn) : State :=
  upOf { dev0 with parts := [(0, x)], host := { HostSide.reset with fns := [(0, { f with present := true, attached := true })] } }

theorem wit_spdm :
    (∀ src ∈ [SpdmSrc.doe 0, .mctp, .fn 0], SpdmUp (hostState part0 Fn.reset) src) ∧
    (hostState part0 Fn.reset).dev.spdmPart (.doe 0) = some 0 ∧
    (let s := hostState { part0 with layout := none } Fn.reset; SpdmUp s (.doe 0) ∧ s.dev.spdmPart (.doe 0) = none) ∧
    (∀ r ∈ [false, true], ((hostState { part0 with sessions := [⟨7, 0, false, [], r⟩] } Fn.reset).dev.opening (.doe 0) r).isSome = true) ∧
    (let x := { part0 with resumes := [⟨0, 7, [1]⟩] }
     let s := hostState x Fn.reset
     x.resumeRec ((spdmFn (.doe 0)).getD noFn) 7 = some ⟨0, 7, [1]⟩ ∧ s.dev.graceOpen 0 = true) ∧
    (hostState { part0 with layout := some { Layout.shipped with graceS := 0 }, state := .departed 0 } Fn.reset).dev.graceOpen 0 = false ∧
    (let s := hostState { part0 with sessions := [⟨7, 0, true, [], false⟩] } Fn.reset
     SpdmUp s (.doe (portOf 0)) ∧ s.dev.secureOf (.doe (portOf 0)) = true ∧ (s.dev.fn 0).present = true) ∧
    (hostState part0 Fn.reset).dev.secureOf (.doe (portOf 0)) = false ∧ 0 ∈ (hostState part0 Fn.reset).dev.presentOn 0 := by decide +kernel

/-- KEY_IMPORT: an object that passes its checks and unwraps to nothing, a free slot and none; ERASE of a key that no region
holds, one that a region holds. -/
theorem wit_key_import :
    (let c := cmdOf 0x82 [(24, 4, 1664)]
     Starts (cmdState part0 c) 5 0x82 c ∧ firstFail (rsvBytes c [(28, 36)]) = none ∧ HostObject c 1664) ∧
    firstFail (importChecks (blockOf 1664 [(0, 1, 1)])) = none ∧ part0.unwrap 0 (blockOf 1664 [(0, 1, 1)]) = none ∧ part0.freeKey = some 0 ∧
    (let c := cmdOf 0x82 [(24, 4, 16)]
     let x := { part0 with keys := [(3, ⟨[], false, 2, true⟩)] }
     let o := objectOf (blockOf 16 [(0, 1, 1), (1, 1, 1), (4, 4, 3 + 256 * 2)]) 16
     Starts (cmdState x c) 5 0x82 c ∧ HostObject c 16 ∧ fieldOf o 0 1 = 1 ∧ fieldOf o 1 1 = 1 ∧ fieldOf o 2 1 < 2 ∧ fieldOf o 3 1 = 0 ∧
     (x.keyOf (fieldOf o 4 4)).isSome = true ∧ (x.regions.any (fun e => e.2.key == some (fieldOf o 4 4))) = false ∧
     (({ x with regions := [(1, ⟨0, 65536, some 515⟩)] } : Part).regions.any (fun e => e.2.key == some (fieldOf o 4 4))) = true) := by
  decide +kernel

theorem wit_no_free_key :
    ({ part0 with keys := (List.range 256).map (fun i => (i, ⟨[], false, 0, true⟩)) } : Part).freeKey = none := by decide +kernel

/-- WEIGHTS_BIND with the least and the greatest length, and its completion. -/
theorem wit_weights :
    (let x := { part0 with keys := [(3, ⟨[], false, 2, true⟩)], regions := [(1, ⟨0, 65536, none⟩)] }
     (∀ n ∈ [16, 65552], let c := cmdOf 0x30 [(24, 8, n), (32, 4, 1), (36, 4, 515)]
       Starts (cmdState x c) 5 0x30 c ∧ (Tab.find x.regions (c.field 32 4)).isSome = true ∧ firstFail (rsvBytes c [(52, 12)]) = none ∧
       (x.keyOf (c.field 36 4)).isSome = true ∧ HostObject c n) ∧
     (let c := { cmdOf 0x30 [(24, 8, 16), (32, 4, 1), (36, 4, 516)] with phase := .running }
      (cmdState x c).dev.cmd 5 = some c ∧ c.op = 0x30 ∧ x.decrypt c = none) ∧
     Tab.find x.regions 2 = none) := by decide +kernel

/-- A region whose page is not there, one whose page is, over a link that is up and one that is down. -/
theorem wit_weights_pages :
    part0.coldPages 0 65536 = [0] ∧
    (let x := { part0 with resident := [(0, ⟨0, 9, [], 0⟩)], frames := [(9, 1)] }
     let d := (partState x).dev
     x.coldPages 0 65536 = [] ∧ d.ioWay 0 0 16 = 0 ∧ d.extentHeld 0 0 16 = false ∧ d.staleExtent 0 0 16 = false ∧
     ({ d with links := [(6, { Link.reset 6 with state := 2 })] } : Dev).ioWay 0 0 16 = 2) := by decide +kernel

theorem wit_rotate :
    (let c := cmdOf 0x83 []
     Starts (cmdState part0 c) 5 0x83 c ∧ firstFail (rsvBytes c [(16, 48)]) = none ∧ part0.oldGen = none) ∧
    (let x := { part0 with oldGen := some (0, 0), gen := 1 }
     x.oldGen.isSome = true ∧ ∀ t < 16, ((partState x).dev.stack t).conv = []) := by decide +kernel

/-- Firmware: no session of the management controller, epochs 31 and 32, STAGE and COMMIT, recovery. -/
theorem wit_firmware :
    (let s := upOf dev0; s.plat.up = true ∧ s.dev.mctp.any (·.secure) = false ∧ s.plat.fuseEpoch < 32) ∧
    (let c := cmdOf 0x92 [(24, 4, 1)]
     Starts (cmdState part0 c) 5 0x92 c ∧ HostObject c 1 ∧
     firstFail ([(24, stBounds, decide (maxImage < c.field 24 4)), (28, stInvalid, false)] ++ rsvBytes c [(29, 35)]) = none) ∧
    (let c := cmdOf 0x92 [(28, 1, 1)]; Starts (cmdState part0 c) 5 0x92 c ∧ firstFail (rsvBytes c [(29, 35)]) = none) ∧
    Plat.reset.fwStaged = none ∧ ({ Plat.reset with fwStaged := some ⟨1, []⟩, committing := some none } : Plat).committing = some none ∧
    (let x := { Plat.reset with boot := .recovery }
     x.romReady = true ∧ x.up = false ∧ x.powered = true ∧ ({ x with rom := { RomRec.reset with busy := 1 } } : Plat).rom.busy = 1) ∧
    Plat.reset.romReady = false := by decide +kernel

/-! ## Witnesses: handles and queue pairs -/

/-- A queue of 16 entries with one command to fetch. -/
def queue0 : Qp := { Qp.reset with enable := true, state := 1, sqLog2 := 4, cqLog2 := 4, sqTail := 1, eventEn := true }

/-- The admin function's queue 0 as given. -/
def qpState (q : Qp) : State := hostState part0 { Fn.reset with qps := [(0, q)] }

theorem wit_fetch :
    (let s := qpState queue0
     s.dev.fetchTurnOf (some 0) 0 0 = true ∧ s.dev.nextFetch 0 = some (queueKey 0 0, 7) ∧
     s.plat.up = true ∧ (s.dev.fn 0).attached = true ∧ queue0.fetchable = true ∧ s.plat.lowPower = false ∧ s.dev.ownerOfFn 0 = some 0 ∧
     s.dev.handleRoom (some 0) = true ∧ firstGap (Tab.keys s.dev.host.live) 0 maxHandles = some 0 ∧
     headerFail (s.dev.part 0) (some 0) 0 (List.replicate 64 0) = none) ∧
    (let s := hostState { part0 with layout := some { Layout.shipped with handleQuota := 0 } } { Fn.reset with qps := [(0, queue0)] }
     s.dev.handleRoom (some 0) = false) ∧
    (let s := hostState { part0 with fetchTurn := queueKey 0 1, fetchLeft := 3 } { Fn.reset with qps := [(0, queue0), (1, queue0)] }
     s.dev.handleRoom (some 0) = true ∧ s.dev.fetchTurnOf (some 0) 0 0 = false ∧ s.dev.fetchTurnOf (some 0) 0 1 = true) ∧
    ({ queue0 with sqTail := 0 } : Qp).fetchable = false := by decide +kernel

/-- A ring in device memory: outside the volatile allocation, within it, behind a link that retrains and one that is down. -/
theorem wit_fetch_device :
    (let q := fun a => { queue0 with sqInDev := true, sqBase := a }
     let d := (qpState (q volBase)).dev
     (q volBase).fetchable = true ∧ d.handleRoom (some 0) = true ∧ d.fetchTurnOf (some 0) 0 0 = true ∧ part0.extent 65536 64 ≠ .volatile ∧ part0.extent volBase 64 = .volatile ∧
     d.ioWay 0 volBase 64 = 0 ∧ d.extentHeld 0 volBase 64 = false ∧ poisoned (d.devRead 0 volBase 64 0).1 = false ∧
     (∀ n ∈ [1, 2], ({ d with links := [(6, { Link.reset 6 with state := n })] } : Dev).ioWay 0 volBase 64 = n)) := by decide +kernel

theorem wit_completions :
    (let c := cmdOf 0x00 []
     let d := { (qpState queue0).dev with host := { (qpState queue0).dev.host with live := [(5, c)] } }
     d.cmd 5 = some c ∧ d.aborters 5 c.gen = [] ∧ c.lost = false ∧ ((d.fn 0).qp 0).open_ = true ∧ ((d.fn 0).qp 0).cqInDev = false) ∧
    (Qp.reset.open_ = false) := by decide +kernel

/-- ABORT of its own partition's live command, of a stale one, of a slot that holds none, of another partition's. -/
theorem wit_abort :
    (let t := handleOf 6 1 0
     let c := cmdOf 0x01 [(16, 8, t)]
     let s := upOf { dev0 with host := { HostSide.reset with live := [(5, c), (6, cmdOf 0x22 [])] } }
     Starts s 5 0x01 c ∧ firstFail (rsvBytes c [(24, 40)]) = none ∧ bitsOf t 45 44 = c.part ∧ (s.dev.cmd (t % 2 ^ 20)).isSome = true ∧
     handleOf (t % 2 ^ 20) 1 0 = t ∧ handleOf (handleOf 6 2 0 % 2 ^ 20) 1 0 ≠ handleOf 6 2 0 ∧ s.dev.cmd (handleOf 7 1 0 % 2 ^ 20) = none) ∧
    bitsOf (handleOf 6 1 1) 45 44 ≠ 0 ∧
    firstFail (rsvBytes (cmdOf 0x00 [(63, 1, 1)]) [(16, 48)]) = some (stInvalid, 63) := by decide +kernel

/-- LEDGER_READ with areas of 64, 128 and 192 bytes; TELEMETRY_READ of each class with areas of 0, 31 and 32 bytes. -/
theorem wit_reads :
    (∀ n ∈ [64, 128, 192], let c := cmdOf 0x90 [(24, 4, n)]
      Starts (cmdState part0 c) 5 0x90 c ∧ HostOut c 16 n ∧
      firstFail ([(24, stAlign, n % 64 != 0)] ++ rsvBytes c [(28, 36)]) = none) ∧
    (∀ n ∈ [0, 31, 32], ∀ cls ∈ [0, 1, 2, 3, 4, 5, 6, 7], let c := cmdOf 0x91 [(24, 4, n), (28, 1, cls)]
      Starts (cmdState part0 c) 5 0x91 c ∧ HostOut c 16 n ∧ firstFail (rsvBytes c [(32, 32)]) = none ∧ c.field 29 1 = 0) ∧
    part0.badSelector 0 0 = false ∧ part0.badSelector 1 1 = false := by decide +kernel

/-- A deadline without a recovery, one while a boundary stretches, a deferral, work of an advanced generation. -/
theorem wit_timeouts :
    (let c := { cmdOf 0x00 [] with deadline := some 9 }
     let s := cmdState part0 c
     s.dev.cmd 5 = some c ∧ c.untimed = false ∧ ((s.dev.reach 9).recoveryEnds 5 c).1 = []) ∧
    (let c := { cmdOf 0x50 [] with phase := .running, deadline := some 9 }
     let s := cmdState { part0 with tick := { Tick.reset with inStretch := true } } c
     c.untimed = false ∧ ((s.dev.reach 9).recoveryEnds 5 c).1 ≠ []) ∧
    ({ cmdOf 0x00 [] with deferred := some 9 } : Cmd).deferred = some 9 ∧ (cmdOf 0x00 []).op ≠ 0x92 ∧ (cmdOf 0x92 []).op = 0x92 ∧
    (cmdState part0 (cmdOf 0x92 [])).dev.cmd 6 = none ∧
    Tab.find [(5, 0)] 5 = some 0 ∧ (upOf dev0).dev.cmd 5 = none ∧ Tab.find (upOf dev0).dev.host.late 5 = none := by decide +kernel

/-- QP_CFG values with rings of 8, 16, 65,536 and 131,072 entries and with vector 2,047; queues in each state. -/
theorem wit_qp_config :
    QpUp (qpState Qp.reset) 0 0 ∧ QpUp (qpState Qp.reset) 0 63 ∧ ¬ QpUp (qpState Qp.reset) 0 64 ∧
    (let v := fun n => 2 ^ 31 + n * 64 + n * 2
     bitOf (v 4) 31 = true ∧ (Qp.reset.withCfg (v 3)).valid = false ∧ (Qp.reset.withCfg (v 4)).valid = true ∧
     (Qp.reset.withCfg (v 16)).valid = true ∧ (Qp.reset.withCfg (v 17)).valid = false ∧ (Qp.reset.withCfg (v 4 + 2047 * 2 ^ 11)).valid = true) ∧
    (∀ st ∈ [1, 2, 3], QpUp (qpState { queue0 with state := st }) 0 0 ∧ ((qpState { queue0 with state := st }).dev.fn 0).qp 0 = { queue0 with state := st }) ∧
    (qpState queue0).dev.queueLive 0 0 = false ∧ (cmdState part0 (cmdOf 0 [])).dev.queueLive 0 0 = true ∧
    ((qpState queue0).dev.port (portOf 0)).d3 = false ∧ bitOf 1 0 = true := by decide +kernel

/-- Doorbells of 15 and of 16 on rings of 16 entries; a ring with entries to free; IDE that is required and absent; a masked
and an unmasked vector. -/
theorem wit_doorbells :
    (qpState queue0).dev.ideShut 0 = false ∧ 15 % 2 ^ 16 < queue0.sqSize ∧ queue0.sqSize ≤ 16 % 2 ^ 16 ∧
    (let x := { queue0 with cqWrite := 15 }
     x.open_ = true ∧ 15 % 2 ^ 16 < x.cqSize ∧ (15 % 2 ^ 16 + x.cqSize - x.cqHead) % x.cqSize ≤ x.cqUsed ∧ x.cqSize ≤ 16 % 2 ^ 16) ∧
    (let s := hostState { part0 with layout := some { Layout.shipped with ideRequired := true } } { Fn.reset with qps := [(0, queue0)] }
     s.dev.ideShut 0 = true) ∧
    (queue0.sqInDev = false ∧ queue0.stalled = false ∧ queue0.sqHead ≠ queue0.sqTail) ∧
    (let s := hostState part0 { Fn.reset with qps := [(0, { queue0 with uncovered := 1 })], msix := [(3, 0)] }
     bitOf ((s.dev.fn 0).msixDword (4 * 0 + 3)) 0 = false) ∧
    bitOf (Fn.reset.msixDword (4 * 0 + 3)) 0 = true := by decide +kernel

/-! ## Witnesses: registers, windows, ports -/

/-- The admin function's registers; thermal values just inside and just outside their ranges; port codes; 64-bit reads. -/
theorem wit_registers :
    (let s := hostState part0 Fn.reset
     FnUp s 0 ∧ (0x3C0010000000 % 2 ^ 48 % 2 ^ (s.dev.fn 0).bar2Log2 = 0) ∧ (0x3C0010000001 % 2 ^ 48 % 2 ^ (s.dev.fn 0).bar2Log2 ≠ 0) ∧
     s.plat.committing = none ∧ bitOf 1 8 = false ∧ 1 % 4 ≠ s.plat.portNext ∧ bitOf 256 8 = true ∧ 256 % 4 = s.plat.portNext ∧
     (s.dev.reg64 0 0x100).isSome = true ∧ s.dev.reg64 0 0x104 = none) ∧ adminFn = 0 ∧
    (let s := hostState { part0 with layout := some { Layout.shipped with functions := [(0, 64), (1, 1)] } } Fn.reset
     let t := { s with dev := { s.dev with host := { s.dev.host with fns := [(1, { Fn.reset with present := true })] } } }
     FnUp t 1 ∧ (1 : Nat) ≠ adminFn) ∧
    (∀ x ∈ [85, 100], ∀ y ∈ [2, 10], let v := x * 256 + y * 65536; bitsOf v 15 8 = x ∧ bitsOf v 23 16 = y) ∧
    (bitsOf (84 * 256) 15 8 < 85 ∧ 100 < bitsOf (101 * 256) 15 8 ∧ bitsOf (1 * 65536) 23 16 < 2 ∧ 10 < bitsOf (11 * 65536) 23 16) := by
  decide +kernel

theorem wit_register_writes :
    (∀ off ∈ [0x120, 0x20], off % 4 = 0) ∧ 0x121 % 4 ≠ 0 ∧ (hostState part0 Fn.reset).dev.ownerOfFn 0 = some 0 ∧
    Qp.reset.state = 0 ∧ queue0.state ≠ 0 ∧
    (let s : State := { upOf dev0 with plat := { Plat.reset with boot := .recovery } }
     s.plat.boot = .recovery ∧ s.plat.powered = true) ∧
    (let s := hostState part0 { Fn.reset with qps := [(0, queue0)] }
     s.plat.serves = true ∧ s.dev.qpCount 0 ≤ 65536) ∧
    ({ upOf dev0 with plat := { Plat.reset with boot := .stage 3 } } : State).plat.boot = .stage 3 ∧ (0x408000 ≤ 0x4080FC ∧ 0x4080FC < 0x408100) ∧ (0x810000 ≤ 0x81FFFC ∧ 0x81FFFC < 0x820000) := by decide +kernel

/-- BAR2: the last byte of the window and the first beyond it, no bytes, a function whose partition departed, an atomic, an extent
outside, one in a weight region, one that is served; resizes to 2^27, 2^28, 2^36 and 2^37 bytes. -/
theorem wit_bar2 :
    (let f := { Fn.reset with bar2Base := 0 }
     let s := hostState { part0 with regions := [(1, ⟨65536, 65536, some 515⟩)] } f
     FnUp s 0 ∧ (2 ^ 28 - 1 < 2 ^ (s.dev.fn 0).bar2Log2) ∧ (2 ^ (s.dev.fn 0).bar2Log2 ≤ 2 ^ 28) ∧ s.dev.bar2Part 0 = some 0 ∧
     (s.dev.part 0).extent 0 64 ≠ .outside ∧ (s.dev.part 0).hitsWeights 0 64 = false ∧ (s.dev.part 0).hitsWeights 65535 2 = true ∧
     (hostState { part0 with state := .departed 0 } f).dev.bar2Part 0 = none ∧ (⟨4, none, false⟩ : Bar2Req).write = none ∧
     (hostState part0 Fn.reset).dev.bar2Part 0 = some 0 ∧ (part0.extent (0x3C0000000000 + 2 ^ 27) 64 = .outside ∨ part0.extent 0x3C0000000000 64 ≠ .outside)) ∧
    (27 < 28 ∧ 28 ≤ 28 ∧ 36 ≤ 36 ∧ 36 < 37) := by decide +kernel

/-- Ports: in use, in reset, held with a fault, in recovery; VF counts 64 and 65; two functions that depart, one by one. -/
theorem wit_ports :
    (let s := hostState part0 Fn.reset
     PortUp s 0 ∧ ¬ PortUp s 1 ∧ (s.dev.port 0).perst = false ∧ (s.plat.fault = false ∧ s.plat.boot ≠ .recovery) ∧
     (s.dev.fn 0).present = true ∧ (s.dev.port 0).vfs = 0 ∧ (s.dev.port 0).up = false) ∧
    (let s : State := { hostState part0 Fn.reset with plat := { Plat.reset with boot := .failed, fault := true } }; PortUp s 0 ∧ s.plat.fault = true) ∧
    (let d := { dev0 with host := { HostSide.reset with ports := [(0, { Port.reset with perst := true })] } }
     (let s : State := ⟨{ Plat.reset with boot := .held }, d, []⟩; s.plat.powered = true ∧ s.plat.boot = .held ∧ (s.dev.port 0).perst = true) ∧
     PortUp (upOf d) 0 ∧ ((upOf d).dev.port 0).perst = true) ∧
    (64 ≤ 64 ∧ 64 < 65) ∧
    (let d := (hostState part0 { Fn.reset with qps := [(0, queue0), (1, Qp.reset)] }).dev
     (d.fn 0).attached = true ∧ d.host.live = [] ∧ d.ownerOfFn 0 = some 0 ∧ (d.part 0).state = .attached ∧ (d.part 0).everAttached = true ∧
     ∀ g ∈ (d.part 0).fnList, g ≠ 0 → (d.fn g).attached = false) := by decide +kernel

theorem wit_power_states :
    (let s := hostState part0 Fn.reset; PortUp s 0 ∧ (s.dev.port 0).d3 = false ∧ s.dev.host.live = [] ∧ (∃ m, m < portsOf s.plat.portNow ∧ (s.dev.port m).d3 = false)) ∧
    (let s := upOf { dev0 with host := { HostSide.reset with ports := [(0, { Port.reset with d3 := true })] } }
     PortUp s 0 ∧ (s.dev.port 0).d3 = true ∧ (∀ m, m < portsOf s.plat.portNow → (s.dev.port m).d3 = true) ∧ s.plat.lowPower = false ∧
     ∀ p < 4, (s.dev.part p).tick.held = none) := by decide +kernel

/-! ## Witnesses: power, boot, temperature -/

/-- The input at 39,000 and 38,999 mV, 36,999 and 37,000, 62,000 and 62,001, 66,000 and 66,001, 19,999 and 20,000; latched and not. -/
theorem wit_input :
    (39000 ≤ 39000 ∧ 38999 < 39000 ∧ 36999 < 37000 ∧ 37000 ≤ 37000 ∧ 62000 < 62001 ∧ 62000 ≤ 62000 ∧ 66000 < 66001 ∧ 66000 ≤ 66000 ∧
      19999 < 20000 ∧ 20000 ≤ 20000 ∧ 99 < 100 ∧ 100 ≤ 100 ∧ 999 < 1000 ∧ 1000 ≤ 1000) ∧
    (let x := { Plat.reset with input := false, boot := .off }; x.input = false ∧ x.latch = none ∧ x.powered = false) ∧
    (Plat.reset.input = true ∧ Plat.reset.latch = none ∧ Plat.reset.powered = true) ∧
    ({ Plat.reset with latch := some .thermal, boot := .off } : Plat).latch.isSome = true := by decide +kernel

/-- Every stage of a boot that passes, one that fails, an image that does not verify; the last stage. -/
theorem wit_boot :
    (let r : BootResult := ⟨true, true, [], [], [], []⟩
     r.ok = true ∧ r.signed = true ∧ Plat.reset.fwStored.isSome = true ∧ bootEnough r = true ∧ bootEnough { r with badWays := [(32768, 2)] } = true ∧
     bootEnough { r with badWays := [(32768, 3)] } = false) ∧
    (∀ n ∈ [0, 1, 2, 3, 4, 5, 6], ({ Plat.reset with boot := .stage n } : Plat).powered = true) ∧
    (∀ n, Plat.reset.boot = .stage n → n = 0) ∧ (upOf dev0).plat.boot ≠ .held ∧ (upOf dev0).plat.powered = true := by
  refine ⟨by decide +kernel, by decide +kernel, ?_, by decide +kernel⟩
  intro n h; exact (Boot.stage.inj h).symm

/-- Samples of 99, 100, 104 and 105 °C on a die and on a stack, the first and the second of 105 °C. -/
theorem wit_samples :
    (upOf dev0).plat.up = true ∧ (99 < 100 ∧ 100 ≤ 104 ∧ 104 < 105) ∧
    (let x := Tab.getD (upOf dev0).plat.dies 0 ⟨0, 0, false⟩; x.hot = 0) ∧
    (let x : DieTemp := ⟨105, 1, true⟩; 1 ≤ x.hot) ∧
    ((upOf dev0).dev.stack 0).tripped = false ∧ ((upOf dev0).dev.stack 0).waiting = [] ∧
    (let d := { dev0 with beryl := [(0, { Stack.reset with hot := 1 })] }; 1 ≤ ((upOf d).dev.stack 0).hot) := by decide +kernel

/-! ## Witnesses: stacks, links, failures -/

/-- A stack with a partition: its first and last atoms, a byte that is no atom, one beyond it; a read that waits behind another,
a write to an old tag unit, a read without tokens, a read that is served. -/
theorem wit_stacks :
    (let r : StackReq := ⟨0, 32, none, 0, .clean⟩
     wholeReq r = true ∧ wholeReq { r with addr := stackBytes - 32 } = true ∧ wholeReq { r with addr := stackBytes } = false ∧
     wholeReq { r with addr := 1 } = false ∧ (upOf dev0).dev.stackOwner 0 = some 0 ∧
     behind [] r = false ∧ behind [r] r = true ∧ behind [{ r with addr := 32 }] r = false ∧
     staleUnit { part0 with oldGen := some (0, 0), gen := 1 } Stack.reset { r with write := some (List.replicate 32 1) } = some 0 ∧
     staleUnit part0 Stack.reset r = none ∧
     (let after := fun (d : Dev) =>
        let q := (d.svc 0).serve r (d.part 0).quota (d.part 0).gen
        d.endSvc 0 0 { q.2 with st := { q.2.st with reply := if r.write.isNone then some (plain q.1, poisoned q.1) else q.2.st.reply } }
      let hot := { dev0 with beryl := [(0, { Stack.reset with step := 1, tokens := 0 })] }
      dev0.affords (after dev0) = true ∧ hot.affords (after hot) = false)) ∧
    (let u := ((dev0.svc 0).readAtom 0 .clean).2
     dev0.affords (dev0.endSvc 0 0 { u with st := { u.st with scrubbed := u.st.scrubbed + 1 } }) = true) ∧
    Stack.reset.waiting = [] ∧ Stack.reset.port = [] ∧ 0 ∉ Stack.reset.conv ∧ part0.oldGen = none ∧
    (0 ∈ ({ Stack.reset with conv := [0] } : Stack).conv) ∧ Layout.shipped.unitFrame 0 0 = none ∧
    (Layout.shipped.unitFrame 0 (2 ^ 22 - 1)).isSome = true ∧ (stackBytes / 32 ≤ stackBytes / 32 ∧ stackBytes / 32 - 1 < stackBytes / 32) := by
  decide +kernel

/-- A link that is up, that retrains, that is down; a replay run of 16; the last retrain 99,999 and 100,000 tc ago; half the lanes. -/
theorem wit_links :
    (let x := Link.reset 0
     x.state = 0 ∧ x.runStart = none ∧ ({ x with runStart := some 0, runCount := 16 } : Link).runStart.isSome = true ∧
     lanesUp (Link.reset 0).lanes (2 ^ 32 - 1) = some 32 ∧ lanesUp (Link.reset 0).lanes (2 ^ 16 - 1) = some 16 ∧
     lanesUp (Link.reset 0).lanes 0 = none) ∧
    (let d := { dev0 with now := 100000, links := [(0, { Link.reset 0 with runStart := some 0, runCount := 16, lastRetrain := some 0 })] }
     (∀ t, (d.link 0).lastRetrain = some t → t + 100000 ≤ d.now)) ∧
    (99999 < 0 + 100000) ∧ (999 < 0 + 3000 ∧ 0 + 3000 ≤ 3000) ∧ ({ Link.reset 0 with state := 1 } : Link).state = 1 := by
  refine ⟨by decide +kernel, ?_, by decide +kernel⟩
  intro d t h
  have e : (some 0 : Option Nat) = some t := h
  cases e; decide +kernel

theorem wit_failures :
    (let s := upOf dev0
     s.plat.up = true ∧ (s.dev.cluster 0).failed = false ∧ (s.dev.cluster 0).pgQ = [] ∧ (s.dev.cluster 0).walks = [] ∧
     (upOf Dev.reset).dev.ownerOfDie (0 / 8) = none ∧ hubExists 0 31 = true ∧ hubExists 1 3 = true ∧ hubExists 2 0 = true ∧
     hopExists 2 3 = true ∧ hopExists 2 4 = false ∧ (7 : Nat) < 8 ∧
     (s.dev.hub (hubKey 0 31)).replays < 2 ∧ 2 ≤ ({ s.dev.hub (hubKey 0 31) with replays := 2 } : Hub).replays ∧ s.dev.carnelian = true ∧ s.dev.host.live = []) ∧
    ((upOf { dev0 with clusters := [(0, { Cluster.reset with failed := true })] }).dev.cluster 0).failed = true ∧
    (upOf { dev0 with carnelian := false }).dev.carnelian = false := by decide +kernel

/-! ## Witnesses: the tier -/

theorem wit_pages :
    (let m : Migr := ⟨0, false, 0, none, false, false, false, false⟩
     let s := partState { part0 with migr := [(3, m)], reserve := [(4, ⟨0, 0, [], [], [], 0⟩), (5, ⟨0, 1, [], [], [], 1⟩)] }
     PartUp s 0 ∧ (s.dev.part 0).migrOf 3 = some m ∧ (s.dev.part 0).migrOf 6 = none ∧ (Tab.find (s.dev.part 0).reserve 4).map (·.waiters) = some 0 ∧
     (Tab.find (s.dev.part 0).reserve 5).map (·.waiters) = some 1 ∧ Tab.find (s.dev.part 0).reserve 6 = none ∧
     s.dev.tier.readOnly = false ∧ s.plat.lowPower = false ∧ (s.dev.part 0).dirtyExcess = 0 ∧ s.dev.ioState 0 = 0) ∧
    (let x := { part0 with reserve := [(4, ⟨0, 0, [], [], [(0, 0)], 0⟩)], evict := [(7, ⟨0, 2, []⟩)] }
     let d := { (partState x).dev with links := [(6, { Link.reset 6 with state := 1 })] }
     (Tab.find (d.part 0).reserve 4).map (fun r => (r.dirty, r.waiters)) = some ([(0, 0)], 0) ∧ d.ioState 0 ≠ 0 ∧
     (Tab.find (d.part 0).evict 7).map (·.die) = some 0 ∧ ({ d with tier := { d.tier with readOnly := true } } : Dev).tier.readOnly = true) := by
  decide +kernel

/-- TIER_PREFETCH of one page, of none, outside, to die 3, to die 4; with and without a wait. TIER_FLUSH whole, of none, of an
extent, and its end. -/
theorem wit_tier_commands :
    (∀ e ∈ [(65536, 65536, 0xFF, 0), (65536, 65536, 3, 1), (0, 0, 0, 0)],
      let c := cmdOf 0x50 [(16, 8, e.1), (24, 8, e.2.1), (32, 1, e.2.2.1), (33, 1, e.2.2.2)]
      Starts (cmdState part0 c) 5 0x50 c ∧
      firstFail ([(16, stInvalid, c.field 24 8 != 0 && wideAddr (c.field 16 8)),
          (16, stPartition, c.field 24 8 != 0 && part0.extent (c.field 16 8) (c.field 24 8) == .outside), (32, stPartition, c.field 32 1 != 0xFF && !part0.hasDie (c.field 32 1)), (33, stInvalid, decide (1 < c.field 33 1))] ++
          rsvBytes c [(34, 30)]) = none) ∧
    part0.extent (49152 * 2 ^ 30) 1 = .outside ∧ part0.hasDie 4 = false ∧ part0.coldPages 65536 65536 = [1] ∧ wideAddr 65536 = false ∧
    wideAddr (2 ^ 48) = true ∧ wideAddr (2 ^ 48 - 1) = false ∧
    (let r := (partState part0).dev.prefetchPages 0 3 (fun x => x.freeOn 3) [1]
     r.1 = 0 ∧ [1].filter (fun g => Tab.has (r.2.part 0).migr g) ≠ []) ∧
    (∀ m ∈ [0, 1], let c := cmdOf 0x51 [(24, 8, 128), (32, 1, m)]
      Starts (cmdState part0 c) 5 0x51 c ∧ c.field 32 1 < 2 ∧ firstFail (rsvBytes c [(33, 31)]) = none ∧ part0.extent 0 128 = .unified) ∧
    part0.extent volBase 128 ≠ .unified ∧
    (let c := { cmdOf 0x51 [(32, 1, 1)] with phase := .running }
     let x := { part0 with resident := [(1, ⟨0, 9, [], 0⟩)] }
     (cmdState part0 c).dev.cmd 5 = some c ∧ c.op = 0x51 ∧ c.phase = .running ∧ part0.flushPages c = [] ∧ x.flushPages c = [(1, 0)]) := by
  decide +kernel

/-- Free blocks below 2 % and at it; 200 and 201 erases apart; a block checked in this period and in none; retired and not;
an exhausted tier. -/
theorem wit_blocks :
    (let t := { Tier.reset with freeBlocks := rawBlocks / 50 }; t.freeBlocks * 100 < 2 * rawBlocks ∧ (t.block 0).retired = false) ∧
    2 * rawBlocks ≤ Tier.reset.freeBlocks * 100 ∧
    (let t := { Tier.reset with blocks := [(1, ⟨201, 50000, false, 0⟩), (2, ⟨200, 49999, true, 1⟩)] }
     (t.block 0).erases + 200 < (t.block 1).erases ∧ (t.block 2).erases ≤ (t.block 0).erases + 200 ∧ (t.block 2).retired = true ∧
     50000 ≤ (t.block 1).reads ∧ (t.block 2).reads < 50000 ∧
     (t.block 2).checked = 0 / (7 * 86400 * 10 ^ 9) + 1 ∧ (t.block 1).checked ≠ 0 / (7 * 86400 * 10 ^ 9) + 1) ∧
    ({ Tier.reset with spares := 0 } : Tier).exhausted = true ∧ Tier.reset.exhausted = false ∧ Tier.reset.readOnly = false := by decide +kernel

/-! ## Witnesses: video -/

/-- An AV1 decode session of 128 × 128 samples, 8 bits, 30 frames per second, nine reference slots in volatile memory. -/
def session1 : Bytes := blockOf 64 [(0, 1, 2), (2, 1, 8), (3, 1, 16), (4, 2, 128), (6, 2, 128), (8, 2, 30), (10, 2, 1), (20, 8, volBase), (28, 2, 9)]

/-- A frame of it: planes in volatile memory, 64 coded bytes in unified memory. -/
def frame1 : Bytes := blockOf 256 [(4, 4, 128), (8, 8, volBase + 2 ^ 24), (16, 8, volBase + 2 ^ 24 + 65536), (24, 8, 65536), (32, 4, 64),
  (64, 8, ones64), (80, 8, 131072)]

/-- Partition 0 with two share units of engine 0. -/
def videoPart : Part := { part0 with layout := some { Layout.shipped with agateUnits := 3 } }

/-- The session as the engine holds it. -/
def vsession (frames : List VFrame) : VSession := ⟨0, session1, frames, 1, 0, 0, 0, none, 0, false, false, 0, none⟩

/-- The module with engine 0 as given and a command in slot 5. -/
def videoState (e : Engine) (c : Cmd) : State :=
  upOf { dev0 with parts := [(0, videoPart)], engines := [(0, e)], host := { HostSide.reset with live := [(5, c)] } }

theorem wit_sessions :
    (let c := cmdOf 0x60 [(24, 4, 64)]
     let s := videoState Engine.reset c
     Starts s 5 0x60 c ∧ (s.dev.part 0).units 0 ≠ 0 ∧ (s.dev.part 0).units 1 = 0 ∧ firstFail (rsvBytes c [(32, 32)]) = none ∧ HostObject c 64 ∧
     (∀ header ∈ [0, 1000000], firstFail (sessionChecks videoPart (objectOf session1 64) header) = none) ∧
     firstFail (sessionChecks videoPart (objectOf [8] 64) 0) = some (stInvalid, 0) ∧ Engine.reset.failed = false ∧
     shareExceeded [objectOf session1 64] (videoPart.units 0) = false ∧ 0 + 1 ≤ 4 * videoPart.units 0 ∧ 4 * videoPart.units 0 < 8 + 1) ∧
    (let v := vsession []
     let e := { Engine.reset with sessions := [(4, v)] }
     (let c := cmdOf 0x60 [(24, 4, 64), (28, 1, 1), (32, 4, 4)]
      Starts (videoState e c) 5 0x60 c ∧ (videoState e c).dev.session 0 (c.field 32 4) = some v ∧ firstFail (rsvBytes c [(36, 28)]) = none ∧
      firstFail ((List.range 64).map (fun i => (i, stInvalid, !rateByte i && fieldOf (objectOf session1 64) i 1 != fieldOf v.obj i 1)) ++
        rateChecks (objectOf session1 64) 0) = none) ∧
     (let c := cmdOf 0x60 [(28, 1, 2), (32, 4, 4)]
      Starts (videoState e c) 5 0x60 c ∧ firstFail (rsvBytes c [(36, 28)]) = none)) := by decide +kernel

theorem wit_frames :
    (let v := vsession []
     let e := { Engine.reset with sessions := [(4, v)] }
     let c := cmdOf 0x61 [(24, 4, 256), (28, 4, 4)]
     Starts (videoState e c) 5 0x61 c ∧ (videoState e c).dev.session 0 (c.field 28 4) = some v ∧ firstFail (rsvBytes c [(32, 32)]) = none ∧
     HostObject c 256 ∧ ((videoState e c).dev.engine (4 % 4)).failed = false ∧
     bitOf (fieldOf frame1 0 1) 0 = false ∧ firstFail (frameChecks videoPart v.obj (objectOf frame1 256)) = none ∧
     (voDecode v.obj && fieldOf (objectOf frame1 256) 32 4 == 0) = false ∧
     (let g := overlay frame1 32 (natLE 4 0)
      (voDecode v.obj && fieldOf (objectOf g 256) 32 4 == 0) = true ∧ firstFail (emptyChecks v.obj (objectOf g 256)) = none) ∧
     (firstFail (frameChecks videoPart v.obj (objectOf [] 256))).isSome = true ∧
     (firstFail (emptyChecks v.obj (objectOf (blockOf 256 [(0, 1, 4)]) 256))).isSome = true ∧
     bitOf (fieldOf (blockOf 256 [(0, 1, 1)]) 0 1) 0 = true ∧ firstFail (frameRsv (objectOf (blockOf 256 [(0, 1, 1)]) 256)) = none ∧ v.eosBy = none) := by
  decide +kernel

/-- The same frame with everything in volatile memory. -/
def frame2 : Bytes := overlay (overlay frame1 24 (natLE 8 (volBase + 2 ^ 25))) 80 (natLE 8 (volBase + 2 ^ 25 + 65536))

/-- A frame of session 4 that is being coded, of so many guard rows, with nothing of them done. -/
def coding0 (obj : Bytes) (fmax header rows : Nat) : Coding where
  session := 4
  frame := ⟨6, obj, 0, 0⟩
  obj := session1
  key := true
  minimal := false
  stale := false
  qualityIn := false
  deferred := false
  fmax := fmax
  header := header
  c := 0
  rows := rows
  row := 0
  tries := 0
  reenc := 0
  minRows := 0
  coded := 0
  kind := 0
  lost := false
  workers := [none, none, none, none]
  prog := []
  buffer := []
  rowQ := 0
  quants := []

/-- An engine whose session has one frame, which may start. -/
def ready0 : Engine := { Engine.reset with sessions := [(4, vsession [⟨6, frame2, 0, 0⟩])] }

/-- An engine with a frame that may start: the turn is its partition's, and what it reads is there. -/
theorem wit_engine_starts :
    (let s := videoState ready0 (cmdOf 0x61 [])
     let f : VFrame := ⟨6, frame2, 0, 0⟩
     s.dev.mayStart 0 = [(4, vsession [f], f)] ∧ (s.dev.mayStart 0).filter (fun x => x.2.1.part == 0) = [(4, vsession [f], f)] ∧
     ready0.nextTurn (fun p => (s.dev.part p).units 0) ((s.dev.mayStart 0).map (fun x => x.2.1.part)) = some (0, 1) ∧
     ready0.failed = false ∧ ready0.coding = none ∧ s.plat.lowPower = false ∧ (Tab.find ready0.sessions 4).isSome = true ∧
     (s.dev.draw.2.engineWay 0 0 (startExtents session1 frame2) false).1 = 0) ∧
    (let s := videoState Engine.reset (cmdOf 0x61 [])
     Engine.reset.nextTurn (fun p => (s.dev.part p).units 0) ((s.dev.mayStart 0).map (fun x => x.2.1.part)) = none) := by decide +kernel

/-- Of one frame, any draw is that frame. -/
theorem wit_only_frame (a : Nat × VSession × VFrame) (n : Nat) : [a][n % [a].length]? = some a := by simp [Nat.mod_one]

/-- No stack of that module is throttled, so that every change can be afforded. -/
theorem wit_affords (e : Dev) : (videoState ready0 (cmdOf 0x61 [])).dev.draw.2.affords e = true ∧
    (videoState ready0 (cmdOf 0x61 [])).dev.affords e = true :=
  ⟨affords_cool (fun _ => ⟨rfl, rfl⟩) e, affords_cool (fun _ => ⟨rfl, rfl⟩) e⟩

/-- A picture of four guard rows with none and with all committed, where bits fit exactly and where they do not; a decoded
one at its end: sound, poisoned, unsupported; frames that wait for their records; a failed engine. -/
theorem wit_engines :
    (let k := coding0 frame1 10000 100 4
     let m := minimalRow session1 true
     k.row < k.rows ∧ k.tries ≠ 3 ∧ k.c + (9900 - 3 * m) + m * (k.rows - k.row - 1) + k.header ≤ k.fmax ∧
     k.fmax < k.c + (9901 - 3 * m) + m * (k.rows - k.row - 1) + k.header ∧ ({ k with tries := 3 } : Coding).tries = 3 ∧ k.minimal = false ∧ ({ k with minimal := true } : Coding).minimal = true ∧
     Tab.find ({ ready0 with coding := some k } : Engine).sessions k.session = some (vsession [⟨6, frame2, 0, 0⟩]) ∧
     k.row < (guardList session1).length ∧ ({ k with row := 4 } : Coding).rows ≤ 4) ∧
    (let k := coding0 frame2 0 0 0
     let d := (videoState { ready0 with coding := some k } (cmdOf 0x61 [])).dev
     k.rows ≤ k.row ∧ ({ ready0 with coding := some k } : Engine).ends = [] ∧ k.lost = false ∧ voDecode session1 = true ∧
     (d.engineWay 0 0 (endExtents session1 frame2 0) true).1 = 0 ∧ d.doneWay frame2 = 0 ∧
     (⟨true, true, false⟩ : FrameResult).poisoned = true ∧ (⟨true, true, false⟩ : FrameResult).unsupported = true) ∧
    ({ Engine.reset with ends := [⟨4, 0, ⟨6, frame1, 0, 0⟩, 0, 0, 0, 0, 0, 0, 0, 0⟩] } : Engine).ends ≠ [] ∧
    ({ Engine.reset with failed := true } : Engine).failed = true := by decide +kernel

/-! ## Witnesses: what is empty, waits or fails -/

/-- Link 0, between dies 0 and 1, in a state, core 0 about to run a word. -/
def linked (n : Nat) (w : Bytes) : State := upOf { dev0 with links := [(0, { Link.reset 0 with state := n })], cores := [(0, coreOf [w])] }

/-- The same, with stages on dies 0 and 1 and a halo entry each way between them. -/
def haloAway (n : Nat) (w : Bytes) : State :=
  let y := { pipe0 with stages := [stageOf [0], stageOf [64]], halos := [⟨0, 1, 0, false, 256, 1024, 4096⟩] }
  let s := linked n w
  { s with dev := { s.dev with parts := [(0, { part0 with pipes := [(0, y)] })] } }

/-- Core 0 about to run a word behind a transfer of its own to cluster memory that has not left. -/
def behindOne (w : Bytes) : State := on0 { coreOf [w] with dmaQ := [{ descrOf 9 (sample 6 1) with started := false }] }

/-- An mm.conv of no channels. -/
theorem wit_empty_conv :
    (let w := wordOf 1 2 [(24, 4, away), (28, 4, away), (34, 1, 1), (35, 1, 1), (36, 1, 1), (37, 1, 0x11), (38, 1, 0x11), (39, 1, 0x11), (48, 1, 9), (49, 1, 9), (50, 1, 16)]
     Issues (runs w) 0 1 2 w ∧ opCode w = 2 ∧ fieldOf w 32 2 = 0 ∧ ((runs w).dev.core 0).climb = none) := by decide +kernel

/-- hx. operations of a core at the edge of its stage, with an epoch and with the one that none has; to an area over a link in
each state, and behind an access that has not left. -/
theorem wit_halo_ends :
    (∀ op ∈ [1, 2, 3], ∀ e ∈ [2, ones32], let w := overlay (sample 8 op) 24 (natLE 4 e)
      let s := upOf { dev0 with parts := [(0, { part0 with pipes := [(0, { pipe0 with halos := [⟨0, 0, 1, false, 256, 1024, 4096⟩] })] })],
                                cores := [(0, coreOf [w])] }
      Issues s 0 8 op w ∧ s.dev.haloAt 0 0 (op == 1) = .edge) ∧
    (∀ n ∈ [0, 1, 2], let s := haloAway n (sample 8 1)
      Issues s 0 8 1 (sample 8 1) ∧ s.dev.haloAt 0 0 true = .area 8 4096 256 ∧ s.dev.wayState (dieOfCore 0) (8 / 8) = n) ∧
    (∀ op ∈ [1, 2, 3], Issues (behindOne (sample 8 op)) 0 8 op (sample 8 op)) ∧ ((behindOne []).dev.core 0).clusterPending = true ∧
    (let w := overlay (sample 8 3) 24 (natLE 4 ones32); Issues (runs w) 0 8 3 w) := by decide +kernel

/-- cnt. words to die 1 over a link that retrains and one that is down. -/
theorem wit_counters_away : ∀ n ∈ [1, 2], ∀ op ∈ [1, 2, 3, 4, 5, 6, 7], let w := overlay (sample 7 op) 18 [0x28]
    Issues (linked n w) 0 7 op w ∧ cntCluster 0 w = 8 ∧ (linked n w).dev.wayState (dieOfCore 0) (8 / 8) = n := by decide +kernel

/-- A lost commit while another record is staged, and while the ledger has no entry left. -/
theorem wit_ledger_waits :
    (let r : LedgerRec := ⟨0, none, 3, 0, 0, 0, 0, 0, 0, []⟩
     let l : Ledger := ⟨[], [r], [], [], false, false⟩
     let s := upOf { dev0 with parts := [(0, { part0 with ledger := l })], clusters := [(0, { Cluster.reset with bits := [(5, 3)] })],
                               cores := [(0, coreOf [sample 7 6])] }
     Issues s 0 7 6 (sample 7 6) ∧ (s.dev.part 0).ledger.staged ≠ [] ∧
     ((after (exec (.cntCommit 0) s)).dev.core 0).newest.map (·.wait) = some .ledger) := by decide +kernel

/-- Channels: no bytes; a send from cluster memory, from a word of it that cannot be corrected, over a link in each state, and
behind an access that has not left. -/
theorem wit_channel_ends :
    (∀ op ∈ [1, 2], let w := overlay (sample 10 op) 32 (natLE 4 0); Issues (runs w) 0 10 op w) ∧
    (let w := wordOf 10 1 [(24, 8, 256), (32, 4, 128), (36, 2, 7), (38, 1, 1)]
     let s := fun (bad : List Nat) => upOf { dev0 with clusters := [(0, { Cluster.reset with bad := bad })], cores := [(0, coreOf [w])] }
     Issues (s []) 0 10 1 w ∧ Issues (s [15]) 0 10 1 w ∧ (endpoint (bitsOf (fieldOf w 38 1) 1 0) (fieldOf w 16 8) 0).space = 1 ∧
     wordsIn [15] 0 128 ≠ [] ∧ wordsIn [16] 0 128 = []) ∧
    (∀ n ∈ [1, 2], let w := wordOf 10 1 [(24, 8, 256 + 2 ^ 35), (32, 4, 128), (36, 2, 7)]
      Issues (linked n w) 0 10 1 w ∧ (linked n w).dev.wayState (dieOfCore 0) ((endpoint 1 (fieldOf w 24 8) 0).cluster / 8) = n) ∧
    Issues (behindOne (sample 10 1)) 0 10 1 (sample 10 1) := by decide +kernel

/-- A reduce of no elements, a group that has ended, and two contributions of a group of two. -/
theorem wit_group_ends :
    (let w := overlay (sample 10 3) 43 [0]; Issues (runs w) 0 10 3 w ∧ fieldOf w 43 1 = 0) ∧
    (let y := { pipe0 with run := some { Run.fresh 0 1 1 with aborted := [(groupKey 0 0 0, stAborted)] } }
     let s := fun op => upOf { dev0 with parts := [(0, { part0 with pipes := [(0, y)] })], cores := [(0, coreOf [sample 10 op])] }
     ∀ op ∈ [3, 4], Issues (s op) 0 10 op (sample 10 op) ∧ (y.run.bind (fun r => Tab.find r.aborted (groupKey 0 0 0))) = some stAborted) ∧
    (let u : UsneaReq := ⟨0, 0, 0, true, 0, 0, [5], 1, 128, false⟩
     let y := { pipe0 with stages := [stageOf [0, 1]] }
     let k := fun (u : UsneaReq) => { coreOf [] with usnea := [u] }
     let s := fun v => upOf { dev0 with parts := [(0, { part0 with pipes := [(0, y)] })], cores := [(0, k u), (1, k v)] }
     CoreUp (s u) 0 ∧ ((s u).dev.coreRun 0).isSome = true ∧
     (List.range 256).filter (fun m => (y.members 0 0).contains m) = [0, 1] ∧
     ∀ v ∈ [u, { u with count := 2 }], ((List.range 256).filter (fun m => (y.members 0 0).contains m)).filterMap
       (fun m => (((s v).dev.core m).inFlight 0 0).map (fun v => (m, v))) = [(0, u), (1, v)]) := by decide +kernel


/-- A table of the first `n` keys. -/
theorem keys_of_range (n : Nat) : Tab.keys ((List.range n).map (fun i => (i, seq0))) = List.range n := by
  simp [Tab.keys, Function.comp_def]

/-- A partition whose sequence slots are all taken has none free. -/
theorem no_free_slot (x : Part) (n : Nat) (all : 65536 = n) (taken : Tab.keys x.seqs = List.range n) : x.freeSlot = none := by
  have count : ∀ n, (List.range n).foldl (fun c k => if k = c then c + 1 else c) 0 = n := by
    intro n; induction n with
    | zero => rfl
    | succ n ih => simp [List.range_succ, ih]
  unfold Part.freeSlot
  rw [taken, all]
  simp [firstGap, count]

/-- SEQ_CREATE of no tokens; a partition whose sequence slots are all taken. -/
theorem wit_no_slot : (cmdOf 0x40 [(16, 2, 16), (18, 2, 1)]).field 24 8 = 0 ∧
    ∀ n, 65536 = n → ({ part0 with seqs := (List.range n).map (fun i => (i, seq0)) } : Part).freeSlot = none :=
  ⟨by decide +kernel, fun n all => no_free_slot _ n all (keys_of_range n)⟩

/-- Commands on a sequence that is not there; a park and a resume that the state does not list. -/
theorem wit_sequence_ends :
    (∀ e ∈ [(0x42, 0), (0x42, 1), (0x42, 4), (0x43, 0), (0x43, 1), (0x44, 0)], let c := cmdOf e.1 [(16, 4, 65536 + 4), (20, 1, e.2)]
      Starts (cmdState (seqPart seq0) c) 5 e.1 c ∧ (seqPart seq0).seqOf (c.field 16 4) = none) ∧
    (∀ q ∈ [SeqState.parking, .parked, .resuming, .active], ∀ b ∈ [0, 1], let c := cmdOf 0x43 [(16, 4, 65536 + 3), (20, 1, b)]
      let x := seqPart { seq0 with state := q }
      Starts (cmdState x c) 5 0x43 c ∧ (x.seqOf (c.field 16 4)).isSome = true ∧ firstFail ((16, stInvalid, false) :: resumeRsv c) = none) ∧
    (let c := cmdOf 0x46 [(28, 4, 65536 + 3)]
     Starts (cmdState (seqPart seq0) c) 5 0x46 c ∧ c.field 24 4 = 0 ∧
     firstFail ((28, stInvalid, false) :: (24, stCount, decide (4096 < c.field 24 4)) :: rsvBytes c [(32, 32)]) = none) ∧
    (let c := cmdOf 0x46 [(24, 4, 4097), (28, 4, 65536 + 4)]
     firstFail ((28, stInvalid, ((seqPart seq0).seqOf (c.field 28 4)).isNone) :: (24, stCount, decide (4096 < c.field 24 4)) ::
       rsvBytes c [(32, 32)]) = some (stCount, 24)) ∧
    ({ seq0 with ns := 1 } : Seq).fitFor 0 16 1 = false ∧ seq0.tokens < 17 ∧ 16 ≤ seq0.tokens ∧ ({ seq0 with ns := 1 } : Seq).ns ≠ 0 := by
  decide +kernel

/-- MEM_FREE of a region with a page that is on its way. -/
theorem wit_free_waits :
    (let x := { part0 with regions := [(1, ⟨65536, 65536, none⟩)], migr := [(1, ⟨0, false, 0, none, false, false, false, false⟩)] }
     let c := cmdOf 0x12 [(16, 4, 1)]
     Starts (cmdState x c) 5 0x12 c ∧ x.namesRegion ⟨65536, 65536, none⟩ = false ∧ x.extent 65536 65536 = .unified ∧
     (pagesOf 65536 65536).filter (fun g => Tab.has x.migr g) = [1] ∧
     ((after (exec (.memFree 5) (cmdState x c))).dev.cmd 5).map (fun c => (c.phase, c.work)) = some (.running, [1])) := by decide +kernel

/-- MICROPROG_LOAD and RESTORE with a slot of 64. -/
theorem wit_micro_slots : ∀ m ∈ [0, 1], let c := cmdOf 0x21 [(28, 1, 64), (29, 1, m)]
    Starts (cmdState part0 c) 5 0x21 c ∧ firstFail (microChecks c) = some (stBounds, 28) := by decide +kernel

/-- A stop with delete in a stretch, of the run whose stage 0 is late. -/
theorem wit_stop_in_stretch :
    (let c := cmdOf 0x24 [(29, 1, 1)]
     let t := { Tick.reset with inStretch := true, late := [⟨0, 0, none⟩] }
     let s := upOf { dev0 with parts := [(0, { part0 with tick := t })], cores := [(0, coreOf [])], host := { HostSide.reset with live := [(5, c)] } }
     Starts s 5 0x24 c ∧ firstFail (rsvBytes c [(16, 12), (30, 34)]) = none ∧ (s.dev.core 0).phase ≠ .idle ∧
     ((after (exec (.pipelineStopDelete 5) s)).dev.core 0).phase = .stopping ∧
     ((Tab.find ((after (exec (.pipelineStopDelete 5) s)).dev.part 0).pipes 0).bind (·.run)).map (fun r => (r.stopAtBoundary, r.stoppers, r.removeAfter)) =
       some (true, [5], true)) := by decide +kernel

/-- DELETE and END_GRACE of a partition that may not, during a commit of firmware, and of one in use. -/
theorem wit_partition_set_ends :
    (∀ m ∈ [1, 2], let c := cmdOf 0x10 [(29, 1, m)]
     Starts (cmdState part0 c) 5 0x10 c ∧ firstFail (noObject c ++ setChecks c) = none ∧ (cmdState part0 c).plat.committing = none ∧
     (cmdState part0 c).dev.idle 0 5 = false ∧ (part0.layout.isNone || part0.fnList.contains adminFn) = true ∧ part0.state.isDeparted = false) ∧
    (let x := { part0 with layout := some { Layout.shipped with functions := [] }, state := .departed 7 }
     (x.layout.isNone || x.fnList.contains adminFn) = false ∧ x.state.isDeparted = true ∧ (cmdState x (cmdOf 0x10 [])).dev.idle 0 5 = false) := by
  decide +kernel

/-- Firmware: STAGE during a commit; recovery at the end of a verification. -/
theorem wit_recovery_ends :
    ({ Plat.reset with committing := some none } : Plat).committing.isSome = true ∧
    (let x := { Plat.reset with boot := .recovery, rom := { RomRec.reset with busy := 2 } }
     x.powered = true ∧ x.rom.busy = 2 ∧ x.committing = none ∧ x.boot = .recovery) ∧
    (let s : State := { upOf dev0 with plat := { Plat.reset with boot := .recovery, rom := { RomRec.reset with busy := 2 } } }
     (after (exec (.romRecActionDone false) s)).plat.rom.result = 0x10) := by decide +kernel

/-- KEY_IMPORT of an object of another length, and of one with a field that fails. -/
theorem wit_import_ends :
    (let c := cmdOf 0x82 [(24, 4, 1663)]
     Starts (cmdState part0 c) 5 0x82 c ∧ HostObject c 1663 ∧ c.field 24 4 ≠ 1664 ∧ fieldOf (objectOf [1] 1663) 1 1 ≠ 1) ∧
    firstFail (importChecks (objectOf [1, 2] 1664)) = some (stInvalid, 1) ∧ fieldOf (objectOf [1, 2] 1664) 1 1 ≠ 1 := by decide +kernel

/-- The link stream of port 0, and an ABORT of a command that a departure took from its partition. -/
theorem wit_link_stream :
    (let s := hostState { part0 with sessions := [⟨7, 0, true, [], false⟩] } Fn.reset
     let t := after (exec (.ideKm (.doe 0) 0 8) s)
     SpdmUp s (.doe (portOf 0)) ∧ (t.dev.port 0).linkIde = true ∧ t.dev.spdmReply = some .accepted) ∧
    (let t := handleOf 6 1 0
     let c := cmdOf 0x01 [(16, 8, t)]
     let s := upOf { dev0 with host := { HostSide.reset with live := [(5, c), (6, { cmdOf 0x22 [] with owned := false })] } }
     Starts s 5 0x01 c ∧ handleOf (t % 2 ^ 20) 1 0 = t ∧ ((s.dev.cmd (t % 2 ^ 20)).map (·.owned)) = some false) := by decide +kernel

/-- A re-arm in D3hot, a completion index beyond what has been written, a fetch that is stalled; HOST_PORT_CFG as it is. -/
theorem wit_ignored_writes :
    (let s := upOf { dev0 with host := { HostSide.reset with
       fns := [(0, { Fn.reset with present := true, attached := true, qps := [(0, { queue0 with state := 2 })] })], ports := [(0, { Port.reset with d3 := true })] } }
     QpUp s 0 0 ∧ (s.dev.port (portOf 0)).d3 = true ∧ ((s.dev.fn 0).qp 0).state = 2 ∧ bitOf 1 0 = true ∧ after (exec (.qpRearm 0 0 1) s) = s) ∧
    (let x := { queue0 with cqWrite := 3 }; x.open_ = true ∧ 4 % 2 ^ 16 < x.cqSize ∧ x.cqUsed < (4 % 2 ^ 16 + x.cqSize - x.cqHead) % x.cqSize) ∧
    ({ queue0 with stalled := true } : Qp).stalled = true ∧ bitOf 0 8 = false ∧ 0 % 4 = Plat.reset.portNext := by decide +kernel

/-- A stack that has tripped, and one at its first sample of 105 °C; a stack of no partition. -/
theorem wit_stack_samples :
    ((after (exec (.thermalSample 0 40) (upOf { dev0 with beryl := [(0, { Stack.reset with tripped := true })] }))).plat.latch = some .thermal) ∧
    (let d := dev0.stackSample 95 5 0 105; (d.stack 0).tripped = false ∧ (d.stack 0).hot = 1 ∧ (d.stack 0).step ≠ 0) ∧
    (let d := Dev.reset; d.stackOwner 0 = none ∧
      d.affords (d.setStack 0 { Stack.reset with scrubbed := 1 }) = true) := by decide +kernel

/-- A wait for pages of which none is on its way; a flush over a link that is down; a frame whose session is not there, one whose
engine has failed. -/
theorem wit_tier_and_frame_ends :
    (let r := (partState (noFrames part0)).dev.prefetchPages 0 3 (fun x => x.freeOn 3) [1]
     [1].filter (fun g => Tab.has (r.2.part 0).migr g) = []) ∧
    (let c := { cmdOf 0x51 [(32, 1, 1)] with phase := .running }
     let x := { part0 with resident := [(1, ⟨0, 9, [], 0⟩)] }
     let s := cmdState x c
     ({ s.dev with links := [(6, { Link.reset 6 with state := 2 })] } : Dev).ioState 0 = 2 ∧ x.flushPages c = [(1, 0)]) ∧
    (let c := cmdOf 0x61 [(24, 4, 256), (28, 4, 4)]
     let s := videoState { Engine.reset with failed := true, sessions := [(4, vsession [])] } c
     Starts s 5 0x61 c ∧ HostObject c 256 ∧ (s.dev.session 0 4).isSome = true ∧ (s.dev.engine (4 % 4)).failed = true ∧
     firstFail (rsvBytes c [(32, 32)]) = none ∧ (videoState Engine.reset c).dev.session 0 4 = none) := by decide +kernel

/-! ## The spec's worked examples -/

/-- "Core 3 of cluster CL5 on CD2 is core 2 × 64 + 5 × 8 + 3 = 171" (chapter 1). -/
theorem test_core_171 : dieOfCore 171 = 2 ∧ clusterOfCore 171 = 2 * 8 + 5 ∧ 171 % 8 = 3 := by decide

/-- Core 5 of nine failing: core_map 0x1DF, spare 15; all passing: 0x0FF and 8 (chapter 3). -/
theorem test_core_map : coreMapOf (0x1FF - 0x20) = some (0x1DF, 15) ∧ coreMapOf 0x1FF = some (0x0FF, 8) := by decide

/-- The encoded mm.tile word of chapter 4, byte for byte. -/
def exampleWord : Bytes := [0x01, 0x01, 0x10, 0x00, 0x08, 0x00, 0x05, 0x00, 0x24, 0x0A, 0, 0, 0, 0, 0, 0, 0, 0, 0, 0, 0, 0, 0x08, 0,
  0, 0, 0x10, 0, 0, 0, 0x20, 0, 0, 0, 0x48, 0x1A, 0, 0, 0, 0] ++ [0x30, 0, 0x01, 0x0D, 0x09, 0x11, 0x02, 0, 0, 0x24, 0, 0x14, 0, 0, 0, 0,
  0, 0, 0x80, 0x3F, 0, 0, 0x38, 0]

/-- Its fields: acc1, escalation to rung 2, K = 6,144, BF16 out at scale 1.0, B's residual plane; it issues. -/
theorem test_example_word :
    (let j := mmJob [] exampleWord
     j.accSel = 1 ∧ j.escMax = 2 ∧ j.kTotal = 6144 ∧ j.outFmt = 0x09 ∧ j.outScale = 0x3F800000 ∧ j.residLanding = true ∧ j.bounded = true ∧
     j.startRung = 0 ∧ j.flagCount = 0) ∧
    opTag exampleWord = 5 ∧ opDebugTag exampleWord = 0xA24 ∧ opSetPred exampleWord = 8 ∧ Issues (runs exampleWord) 0 1 1 exampleWord := by
  decide +kernel

/-- The sizes of its areas (chapter 5): 516,096, 492,032, 393,216 and 1,572,864 bytes. -/
theorem test_example_areas : operandBytes 0x01 48 false = 516096 ∧ operandBytes 0x0D 48 false = 492032 ∧ residBytes 48 = 393216 ∧
    wideBytes 48 = 1572864 := by decide

/-- The MXFP4 block of chapter 5: 7.1, 0.9, 2.7 and −5.0 (their BF16 codes) give scale 0x80, codes 6, 1, 3, 0xC, m 0x4400, r 0x3800. -/
theorem test_mxfp4_block :
    (let b := quantMx 0x01 ([0x40E3, 0x3F66, 0x402D, 0xC0A0].map fBF16.decode); (b.scale, b.codes, b.m, b.r)) = (0x80, [6, 1, 3, 0xC], 0x4400, 0x3800) := by
  decide +kernel

/-- Flag test of the example tile: thr = 2.40625 for C = 30.5 at τ = 2^-4 and α = 0.5; E exceeds it at rung 0 and not at rung 1. -/
theorem test_flag_threshold :
    (threshold 0x2C00 0x3800 0x41F40000) = d32 0x401A0000 ∧ exceeds (d32 0x40DE0A28) (d32 0x401A0000) (d32 0x41F40000) = true ∧
    (threshold 0x2C00 0x3800 0x41F20000) = d32 0x40190000 ∧ exceeds (d32 0x40119470) (d32 0x40190000) (d32 0x41F20000) = false := by decide +kernel

/-- The budget over one window: floor(4,096 × 50 ÷ 1,000) = 204 (chapter 5). -/
theorem test_budget : stageBudget ⟨[0], 0, false, false, 50, 4096, 0, none⟩ StageRun.zero = 204 := by decide

/-- The five orders on a grid of 3 rows and 4 columns: their first seven visits (chapter 7). -/
theorem test_visit_orders :
    (visit 0 3 4 []).take 7 = [(0, 0), (0, 1), (0, 2), (0, 3), (1, 0), (1, 1), (1, 2)] ∧
    (visit 1 3 4 []).take 7 = [(0, 0), (1, 0), (2, 0), (0, 1), (1, 1), (2, 1), (0, 2)] ∧
    (visit 2 3 4 []).take 7 = [(0, 0), (0, 1), (0, 2), (0, 3), (1, 3), (1, 2), (1, 1)] ∧
    (visit 3 3 4 []).take 7 = [(0, 0), (0, 1), (1, 0), (1, 1), (0, 2), (0, 3), (1, 2)] ∧
    (visit 4 3 4 []).take 7 = [(0, 0), (0, 1), (1, 1), (1, 0), (2, 0), (2, 1), (2, 2)] := by decide +kernel

/-- A halo entry whose stride leaves no room for the control line: BOUNDS at byte 12; 196,736 passes (chapter 7). -/
theorem test_halo_stride :
    (let e := fun s => blockOf 32 [(2, 2, 1), (4, 1, 1), (8, 4, 98304), (12, 4, s)]
     firstFail (haloChecks [[0], [1]] (e 196608)) = some (stBounds, 12) ∧ firstFail (haloChecks [[0], [1]] (e 196736)) = none) := by
  decide +kernel

/-- The cache of a model B session: 1,200,000 pages; token 120,000 of plane 30 lies in page 382,500, entry 1,572 of leaf 93 (chapter 10). -/
theorem test_session_geometry :
    (let q := { seq0 with planes := 96, maxTokens := 200000 }
     q.regionBytes = 78643200000 ∧ q.pageCount = 1200000 ∧ 25067520000 / 65536 = 382500 ∧ q.tokenAt 25067520000 = 120000 ∧
     382500 / 4096 = 93 ∧ 382500 % 4096 = 1572) := by decide +kernel

/-- The volatile address 0x3C00_0123_4A40: stack 9, L = 0x4012_3240, channel 66, bank 4, row 128 (chapter 11). -/
theorem test_volatile_address :
    (volBase + 0x1234A40 = 0x3C0001234A40) ∧ Layout.shipped.volPlace 0x1234A40 = (9, 0x40123240) ∧
    chanOf 0x40123240 = 66 ∧ bankOf 0x40123240 = 4 ∧ rowOf 0x40123240 = 128 := by decide +kernel

/-- Guard rows of a 4096 × 2048 WPP session: 32 rows of 64 blocks, m = 576 bits; a reference slot takes 26,214,400 bytes, and a mini-GOP
of 8 needs six (chapter 14). -/
theorem test_video_sizes :
    (let o := blockOf 64 [(0, 1, 5), (3, 1, 20), (4, 2, 4096), (6, 2, 2048), (12, 1, 2), (13, 1, 8)]
     guardRows o = 32 ∧ rowBlocks o = 64 ∧ minimalRow o false = 576 ∧ refSlotBytes o = 26214400 ∧ refSlotsMin o = 6) := by decide +kernel

/-- The shortest legal timeout_ms of a PIPELINE_RUN under the default tick is 7; a NOP's is 2 (chapter 18). -/
theorem test_shortest_timeouts :
    (let c := fun (op ms : Nat) => headerFail part0 (some 0) 0 (blockOf 64 [(0, 2, op), (4, 4, ms)])
     c 0x23 6 = some (stBounds, 4) ∧ c 0x23 7 = none ∧ c 0x00 1 = some (stBounds, 4) ∧ c 0x00 2 = none) := by decide +kernel

/-- A SEQ_APPEND under the longest tick, stretch and hold limit needs 204,802 ms; the default of 10,000 ms is rejected (chapter 18). -/
theorem test_longest_timeout :
    (let x := { part0 with tick := { Tick.reset with par := ⟨100000000, 100000000, 0, 1⟩ }, layout := some { Layout.shipped with holdLimit := 255 } }
     let c := fun (ms : Nat) => headerFail x (some 0) 0 (blockOf 64 [(0, 2, 0x41), (4, 4, ms)])
     c 204801 = some (stBounds, 4) ∧ c 204802 = none ∧ c 0 = some (stBounds, 4)) := by decide +kernel

/-- An image of 21,034,752 bytes takes 321 chunks (chapter 19). -/
theorem test_image_chunks : ceilDiv 21034752 65536 = 321 ∧ 21034752 - 320 * 65536 = 63232 := by decide

/-- The error bound of the example tile's worst element: E is about 6.93874 at rung 0 and 2.27468 at rung 1 (chapter 5). -/
theorem test_error_bound :
    (let e := boundE (d32 0x40DE0000) (d32 0x42580000) 385; (d32 0x40DE09D5).lt e = true ∧ e.lt (d32 0x40DE0AA6) = true) ∧
    (let e := boundE (d32 0x40118000) (d32 0x42580000) 385; (d32 0x40119432).lt e = true ∧ e.lt (d32 0x40119486) = true) := by decide +kernel

/-- The sums of a constant row of 6,144 elements of 4,097, Σx = 25,171,968 and Σx² = 103,129,546,752: variance +0 with the flag (chapter 6). -/
theorem test_constant_row :
    variance 0x4BC00C00 0x51C01800 6144 = (0, true) := by decide +kernel

/-- The guard at a scene cut: rows that fit beside the rest coded minimal and rows that do not; a third failure's minimal row
fits (chapter 14). -/
theorem test_guard_rows :
    (let m := minimalRow (blockOf 64 [(0, 1, 5), (3, 1, 20), (4, 2, 4096), (6, 2, 2048)]) false
     let fits := fun (c row bits : Nat) => decide (c + bits + m * (32 - row - 1) + 3480 ≤ 1400000)
     fits 1050000 21 120000 = true ∧ fits 1170000 22 150000 = true ∧ fits 1320000 23 110000 = false ∧ fits 1320000 23 58000 = true ∧
     fits 1378000 24 6000 = true ∧ fits 1393000 31 3700 = false ∧ fits 1393000 31 310 = true) := by decide +kernel

/-! ## Single steps -/

/-- A core after a word has run on it. -/
def ranOn (k : Core) (i : Instr) : Core := (after (exec i (on0 k))).dev.core 0

/-- Core 0 at one word, with a scratchpad. -/
def spCore (w : Bytes) (sp : Mem) : Core := { coreOf [w] with sp := sp }

theorem test_alu_wraps : (ranOn { coreOf [sample 12 2] with aregs := [(4, 0xFFFFFFFF)] } (.ctlAlu 0)).reg 3 = 0 := by decide +kernel

/-- A shift uses the low five bits of its count. -/
theorem test_shift_by_33 :
    (ranOn { coreOf [wordOf 12 2 [(16, 1, 3), (17, 1, 4), (18, 1, 0xFF), (19, 1, 5), (20, 4, 33)]] with aregs := [(4, 3)] } (.ctlAlu 0)).reg 3 = 6 := by
  decide +kernel

/-- −1 is below 0 signed and not unsigned. -/
theorem test_compares : cmpFn 4 0xFFFFFFFF 0 = true ∧ cmpFn 2 0xFFFFFFFF 0 = false := by decide

theorem test_branch_and_loop :
    (ranOn (coreOf [wordOf 12 5 [(16, 2, 0)], sample 12 9]) (.ctlBr 0)).pc = 0 ∧
    (let k := ranOn { coreOf [sample 12 6] with loops := [(0, 2)] } (.ctlLoop 0); k.pc = 0 ∧ k.reg 16 = 1) ∧
    (ranOn (coreOf [sample 12 6]) (.ctlLoop 0)).pc = 1 := by decide +kernel

theorem test_load_is_little_endian : (ranOn (spCore (sample 12 7) [(136, 1), (137, 2), (139, 4)]) (.ctlLdr 0)).reg 3 = 0x04000201 := by decide +kernel

theorem test_store_is_little_endian :
    (ranOn { coreOf [sample 12 8] with aregs := [(3, 0x04000201)] } (.ctlStr 0)).sp = [(136, 1), (137, 2), (139, 4)] := by decide +kernel

/-- vx.fill of 1.0 in FP32. -/
theorem test_fill : Mem.read (ranOn (coreOf [sample 3 4]) (.vxFill 0)).sp 128 16 = [0, 0, 0x80, 0x3F, 0, 0, 0x80, 0x3F, 0, 0, 0x80, 0x3F, 0, 0, 0x80, 0x3F] := by
  decide +kernel

/-- vx.ew add with imm 1.0 in every position: 1 + 1 = 2. -/
theorem test_add_one : Mem.nat (ranOn (spCore (sample 3 1) [(2, 0x80), (3, 0x3F)]) (.vxEw 0)).sp 128 4 = 0x40000000 := by decide +kernel

/-- rs.sum of 1, 2, 0, 0: Σx = 3, Σx² = 5, n = 4. -/
theorem test_row_sum :
    (let m := (ranOn (spCore (sample 5 1) [(2, 0x80), (3, 0x3F), (7, 0x40)]) (.rsSum 0)).sp
     Mem.nat m 128 4 = 0x40400000 ∧ Mem.nat m 132 4 = 0x40A00000 ∧ Mem.nat m 136 4 = 4) := by decide +kernel

/-- rs.max of 1, 2, 0, 0 is 2. -/
theorem test_row_max : Mem.nat (ranOn (spCore (sample 5 2) [(2, 0x80), (3, 0x3F), (7, 0x40)]) (.rsMax 0)).sp 128 4 = 0x40000000 := by decide +kernel

/-- qz.quant of 1.0 to FP8 E4M3 is 0x38. -/
theorem test_quant : Mem.byte (ranOn (spCore (sample 2 1) [(2, 0x80), (3, 0x3F)]) (.qzQuant 0)).sp 128 = 0x38 := by decide +kernel

/-- dma.copy lands its bytes in cluster memory, and the operation waits for its descriptor. -/
theorem test_copy :
    (let s := after (exec (.dmaCopy 0) (on0 (spCore (sample 6 1) [(5, 7)])))
     (s.dev.cluster 0).mem = [(69, 7)] ∧ (s.dev.core 0).newest.map (·.wait) = some (.descr 1)) := by decide +kernel

/-- cnt.claim returns the old value and adds one; its condition is that the old value was below the limit. -/
theorem test_claim :
    (let s := after (exec (.cntClaim 0) (upOf { dev0 with clusters := [(0, { Cluster.reset with work := [(5, 1)] })], cores := [(0, coreOf [sample 7 1])] }))
     (s.dev.cluster 0).work = [(5, 2)] ∧ Mem.nat (s.dev.core 0).sp 128 8 = 1 ∧ (s.dev.core 0).newest.map (·.cond) = some true) := by decide +kernel

/-- cnt.cas whose expected value differs writes nothing. -/
theorem test_cas_fails :
    (let s := after (exec (.cntCas 0) (upOf { dev0 with clusters := [(0, { Cluster.reset with work := [(5, 1)] })], cores := [(0, coreOf [sample 7 3])] }))
     (s.dev.cluster 0).work = [(5, 1)] ∧ (s.dev.core 0).newest.map (·.cond) = some false) := by decide +kernel

/-- hx.free writes its epoch into used word 0 (bytes 16 to 23 of the control line). -/
theorem test_free : ((after (exec (.hxFree 0) (runs (sample 8 3)))).dev.cluster 0).mem = [(4112, 2)] := by decide +kernel

/-- col.send lands at its offset and counts in its channel. -/
theorem test_send :
    (let x := (after (exec (.colSend 0) (on0 (spCore (sample 10 1) [(5, 7)])))).dev.cluster 0; x.mem = [(261, 7)] ∧ x.chan = [(7, 128)]) := by decide +kernel

theorem test_done_stamp :
    (let s := runs (sample 11 1); (after (exec (.syncDone 0) { s with dev := { s.dev with now := 9 } })).dev.core 0 |>.done) = some 9 := by decide +kernel

/-- A word that is not the command's leaves the machine as it is. -/
theorem test_other_word : after (exec (.vxFill 0) (runs (sample 12 9))) = runs (sample 12 9) := by decide +kernel

theorem test_no_such_core : exec (.mmTile 256) (upOf dev0) = .fault .noSuchUnit := by rfl

/-- The first completion of a queue: the DONE entry has type 2, phase 1 and status OK. -/
theorem test_nop_done :
    (let s := qpState queue0
     let t := after (exec (.nop 5) { s with dev := { s.dev with host := { s.dev.host with live := [(5, cmdOf 0 [])] } } })
     Mem.read t.dev.host.mem 0 2 = [0x82, 0] ∧ t.dev.cmd 5 = none ∧ t.dev.host.gen 5 = 2) := by decide +kernel

/-- A fetch writes an ACK with the phase bit and moves the head. -/
theorem test_fetch_ack :
    (let t := after (exec (.commandFetch 0 0 (List.replicate 64 0)) (qpState queue0))
     Mem.byte t.dev.host.mem 0 = 0x81 ∧ ((t.dev.fn 0).qp 0).sqHead = 1 ∧ (t.dev.cmd 0).isSome = true) := by decide +kernel

/-- MEM_ALLOC keeps the extent under the next region number. -/
theorem test_alloc :
    ((after (exec (.memAlloc 5) (cmdState part0 (cmdOf 0x11 [(16, 8, 65536), (24, 8, 65536)])))).dev.part 0).regions = [(1, ⟨65536, 65536, none⟩)] := by
  decide +kernel

/-- A stack write and the read that follows it. -/
theorem test_stack_read_after_write :
    (let s := after (exec (.baseDieRequest 0 ⟨64, 32, some (List.replicate 32 7), 0, .clean⟩) (upOf dev0))
     ((after (exec (.baseDieRequest 0 ⟨64, 32, none, 0, .clean⟩) s)).dev.stack 0).reply = some (List.replicate 32 7, false)) := by decide +kernel

/-- The second sample of 105 °C in a row trips; a first one does not. -/
theorem test_thermal_trip :
    (let s := after (exec (.dieTemperatureSample 0 105) (upOf dev0))
     s.plat.latch = none ∧ s.plat.alert = true ∧ (after (exec (.dieTemperatureSample 0 105) s)).plat.latch = some .thermal) := by decide +kernel

/-- Below 37 V the module goes off; at 39 V it boots again. -/
theorem test_power_cycle :
    (let s := after (exec (.undervoltage 36999) (upOf dev0))
     s.plat.boot = .off ∧ s.plat.pwrgd = false ∧ (after (exec (.inputPowerOn 39000) s)).plat.boot = .stage 0) := by decide +kernel

theorem test_therm_cfg_refuses_84 :
    (after (exec (.pldmThermCfgWrite (84 * 256 + 5 * 65536)) (upOf dev0))).plat.throttleC = 95 ∧
    (after (exec (.pldmThermCfgWrite (85 * 256 + 10 * 65536)) (upOf dev0))).plat.throttleC = 85 := by decide +kernel

/-- A CRC failure on a link counts a replay in its direction. -/
theorem test_replay : ((after (exec (.flitCrcFailure 0 1) (upOf dev0))).dev.link 0).replays = [(1, 1)] := by decide +kernel

/-- A queue of 16 entries is enabled; one of 8 sets cfg_error. -/
theorem test_qp_enable :
    (((after (exec (.qpEnable 0 0 (2 ^ 31 + 4 * 64 + 4 * 2)) (qpState Qp.reset))).dev.fn 0).qp 0).state = 1 ∧
    (((after (exec (.qpEnable 0 0 (2 ^ 31 + 3 * 64 + 4 * 2)) (qpState Qp.reset))).dev.fn 0).qp 0).cfgError = true := by decide +kernel

/-- The boundary of a partition without late stages falls at t_0 + P_0 = 1,000,000. -/
theorem test_boundary :
    (let s := after (exec (.tickBoundary 0) (tickState Tick.reset (Run.fresh 0 4 1) false)); (s.dev.part 0).tick.index = 1 ∧ (s.dev.part 0).tick.start = 1000000) := by
  decide +kernel

/-- A step takes the front command; an idle step of a module that does not serve work yet lets one tc pass. -/
theorem test_steps :
    (after (step { upOf dev0 with pending := [.flitCrcFailure 0 1, .pldmAlertClear] })).pending = [.pldmAlertClear] ∧
    (after (step State.reset)).dev.now = 1 := by decide +kernel

theorem test_reset_inv : State.reset.Inv := by decide

end Sys2Proof.Tests
end

namespace Sys2Proof.Machine

/-! ## Checks written in ascending offset -/

/-- A best failure stays the best against checks at its own offset or above. -/
theorem foldl_sooner_of_le {l : List (Nat × Nat × Bool)} {b : Nat × Nat} (h : ∀ c ∈ l, b.2 ≤ c.1) :
    l.foldl sooner (some b) = some b := by
  induction l with
  | nil => rfl
  | cons c l ih =>
    have hc : ¬ c.1 < b.2 := Nat.not_lt.mpr (h c List.mem_cons_self)
    simp only [List.foldl_cons, sooner, if_neg hc]
    exact ih (fun e he => h e (List.mem_cons_of_mem _ he))

/-- The first check in the list's order that fails, as `firstFail` reports it: its status and its offset. -/
def firstListed (l : List (Nat × Nat × Bool)) : Option (Nat × Nat) := (l.find? (fun c => c.2.2)).map (fun c => (c.2.1, c.1))

@[simp] theorem firstListed_cons (c : Nat × Nat × Bool) (l : List (Nat × Nat × Bool)) :
    firstListed (c :: l) = if c.2.2 then some (c.2.1, c.1) else firstListed l := by
  cases e : c.2.2 <;> simp [firstListed, e]

/-- Among checks written in ascending offset the first that fails in the list's order is the one reported. -/
theorem firstFail_eq_firstListed {l : List (Nat × Nat × Bool)} (h : l.Pairwise (fun a b => a.1 ≤ b.1)) :
    firstFail l = firstListed l := by
  rw [firstFail_eq]
  induction l with
  | nil => rfl
  | cons c l ih =>
    obtain ⟨hc, hl⟩ := List.pairwise_cons.mp h
    cases e : c.2.2 with
    | false => simpa [e] using ih hl
    | true =>
      have keep := foldl_sooner_of_le (l := l.filter (fun c => c.2.2)) (b := (c.2.1, c.1))
        (fun a ha => hc a (List.mem_filter.mp ha).1)
      simpa [e, sooner] using keep

theorem le_offset_of_mem_rsvBytes {c : Cmd} {a n : Nat} {e : Nat × Nat × Bool} (h : e ∈ rsvBytes c [(a, n)]) : a ≤ e.1 := by
  simp only [rsvBytes, List.flatMap_cons, List.flatMap_nil, List.append_nil, List.mem_map] at h
  obtain ⟨i, -, rfl⟩ := h
  exact Nat.le_add_right a i

theorem rsvBytes_ascending (c : Cmd) (a n : Nat) : (rsvBytes c [(a, n)]).Pairwise (fun x y => x.1 ≤ y.1) := by
  simp only [rsvBytes, List.flatMap_cons, List.flatMap_nil, List.append_nil, List.pairwise_map]
  exact List.pairwise_lt_range.imp (fun h => by omega)

/-! ## The tick parameters (R25, R43) -/

theorem tickChecks_ascending (x : Part) (c : Cmd) : (tickChecks x c).Pairwise (fun a b => a.1 ≤ b.1) := by
  refine List.pairwise_append.mpr ⟨by simp, rsvBytes_ascending c 26 38, fun a ha b hb => ?_⟩
  have hb := le_offset_of_mem_rsvBytes hb
  have ha : a.1 ≤ 25 := by
    simp only [List.mem_cons, List.not_mem_nil, or_false] at ha
    rcases ha with rfl | rfl | rfl | rfl | rfl | rfl | rfl <;> simp
  omega

/-- TICK_SET reports the first of its checks that fails. -/
theorem firstFail_tickChecks (x : Part) (c : Cmd) : firstFail (tickChecks x c) = firstListed (tickChecks x c) :=
  firstFail_eq_firstListed (tickChecks_ascending x c)

/-- A partition starts with the tick parameters of reset. -/
theorem configure_tick_par (d : Dev) (ep p : Nat) (y : Layout) :
    ((d.configure ep p y).part p).tick.par = Tick.reset.par := by
  simp [Dev.configure]

/-- The checks of TICK_SET at offset 16 pass for a period in range, a multiple of 10, whose allowance is enough: the
first failure is that of the fields from offset 20 on. -/
theorem firstFail_tickChecks_of_period {x : Part} {c : Cmd} (lo : 10000 ≤ (tickParOf c).period)
    (hi : (tickParOf c).period ≤ 100000000) (ten : (tickParOf c).period % 10 = 0)
    (enough : ∀ y ∈ x.runningPipes, x.recoveryBound y ≤ (tickParOf c).allowance) :
    firstFail (tickChecks x c) = firstListed ((tickChecks x c).drop 3) := by
  have short : ¬ ∃ y ∈ x.runningPipes, (tickParOf c).allowance < x.recoveryBound y :=
    fun ⟨y, hy, lt⟩ => Nat.not_lt.mpr (enough y hy) lt
  rw [firstFail_tickChecks]
  simp [tickChecks, Nat.not_lt.mpr lo, Nat.not_lt.mpr hi, ten, short]

/-- Settles O42: each range of R25's table by the first check that fails, and the defaults by `configure_tick_par`. -/
theorem tickParametersAreBounded : Obligations.TickParametersAreBounded := by
  refine ⟨fun x c period stretch (hp : period = (tickParOf c).period) (hs : stretch = (tickParOf c).stretch) => ?_,
    fun d ep p y => ?_⟩
  · subst hp hs
    refine ⟨fun out => ?_, fun lo hi => ⟨fun ten => ?_, fun ten enough => ?_⟩⟩
    · rw [firstFail_tickChecks]
      simp [tickChecks, out]
    · rw [firstFail_tickChecks]
      simp [tickChecks, Nat.not_lt.mpr lo, Nat.not_lt.mpr hi, ten]
    · rw [firstFail_tickChecks_of_period lo hi ten enough]
      refine ⟨fun long => ?_, fun le odd => ?_, fun le tens (pol : 2 < (tickParOf c).policy) => ?_,
        fun le tens (pol : (tickParOf c).policy ≤ 2) (notSkip : (tickParOf c).fallback ≠ 1)
          (notFault : (tickParOf c).fallback ≠ 2) => ?_,
        fun le tens (pol : (tickParOf c).policy ≤ 2) (legal : (tickParOf c).fallback = 1 ∨ (tickParOf c).fallback = 2) rsv => ?_⟩
      · simp [tickChecks, long]
      · simp [tickChecks, Nat.not_lt.mpr le, odd]
      · simp [tickChecks, Nat.not_lt.mpr le, tens, pol]
      · simp [tickChecks, Nat.not_lt.mpr le, tens, Nat.not_lt.mpr pol, notSkip, notFault]
      · rw [firstFail_eq_firstListed (rsvBytes_ascending c 26 38)] at rsv
        rcases legal with skip | fault
        · simp [tickChecks, Nat.not_lt.mpr le, tens, Nat.not_lt.mpr pol, skip, rsv]
        · simp [tickChecks, Nat.not_lt.mpr le, tens, Nat.not_lt.mpr pol, fault, rsv]
  · rw [configure_tick_par]
    exact ⟨rfl, rfl, rfl, rfl⟩

end Sys2Proof.Machine

namespace Sys2Proof.Machine

/-! ## When a word issues (R58, R59, R63, R83) -/

/-- A word is predicated off exactly when the core runs, the word is of the class and op, and its guard is known and
false: the window, the fence and the hazards are not asked (R63). -/
theorem issuing_off_iff (d : Dev) (c cls op : Nat) :
    d.issuing c cls op = .off ↔
      (d.core c).phase = .running ∧ (d.core c).pc < (d.core c).words ∧
      opClass ((d.core c).wordAt (d.core c).pc) = cls ∧ opCode ((d.core c).wordAt (d.core c).pc) = op ∧
      guardPending (d.core c) ((d.core c).wordAt (d.core c).pc) = false ∧
      (d.core c).guardOn ((d.core c).wordAt (d.core c).pc) = false := by
  cases check : checkWord (d.checkEnv c) ((d.core c).wordAt (d.core c).pc) <;>
    simp [Dev.issuing, check, ite_eq_iff, and_assoc]

/-- A word issues exactly when it is the one at the program counter and passes every test of the sequencer. -/
theorem issuing_go_iff (d : Dev) (c cls op : Nat) (w : Bytes) :
    d.issuing c cls op = .go w ↔
      (d.core c).phase = .running ∧ (d.core c).pc < (d.core c).words ∧ w = (d.core c).wordAt (d.core c).pc ∧
      opClass w = cls ∧ opCode w = op ∧ guardPending (d.core c) w = false ∧ (d.core c).guardOn w = true ∧
      (cls = 12 ∨ (d.core c).window.length < 32) ∧ (opFence w = true → (d.core c).window = []) ∧
      (∀ e ∈ (d.core c).window, hazard (footOf (d.core c).aregs w) e.foot = false ∧ e.wait.isSync = false) ∧
      (d.core c).faulted = false ∧ (∀ x ∈ (d.core c).bad, inSpans (footOf (d.core c).aregs w).rd x = false) ∧
      checkWord (d.checkEnv c) w = none := by
  by_cases word : w = (d.core c).wordAt (d.core c).pc
  · subst word
    cases check : checkWord (d.checkEnv c) ((d.core c).wordAt (d.core c).pc) <;>
      simp [Dev.issuing, check, ite_eq_iff, and_assoc, forall_and, or_iff_not_imp_left]
  · cases check : checkWord (d.checkEnv c) ((d.core c).wordAt (d.core c).pc) <;>
      simp [Dev.issuing, check, ite_eq_iff, word, Ne.symm word]

/-- Past the last word of its program nothing issues: a core of which a word issues, is taken off or fails a check has
its program counter below the last word. -/
theorem pc_lt_words_of_issuing {d : Dev} {c cls op : Nat} {i : Issuing} (h : d.issuing c cls op = i)
    (acts : i ≠ .no) : (d.core c).pc < (d.core c).words := by
  by_contra past
  exact acts (h.symm.trans (by simp [Dev.issuing, Nat.le_of_not_lt past]))

/-- Below the last word SYNC_TICK issues as every other operation does. -/
theorem execSyncTick_of_lt {c : Nat} {s : State} (h : (s.dev.core c).pc < (s.dev.core c).words) :
    execSyncTick c s = issueOn c 11 2 s (fun _ d =>
      if (d.core c).window.isEmpty then d.modCore c (fun k => k.toTick (d.coreTc c) (k.pc + 1)) else d) := by
  simp [execSyncTick, issueOn, onCore, whenUp, State.onDev, Nat.not_le.mpr h]

/-- Every operation command issues the word at the program counter as an operation of its class and op; SYNC_TICK
(the one goal that is not by unfolding) does so below the last word alone. -/
theorem operations_issue (c : Nat) : ∀ e ∈ operationsOf c, ∃ act, ∀ s : State,
    (s.dev.core c).pc < (s.dev.core c).words → exec e.1 s = issueOn c e.2.1 e.2.2 s act := by
  simp only [operationsOf, List.append_eq, List.cons_append, List.nil_append, List.forall_mem_cons, List.not_mem_nil,
    IsEmpty.forall_iff, implies_true, and_true]
  and_intros
  on_goal 39 => exact ⟨_, fun _ below => execSyncTick_of_lt below⟩
  all_goals exact ⟨_, fun _ _ => rfl⟩

/-- Settles O12: the two forms of `Dev.issuing`, and the outcomes of `issueOn`, of which every operation is an instance. -/
theorem wordsIssueOrAreTakenOff : Obligations.WordsIssueOrAreTakenOff := by
  refine ⟨fun d c cls op w => ⟨issuing_go_iff d c cls op w, issuing_off_iff d c cls op⟩, fun i s c cls op mem up => ?_⟩
  obtain ⟨act, issues⟩ := operations_issue c (i, cls, op) mem
  refine ⟨fun off => ?_, fun w st bad => ?_, fun no below => ?_⟩
  · rw [issues s (pc_lt_words_of_issuing off nofun), issueOn_off up off]
    rfl
  · rw [issues s (pc_lt_words_of_issuing bad nofun), issueOn_bad up bad]
    rfl
  · rw [issues s below, issueOn_no up no]

/-! ## sync. operations (R33, R54, R60, R62) -/

/-- A core of which `coreRun` tells the pipeline runs it. -/
theorem run_of_coreRun {d : Dev} {c p slot st : Nat} {x : Pipe} {y : Stage}
    (h : d.coreRun c = some (p, slot, st, x, y)) : (d.core c).run = some (p, slot, st) := by
  cases run : (d.core c).run with
  | none => simp [Dev.coreRun, run] at h
  | some r =>
    obtain ⟨p', slot', st'⟩ := r
    simp only [Dev.coreRun, run] at h
    split at h
    · cases h
    · split at h <;> cases h
      rfl

/-- The done stamp is the first one taken, and only a stamp that is new is to be reported. -/
theorem takeDone_eq (k : Core) (t : Nat) :
    k.takeDone t = { k with done := some (k.done.getD t), reported := k.done.isSome && k.reported } := by
  unfold Core.takeDone
  split <;> rename_i stamp <;> simp [stamp]
  rw [← stamp]

/-- A word that issues while its effect is none leaves the machine as it is. -/
theorem issueOn_idle {s : State} {c cls op : Nat} {act : Bytes → Dev → Dev} {w : Bytes} (h : Issues s c cls op w)
    (idle : act w s.dev = s.dev) : issueOn c cls op s act = .next s := by
  rw [issueOn_go h, State.onDev, idle]

/-- SYNC_DONE with an empty window takes the stamp and, with the first report in drain mode, the layer end. -/
theorem execSyncDone_empty {s : State} {c p slot st : Nat} {x : Pipe} {y : Stage} {w : Bytes} {k : Core}
    (hk : k = s.dev.core c) (run : s.dev.coreRun c = some (p, slot, st, x, y)) (h : Issues s c 11 1 w)
    (empty : k.window = []) :
    execSyncDone c s = .next (s.withCore c { k with
      done := some (k.done.getD (s.dev.coreTc c))
      reported := k.done.isSome && k.reported
      layerEnd := k.layerEnd || (k.done.isNone && x.drain && bitOf (fieldOf w 16 1) 0)
      pc := k.pc + 1 }) := by
  subst hk
  simp [execSyncDone, issueOn_go h, State.withCore, State.onDev, empty, run, Dev.modCore, takeDone_eq, Core.retire]

/-- Operations of the window hold sync.done back. -/
theorem execSyncDone_busy {s : State} {c : Nat} {w : Bytes} (h : Issues s c 11 1 w) (busy : (s.dev.core c).window ≠ []) :
    execSyncDone c s = .next s :=
  issueOn_idle h (by simp [busy])

/-- A core that waits for the release has its stamp; nothing else of it but the program counter is new. -/
theorem toTick_eq (k : Core) (t pc : Nat) : k.toTick t pc = { k with
    done := some (k.done.getD t), reported := k.done.isSome && k.reported, phase := .atTick, pc := pc } := by
  rw [Core.toTick, takeDone_eq]

/-- A sync.tick that issues waits for an empty window, then for the release. -/
theorem execSyncTick_issues {s : State} {c : Nat} {w : Bytes} (h : Issues s c 11 2 w) :
    execSyncTick c s = .next (s.onDev fun d =>
      if (d.core c).window.isEmpty then d.modCore c (fun k => k.toTick (d.coreTc c) (k.pc + 1)) else d) := by
  rw [execSyncTick_of_lt (pc_lt_words_of_issuing h.2.2 nofun), issueOn_go h]

/-- Past its last word a core acts as on sync.tick, and goes on at window_entry (R54). -/
theorem execSyncTick_past {s : State} {c : Nat} (up : CoreUp s c) (running : (s.dev.core c).phase = .running)
    (past : (s.dev.core c).words ≤ (s.dev.core c).pc) : execSyncTick c s = .next (s.onDev fun d =>
      if (d.core c).window.isEmpty then d.modCore c (fun k => k.toTick (d.coreTc c) k.windowEntry) else d) := by
  rw [execSyncTick, onCore_up up]
  simp [State.onDev, running, past]

/-- On the machine, both forms of SYNC_TICK do nothing until the core's window is empty. -/
theorem onDev_toTick (s : State) (c : Nat) (next : Core → Nat) :
    (s.onDev fun d => if (d.core c).window.isEmpty then d.modCore c (fun k => k.toTick (d.coreTc c) (next k)) else d) =
      if (s.dev.core c).window = [] then s.withCore c { s.dev.core c with
        done := some ((s.dev.core c).done.getD (s.dev.coreTc c))
        reported := (s.dev.core c).done.isSome && (s.dev.core c).reported
        phase := .atTick
        pc := next (s.dev.core c) } else s := by
  by_cases empty : (s.dev.core c).window = [] <;>
    simp [State.withCore, State.onDev, empty, Dev.modCore, toTick_eq]

/-- A sync.wait that names nothing to wait for is ready at issue. -/
theorem execSyncWait_none {s : State} {c : Nat} {w : Bytes} (h : Issues s c 11 3 w)
    (nothing : (s.dev.core c).waitOf w = none) :
    execSyncWait c s = .next (s.withCore c ((s.dev.core c).entered w stOK false .ready s.dev.now)) := by
  rw [execSyncWait, issueOn_go h]
  simp only [State.withCore, State.onDev, nothing, pushOp_eq]

/-- A sync.wait over a way that gives no result any more ends with DEVICE_FAULT; another is ready when its test is met,
and waits in the window else. -/
theorem execSyncWait_some {s : State} {c m i v : Nat} {w : Bytes} (h : Issues s c 11 3 w)
    (names : (s.dev.core c).waitOf w = some (m, i, v)) :
    execSyncWait c s = .next (s.withCore c (
      if s.dev.waitWay c m i = 2 then (s.dev.core c).entered w stDeviceFault false .ready s.dev.now
      else (s.dev.core c).entered w stOK false
        (if s.dev.waitWay c m i = 0 ∧ s.dev.waitMet c m i v then .ready else .sync m i v) s.dev.now)) := by
  rw [execSyncWait, issueOn_go h]
  simp only [State.withCore, State.onDev, names, pushOp_eq]
  split
  · rfl
  · split <;> rfl

/-- SYNC_TIME writes the stamp of the replica and the index of the window. -/
theorem execSyncTime_issues {s : State} {c p slot st : Nat} {w : Bytes} (h : Issues s c 11 4 w)
    (run : (s.dev.core c).run = some (p, slot, st)) :
    execSyncTime c s = .next (s.withCore c ((s.dev.core c).ran w false
      (Mem.write (s.dev.core c).sp ((s.dev.core c).ref w 16)
        (natLE 8 (s.dev.coreTc c) ++ natLE 8 (s.dev.part p).tick.index), false) s.dev.now)) := by
  rw [execSyncTime, issueOn_go h]
  simp [State.withCore, State.onDev, run, pushOp_eq, Core.ran]

/-- Settles O30: the outcome of each sync. operation that issues, and of a core past its last word. -/
theorem synchronisationOperationsRun : Obligations.SynchronisationOperationsRun := by
  refine ⟨fun s c w k p slot st x y hk run => ?_, fun s c p slot st k up hk running past _ => ?_⟩ <;> subst hk
  · refine ⟨execSyncDone_empty rfl run, execSyncDone_busy, fun tick empty => ?_, fun tick busy => ?_, execSyncWait_none,
      fun wait m i v names => ⟨fun gone => ?_, fun way => ?_⟩, fun time => execSyncTime_issues time (run_of_coreRun run)⟩
    · exact (execSyncTick_issues tick).trans (by rw [onDev_toTick, if_pos empty])
    · exact (execSyncTick_issues tick).trans (by rw [onDev_toTick, if_neg busy])
    · exact (execSyncWait_some wait names).trans (by rw [if_pos gone])
    · exact (execSyncWait_some wait names).trans (by rw [if_neg way])
  · refine ⟨fun empty => ?_, fun busy => ?_⟩
    · exact (execSyncTick_past up running past).trans (by rw [onDev_toTick, if_pos empty])
    · exact (execSyncTick_past up running past).trans (by rw [onDev_toTick, if_neg busy])

end Sys2Proof.Machine

namespace Sys2Proof.Machine

/-! ## Every command is a row on a unit (R9 to R11) -/

/-- Every command answers as a row on a unit does, and a well-formed one names a unit that exists: the number it names
is the whole test, the first part of it, or no test at all. -/
theorem exec_onUnit (i : Instr) (s : State) : ∃ ok t, exec i s = onUnit ok t ∧ (i.wf = true → ok = true) := by
  cases i
  case mmTile | mmConv | mmDrain | qzQuant | qzDequant | vxEw | vxRow | vxCol | vxFill | sfFn | sfProg | rsSum | rsMax |
      rsSmax | rsGap | dmaCopy | dmaSeq | dmaPrefetch | dmaRing | hxPut | hxGet | hxFree | pgAppend | pgPublish |
      pgPrefetch | pgInfo | colSend | colRecv | colReduce | colBarrier | syncDone | syncWait | syncTime | ctlLi | ctlAlu |
      ctlCmp | ctlPset | ctlBr | ctlLoop | ctlLdr | ctlStr | ctlNop | residualFetchLanded | ringBurstFetch |
      descriptorComplete | haloWaitSatisfied | colRecvSatisfied | usneaGroupComplete | syncTick | syncWaitSatisfied |
      operationComplete | doneReport | cntClaim | cntAdd | cntCas | cntRead | cntSteal | cntCommit | cntCredit |
      walkerDescriptorEmit | clusterControlCoreFailure | tickBoundary | stretchLimit | boundaryDecision | holdExpiry |
      editBatchExpiry | resumeExpiry | runWindowCountReached | pipelineStopDrained | ledgerStagingPlace | parkComplete |
      resumeComplete | migrationLanded | folnasRetryBound | reserveFrameReturn | backgroundWriteBack |
      evictionWriteBackDone | sweepComplete | graceExpiry | scrubComplete | demotionComplete | managementEndGrace |
      throttleRelease | thermalSample | dramRefresh | garbageCollection | readDisturbRefresh | folnasPatrol |
      badBlockRetire | flitCrcFailure | replayRunExhausted | retrainComplete | usneaHubFailure | usneaMessageCrcFailure |
      peridotWatchdog | peridotSramError | videoFrameStart | guardRowCounted | videoFrameComplete | agateEngineFailure |
      tickRegisterLowRead | functionLevelReset | romRecWrite | romRecFinish | romRecAbort | hostLinkUp | hostLinkDown |
      perstAssert | perstRelease | hotReset | vfDisable | d3hotEntry | d0Return | vfEnable | getVersion |
      getCapabilities | negotiateAlgorithms | getDigests | getCertificate | getMeasurements | keyExchange | finish |
      pskExchange | pskFinish | ideStreamLeavesSecure | dieTemperatureSample | backgroundAtomScrub | bar2Resize =>
    exact ⟨_, _, rfl, id⟩
  case baseDieRequest | tagConversionDone | qpDrainComplete | requesterCompletionTimeout |
      msixMessageSend | hostBar2WindowWrite | hostPortCfgWrite | berylThermCfgWrite | bar2Request |
      registerWrite | ideKm =>
    exact ⟨_, _, rfl, fun wf => (Bool.and_eq_true_iff.mp wf).1⟩
  case commandFetch | qpSqDoorbell | qpCqDoorbell | qpEnable | qpDisable | qpRearm =>
    exact ⟨_, _, rfl, fun wf => (Bool.and_eq_true_iff.mp (Bool.and_eq_true_iff.mp wf).1).1⟩
  case wearLevelling cold worn =>
    by_cases w : worn < rawBlocks
    · exact ⟨_, _, if_pos w, fun wf => (Bool.and_eq_true_iff.mp wf).1⟩
    · exact ⟨false, s, if_neg w, fun wf => absurd (of_decide_eq_true (Bool.and_eq_true_iff.mp wf).2) w⟩
  all_goals exact ⟨true, _, rfl, fun _ => rfl⟩

/-- Settles O3: a row on a unit that exists answers its state. -/
theorem wellFormedCommandsAnswer : Obligations.WellFormedCommandsAnswer := by
  intro i s wf
  obtain ⟨ok, t, row, exists_⟩ := exec_onUnit i s
  exact ⟨t, by rw [row, exists_ wf, onUnit_true]⟩

end Sys2Proof.Machine

namespace Sys2Proof.Machine

/-! ## What no command does to the platform (R404 to R406, R411, R417, R419) -/

/-- The invariant of the platform, of the platform alone. -/
def Plat.Sound (x : Plat) : Prop :=
  (85 ≤ x.throttleC ∧ x.throttleC ≤ 100 ∧ 2 ≤ x.hysteresisC ∧ x.hysteresisC ≤ 10) ∧
  (x.portNext < 4 ∧ x.portNow < 4) ∧ x.rom.chunk < 512 ∧
  (x.boot == .off) = !x.powered ∧ x.pwrgd = (x.boot != .off && x.boot != .held) ∧ x.boot.inOrder = true

theorem inv_iff_sound (s : State) : s.Inv ↔ s.plat.Sound := Iff.rfl

/-- What a command other than LATCH_CLEAR may make of the platform: the invariant stays, a latch stays, and neither the
security version nor the fuse epoch falls. -/
structure Plat.Goes (x y : Plat) : Prop where
  sound : x.Sound → y.Sound
  latch : x.latch.isSome = true → y.latch = x.latch
  secVersion : x.secVersion ≤ y.secVersion
  fuseEpoch : x.fuseEpoch ≤ y.fuseEpoch

namespace Plat.Goes

theorem refl (x : Plat) : x.Goes x := ⟨id, fun _ => rfl, Nat.le_refl _, Nat.le_refl _⟩

theorem of_eq {x y : Plat} (h : y = x) : x.Goes y := h ▸ refl x

theorem trans {x y z : Plat} (h : x.Goes y) (g : y.Goes z) : x.Goes z where
  sound i := g.sound (h.sound i)
  latch l := by rw [g.latch (by rw [h.latch l]; exact l), h.latch l]
  secVersion := Nat.le_trans h.secVersion g.secVersion
  fuseEpoch := Nat.le_trans h.fuseEpoch g.fuseEpoch

/-- A change of settings, firmware or reports alone: latch, power and boot are untouched. -/
theorem of_sound {x y : Plat} (h : x.Sound → y.Sound) (l : y.latch = x.latch) (v : x.secVersion ≤ y.secVersion)
    (e : y.fuseEpoch = x.fuseEpoch) : x.Goes y := ⟨h, fun _ => l, v, Nat.le_of_eq e.symm⟩

/-- A choice between two states. -/
theorem ite {x : Plat} {u v : State} {c : Prop} [Decidable c] (g : c → x.Goes u.plat) (k : ¬ c → x.Goes v.plat) :
    x.Goes (if c then u else v).plat := by
  split
  · exact g ‹_›
  · exact k ‹_›

end Plat.Goes

/-- Power at the input and no latch. -/
theorem powered_iff (x : Plat) : x.powered = true ↔ x.input = true ∧ x.latch = none := by simp [Plat.powered]

theorem powered_of_up {x : Plat} (h : x.up = true) : x.powered = true := by
  simp only [Plat.up, Bool.and_eq_true] at h
  simp [Plat.powered, h.1.1.1, h.1.1.2]

theorem powered_of_answers {x : Plat} (h : x.answers = true) : x.powered = true := (Bool.and_eq_true_iff.mp h).1

end Sys2Proof.Machine

namespace Sys2Proof.Machine

/-! ### Power, boot and resets -/

/-- A module with power that is held in reset. -/
theorem goes_goDown_held {s : State} {clean : Bool} (p : s.plat.powered = true) : s.plat.Goes (s.goDown clean .held).plat where
  sound := fun ⟨therm, ports, _, _, _, _⟩ =>
    ⟨therm, ports, Nat.zero_lt_succ _, (congrArg (!·) p).symm, rfl, rfl⟩
  latch _ := rfl
  secVersion := Nat.le_refl _
  fuseEpoch := Nat.le_refl _

/-- A protection that latches takes a module with power off; no latch was there before. -/
theorem goes_latchDown {s : State} {why : Latch} (p : s.plat.powered = true) : s.plat.Goes (s.latchDown why).plat where
  sound := fun ⟨therm, ports, _, _, _, _⟩ =>
    ⟨therm, ports, Nat.zero_lt_succ _, by simp [State.latchDown, State.goDown, Plat.powered], rfl, rfl⟩
  latch l := by simp [((powered_iff _).mp p).2] at l
  secVersion := Nat.le_refl _
  fuseEpoch := Nat.le_refl _

/-- The start of a boot of a module with power; a recorded unlock token raises the fuse epoch (R387). -/
theorem goes_startBoot {s : State} (p : s.plat.powered = true) : s.plat.Goes s.startBoot.plat where
  sound := fun ⟨therm, ports, chunk, _, _, _⟩ =>
    ⟨therm, ⟨ports.1, ports.1⟩, chunk, (congrArg (!·) p).symm, rfl, rfl⟩
  latch _ := rfl
  secVersion := Nat.le_refl _
  fuseEpoch := by simp only [State.startBoot]; split <;> omega

/-- A reset that boots at once: what it passes through on the way holds at its end. -/
theorem goes_reboot {s : State} (p : s.plat.powered = true) : s.plat.Goes s.reboot.plat :=
  (goes_goDown_held (clean := true) p).trans
    (.trans (goes_startBoot (s := s.goDown true .held) p) (.refl _))

/-- The input comes back. -/
theorem goes_execInputPowerOn {mv : Nat} {s t : State} (h : execInputPowerOn mv s = .next t) : s.plat.Goes t.plat := by
  cases h
  split
  · next on =>
    obtain ⟨-, -, unlatched⟩ := on
    have l : s.plat.latch = none := Option.isNone_iff_eq_none.mp unlatched
    refine ⟨fun ⟨therm, ports, chunk, _, _, _⟩ => ⟨therm, ⟨ports.1, ports.1⟩, chunk, ?_, rfl, rfl⟩, fun _ => rfl, Nat.le_refl _, ?_⟩
    · simp [State.startBoot, Plat.powered, l]
    · simp only [State.startBoot]; split <;> omega
  · exact .refl _

/-- An undervoltage never latches: a module already latched off stays so, another goes down. -/
theorem goes_execUndervoltage {mv : Nat} {s t : State} (h : execUndervoltage mv s = .next t) : s.plat.Goes t.plat := by
  cases h
  split
  · split
    · next latched =>
      refine .of_sound (fun ⟨therm, ports, chunk, off, good, order⟩ => ⟨therm, ports, chunk, ?_, good, order⟩) rfl (Nat.le_refl _) rfl
      have unpowered : s.plat.powered = false := by
        cases e : s.plat.latch <;> simp_all [Plat.powered]
      rw [off, unpowered]
      rfl
    · exact .of_sound (fun ⟨therm, ports, _, _, _, _⟩ => ⟨therm, ports, Nat.zero_lt_succ _, rfl, rfl, rfl⟩)
        rfl (Nat.le_refl _) rfl
  · exact .refl _

/-- The boot moves on from a stage to one of the places `b` other than off and held. -/
theorem sound_of_boot (b : Boot) {x y : Plat} {n : Nat} (stage : x.boot = .stage n) (hb : y.boot = b)
    (place : b ≠ .off ∧ b ≠ .held ∧ b.inOrder = true)
    (same : y.throttleC = x.throttleC ∧ y.hysteresisC = x.hysteresisC ∧ y.portNext = x.portNext ∧ y.portNow = x.portNow ∧
      y.input = x.input ∧ y.latch = x.latch ∧ y.pwrgd = x.pwrgd) (chunk : x.rom.chunk < 512 → y.rom.chunk < 512) :
    x.Sound → y.Sound := by
  obtain ⟨e1, e2, e3, e4, e5, e6, e7⟩ := same
  rintro ⟨therm, ports, c, off, good, -⟩
  rw [stage] at off good
  refine ⟨by rwa [e1, e2], by rwa [e3, e4], chunk c, ?_, ?_, by rw [hb]; exact place.2.2⟩
  · rw [hb, show y.powered = x.powered by simp only [Plat.powered, e5, e6], ← off, beq_false_of_ne place.1]
    rfl
  · rw [hb, e7, good, bne_iff_ne.mpr place.1, bne_iff_ne.mpr place.2.1]
    rfl

theorem goes_bootFailed {s : State} {n u : Nat} (stage : s.plat.boot = .stage n) : s.plat.Goes (s.bootFailed u).plat :=
  .of_sound (sound_of_boot .failed stage rfl (by decide) ⟨rfl, rfl, rfl, rfl, rfl, rfl, rfl⟩ id) rfl (Nat.le_refl _) rfl

theorem goes_toRecovery {s : State} {n : Nat} (stage : s.plat.boot = .stage n) : s.plat.Goes s.toRecovery.plat :=
  .of_sound (sound_of_boot .recovery stage rfl (by decide) ⟨rfl, rfl, rfl, rfl, rfl, rfl, rfl⟩ (fun _ => Nat.zero_lt_succ _)) rfl (Nat.le_refl _) rfl

/-- A stage that passes leads to the next, the last to READY; another fails or leads to ROM recovery. -/
theorem goes_bootStage {s : State} {n : Nat} {r : BootResult} (stage : s.plat.boot = .stage n) :
    s.plat.Goes (s.bootStage n r).plat := by
  have next (m : Nat) (d : Dev) (le : m ≤ 6) : s.plat.Goes ({ s with dev := d, plat := { s.plat with boot := .stage m } } : State).plat :=
    .of_sound (sound_of_boot (.stage m) stage rfl ⟨nofun, nofun, decide_eq_true le⟩ ⟨rfl, rfl, rfl, rfl, rfl, rfl, rfl⟩ id) rfl (Nat.le_refl _) rfl
  have failed (u : Nat) := goes_bootFailed (u := u) stage
  have recovery := goes_toRecovery stage
  unfold State.bootStage
  split
  · split
    exacts [next 1 _ (by decide), failed _]
  · split
    · exact recovery
    · split
      exacts [next 2 _ (by decide), failed _]
  · split
    · exact recovery
    · split
      · exact .of_sound (sound_of_boot (.stage 3) stage rfl (by decide) ⟨rfl, rfl, rfl, rfl, rfl, rfl, rfl⟩ id) rfl (Nat.le_refl _) rfl
      · exact failed _
  · split
    exacts [next 4 _ (by decide), failed _]
  · split
    exacts [next 5 _ (by decide), failed _]
  · split
    exacts [next 6 _ (by decide), failed _]
  · split
    · exact .of_sound (sound_of_boot .ready stage rfl (by decide) ⟨rfl, rfl, rfl, rfl, rfl, rfl, rfl⟩ id) rfl (Nat.le_refl _) rfl
    · exact failed _

theorem goes_execBootStageComplete {r : BootResult} {s t : State} (h : execBootStageComplete r s = .next t) :
    s.plat.Goes t.plat := by
  cases h
  split
  · next stage =>
    split
    exacts [goes_bootStage stage, .refl _]
  · exact .refl _

end Sys2Proof.Machine

namespace Sys2Proof.Machine

/-! ### Thresholds, ports, firmware and ROM recovery -/

/-- A row on a unit leaves what its state goes to. -/
theorem goes_onUnit {ok : Bool} {s u t : State} (g : s.plat.Goes u.plat) (h : onUnit ok u = .next t) : s.plat.Goes t.plat := by
  rcases onUnit_cases ok u with ⟨-, e⟩ | ⟨-, e⟩ <;> rw [e] at h <;> cases h
  exact g

/-- A row that acts on the device alone. -/
theorem goes_onUnit_whenUp {ok : Bool} {s t : State} {f : Dev → Dev} (h : onUnit ok (whenUp s f) = .next t) :
    s.plat.Goes t.plat := goes_onUnit (.of_eq (whenUp_plat s f)) h

theorem goes_next_whenUp {s t : State} {f : Dev → Dev} (h : (.next (whenUp s f) : Host.Outcome State Fault Refusal) = .next t) :
    s.plat.Goes t.plat := goes_onUnit_whenUp (ok := true) h

/-- The layouts in force are written down. -/
theorem goes_storeLayouts (s : State) : s.plat.Goes s.storeLayouts.plat := by
  unfold State.storeLayouts
  split
  exacts [.of_sound id rfl (Nat.le_refl _) rfl, .refl _]

theorem goes_partitionSet {s t : State} {h : Nat} {form : Cmd → Bool} {act : Cmd → Dev → Dev}
    (e : (.next (partitionSet h form s act) : Host.Outcome State Fault Refusal) = .next t) : s.plat.Goes t.plat := by
  cases e
  exact .trans (.of_eq (whenUp_plat s _)) (goes_storeLayouts _)

/-- Reports, alerts, firmware in the store and what is staged move nothing of the invariant. -/
theorem goes_dropStaged (s t : State) (h : Nat) : t.plat.Goes (State.dropStaged s t h).plat := by
  unfold State.dropStaged
  split
  · split
    exacts [.of_sound id rfl (Nat.le_refl _) rfl, .refl _]
  · exact .refl _

theorem goes_linkReport (x : Plat) (l : Nat) (down : Bool) : x.Goes (x.linkReport l down) := by
  unfold Plat.linkReport
  split
  exacts [.of_sound id rfl (Nat.le_refl _) rfl, .refl _]

/-- BERYL_THERM_CFG takes legal values only (R259). -/
theorem goes_setTherm (x : Plat) (value : Nat) : x.Goes (x.setTherm value) := by
  unfold Plat.setTherm
  dsimp only
  split
  · next legal => exact .of_sound (fun ⟨_, rest⟩ => ⟨legal, rest⟩) rfl (Nat.le_refl _) rfl
  · exact .refl _

theorem goes_portNext {x : Plat} {code : Nat} (legal : code < 4) : x.Goes { x with portNext := code } :=
  .of_sound (fun ⟨therm, ports, rest⟩ => ⟨therm, ⟨legal, ports.2⟩, rest⟩) rfl (Nat.le_refl _) rfl

/-- ROM recovery's record changes; its chunk stays within its field. -/
theorem goes_rom {x : Plat} {r : RomRec} (chunk : x.rom.chunk < 512 → r.chunk < 512) : x.Goes { x with rom := r } :=
  .of_sound (fun ⟨therm, ports, c, rest⟩ => ⟨therm, ports, chunk c, rest⟩) rfl (Nat.le_refl _) rfl

theorem goes_execRegisterWrite {f offset value : Nat} {s t : State} (h : execRegisterWrite f offset value s = .next t) :
    s.plat.Goes t.plat := by
  refine goes_onUnit ?_ h
  split
  · split
    · exact goes_rom id
    · split
      exacts [goes_rom (fun _ => Nat.mod_lt _ (by decide)), .refl _]
  · split <;> exact .refl _

theorem chunkDone_chunk (r : RomRec) (ok : Bool) : (r.chunkDone ok).chunk = r.chunk := by
  unfold RomRec.chunkDone
  split <;> rfl

/-- The end of an action of ROM recovery: an image that verifies raises the security version and resets the module. -/
theorem goes_execRomRecActionDone {ok : Bool} {s t : State} (h : execRomRecActionDone ok s = .next t) : s.plat.Goes t.plat := by
  cases h
  dsimp only
  split
  · exact .refl _
  · next ready =>
    have p : s.plat.powered = true := by simpa using (not_or.mp ready).2
    split
    · exact .refl _
    · exact goes_rom (fun c => by rwa [chunkDone_chunk])
    · split
      · exact goes_rom id
      · split
        · refine .trans ?_ (goes_reboot ?_)
          exacts [.of_sound id rfl (Nat.le_max_left _ _) rfl, p]
        · exact goes_rom id

/-- The security version is the larger one, or the store is left without an image (R418). -/
theorem goes_execFwCommitComplete {ok : Bool} {s t : State} (h : execFwCommitComplete ok s = .next t) : s.plat.Goes t.plat := by
  cases h
  split
  · split
    exacts [.of_sound id rfl (Nat.le_max_left _ _) rfl, .of_sound id rfl (Nat.le_refl _) rfl]
  · exact .refl _

theorem goes_execPldmFirmwareUpdate {image : Bytes} {s t : State} (h : execPldmFirmwareUpdate image s = .next t) :
    s.plat.Goes t.plat := by
  cases h
  dsimp only
  repeat' split
  exacts [.refl _, .of_sound id rfl (Nat.le_refl _) rfl, .refl _, goes_rom id, .refl _]

/-- A FW_UPDATE keeps what its act keeps. -/
theorem goes_onFw {s : State} {h : Nat} {form : Cmd → Bool} {act : Cmd → State → State}
    (g : ∀ c, s.plat.Goes (act c s).plat) : s.plat.Goes (s.onFw h form act).plat := by
  unfold State.onFw
  split
  · split
    · split
      exacts [g _, .refl _]
    · exact .refl _
  · exact .refl _

theorem goes_stageImage {s t : State} (h : Nat) (image : Bytes) (same : t.plat = s.plat) :
    s.plat.Goes (t.stageImage h image).plat := by
  unfold State.stageImage
  rw [← same]
  split
  exacts [.of_sound id rfl (Nat.le_refl _) rfl, .refl _]

theorem goes_execFwUpdateStage {h : Nat} {data : Bytes} {s t : State} (e : execFwUpdateStage h data s = .next t) :
    s.plat.Goes t.plat := by
  cases e
  refine goes_onFw (fun c => ?_)
  dsimp only
  split
  · split
    exacts [goes_stageImage h _ rfl, .refl _]
  · exact .refl _

theorem goes_execFwUpdateCommit {h : Nat} {s t : State} (e : execFwUpdateCommit h s = .next t) : s.plat.Goes t.plat := by
  cases e
  refine goes_onFw (fun c => ?_)
  split
  · exact .refl _
  · split
    exacts [.refl _, .of_sound id rfl (Nat.le_refl _) rfl]

theorem goes_execHostPortCfgWrite {f value : Nat} {s t : State} (h : execHostPortCfgWrite f value s = .next t) :
    s.plat.Goes t.plat := by
  refine goes_onUnit ?_ h
  split
  · split
    · exact .refl _
    · dsimp only
      have clears : (if bitOf value 8 = true then s.onDev (fun d => d.modFn f (fun x => { x with writeRefused := false }))
          else s).plat = s.plat := by split <;> rfl
      generalize (if bitOf value 8 = true then _ else _ : State) = u at clears
      rw [← clears]
      split
      · exact .refl _
      · split
        exacts [.refl _, goes_portNext (Nat.mod_lt _ (by decide))]
  · exact .refl _

end Sys2Proof.Machine

namespace Sys2Proof.Machine

/-! ### Ports, samples, failures -/

/-- A row on a port keeps what its act keeps; it acts only where the responders answer. -/
theorem goes_onPort {n : Nat} {s t : State} {act : State → State} (h : onPort n s act = .next t)
    (g : s.plat.answers = true → s.plat.Goes (act s).plat) : s.plat.Goes t.plat := by
  refine goes_onUnit ?_ h
  split
  · next on => exact g (Bool.and_eq_true_iff.mp on).1
  · exact .refl _

theorem goes_execPerstAssert {n : Nat} {s t : State} (h : execPerstAssert n s = .next t) : s.plat.Goes t.plat := by
  refine goes_onPort h (fun answers => ?_)
  split
  exacts [goes_goDown_held (powered_of_answers answers), .of_eq (onDev_plat s _)]

theorem goes_execPerstRelease {n : Nat} {s t : State} (h : execPerstRelease n s = .next t) : s.plat.Goes t.plat := by
  refine goes_onUnit ?_ h
  refine Plat.Goes.ite (fun on => ?_) (fun _ => .refl _)
  have powered : s.plat.powered = true := (Bool.and_eq_true_iff.mp on).1
  exact Plat.Goes.ite (fun _ => .trans (.refl _) (goes_startBoot powered)) (fun _ => .refl _)

theorem goes_execThermalSample {st temp : Nat} {s t : State} (h : execThermalSample st temp s = .next t) :
    s.plat.Goes t.plat := by
  refine goes_onUnit ?_ h
  split
  · next up =>
    dsimp only
    split
    · refine .trans (.refl _) (goes_latchDown ?_)
      exact powered_of_up up
    · exact .refl _
  · exact .refl _

theorem goes_execDieTemperatureSample {die temp : Nat} {s t : State} (h : execDieTemperatureSample die temp s = .next t) :
    s.plat.Goes t.plat := by
  refine goes_onUnit ?_ h
  split
  · next up =>
    unfold State.dieSample
    refine .ite (fun _ => .trans ?_ (goes_latchDown ?_)) (fun _ => ?_)
    exacts [.of_sound id rfl (Nat.le_refl _) rfl, powered_of_up up, .of_sound id rfl (Nat.le_refl _) rfl]
  · exact .refl _

theorem goes_execFlitCrcFailure {l dir : Nat} {s t : State} (h : execFlitCrcFailure l dir s = .next t) :
    s.plat.Goes t.plat := by
  refine goes_onUnit ?_ h
  split
  · dsimp only
    split
    · exact .refl _
    · split
      exacts [goes_linkReport _ _ _, .refl _]
  · exact .refl _

theorem goes_execReplayRunExhausted {l : Nat} {s t : State} (h : execReplayRunExhausted l s = .next t) : s.plat.Goes t.plat := by
  refine goes_onUnit ?_ h
  split
  · dsimp only
    split <;> exact goes_linkReport _ _ _
  · exact .refl _

theorem goes_execUsneaMessageCrcFailure {level unit : Nat} {s t : State} (h : execUsneaMessageCrcFailure level unit s = .next t) :
    s.plat.Goes t.plat := by
  refine goes_onUnit ?_ h
  split
  · dsimp only
    split
    exacts [.refl _, .of_sound id rfl (Nat.le_refl _) rfl]
  · exact .refl _

/-- A change of reports, alert, fault, firmware staged, unlock token or power state, on a condition. -/
theorem goes_next_ite {s u t : State} {c : Prop} [Decidable c]
    (h : (.next (if c then u else s) : Host.Outcome State Fault Refusal) = .next t) (g : c → s.plat.Goes u.plat) : s.plat.Goes t.plat := by
  cases h
  split
  · exact g ‹_›
  · exact .refl _

theorem goes_onUnit_ite {ok : Bool} {s u t : State} {c : Prop} [Decidable c]
    (h : onUnit ok (if c then u else s) = .next t) (g : s.plat.Goes u.plat) : s.plat.Goes t.plat := by
  refine goes_onUnit ?_ h
  split
  exacts [g, .refl _]

theorem goes_execD0Return {n : Nat} {s t : State} (h : execD0Return n s = .next t) : s.plat.Goes t.plat := by
  refine goes_onPort h (fun _ => ?_)
  split
  · dsimp only
    split
    exacts [.of_sound id rfl (Nat.le_refl _) rfl, .refl _]
  · exact .refl _

theorem goes_execDebugUnlockToken {body key sig : Bytes} {s t : State} (h : execDebugUnlockToken body key sig s = .next t) :
    s.plat.Goes t.plat := by
  refine goes_next_ite h (fun _ => ?_)
  dsimp only
  split
  exacts [.of_sound id rfl (Nat.le_refl _) rfl, .refl _]

/-- Every command but LATCH_CLEAR. -/
theorem exec_goes (i : Instr) (s t : State) (h : exec i s = .next t) (clear : ∀ mv ms, i ≠ .latchClear mv ms) :
    s.plat.Goes t.plat := by
  cases i
  case mmTile | mmConv | mmDrain | qzQuant | qzDequant | vxEw | vxRow | vxCol | vxFill | sfFn | sfProg | rsSum | rsMax |
      rsSmax | rsGap | dmaCopy | dmaSeq | dmaPrefetch | dmaRing | hxPut | hxGet | hxFree | pgAppend | pgPublish |
      pgPrefetch | pgInfo | colSend | colRecv | colReduce | colBarrier | syncDone | syncWait | syncTime | ctlLi | ctlAlu |
      ctlCmp | ctlPset | ctlBr | ctlLoop | ctlLdr | ctlStr | ctlNop | residualFetchLanded | ringBurstFetch |
      descriptorComplete | haloWaitSatisfied | colRecvSatisfied | usneaGroupComplete | syncTick | syncWaitSatisfied |
      operationComplete | doneReport | cntClaim | cntAdd | cntCas | cntRead | cntSteal | cntCommit | cntCredit |
      walkerDescriptorEmit | clusterControlCoreFailure | tickBoundary | stretchLimit | boundaryDecision | holdExpiry |
      editBatchExpiry | resumeExpiry | runWindowCountReached | pipelineStopDrained | ledgerStagingPlace | parkComplete |
      resumeComplete | migrationLanded | folnasRetryBound | reserveFrameReturn | backgroundWriteBack |
      evictionWriteBackDone | sweepComplete | graceExpiry | demotionComplete | managementEndGrace | throttleRelease |
      dramRefresh | garbageCollection | readDisturbRefresh | folnasPatrol | badBlockRetire | videoFrameStart |
      guardRowCounted | videoFrameComplete | getVersion | getCapabilities | negotiateAlgorithms | getDigests |
      getCertificate | getMeasurements | keyExchange | finish | pskExchange | pskFinish | ideStreamLeavesSecure |
      backgroundAtomScrub | baseDieRequest | tagConversionDone | qpDrainComplete | requesterCompletionTimeout |
      msixMessageSend | ideKm | commandFetch | qpSqDoorbell | qpCqDoorbell | qpEnable | qpDisable | qpRearm =>
    exact goes_onUnit_whenUp h
  case nop | abort | memAlloc | memFree | programLoad | microprogLoad | microprogRestore | pipelineSubmit | pipelineRun |
      pipelineStop | pipelineStopDelete | tickSet | weightsBind | seqCreate | seqAppend | seqSuspend | seqSuspendPark |
      seqSuspendEvictOnly | seqResumeLazy | seqResumeEager | seqDestroy | prefixLookupLookup | prefixLookupMap |
      prefixLookupInsert | prefixLookupDrop | pageEdit | tierPrefetch | tierFlush | videoSessionOpen |
      videoSessionReconfig | videoSessionClose | videoFrame | videoFrameEos | collectiveLaunch | attest | sessionOpen |
      keyImport | keyImportErase | keyRotate | ledgerRead | telemetryRead | tierFlushDurable | carnelianFault |
      lateCompletion | weightsBindComplete =>
    exact goes_next_whenUp h
  case partitionSetConfigure | partitionSetDelete | partitionSetEndGrace => exact goes_partitionSet h
  case scrubComplete => exact goes_onUnit (.trans (.of_eq (whenUp_plat s _)) (goes_storeLayouts _)) h
  case fwUpdateStage => exact goes_execFwUpdateStage h
  case fwUpdateCommit => exact goes_execFwUpdateCommit h
  case fwCommitComplete => exact goes_execFwCommitComplete h
  case bootStageComplete => exact goes_execBootStageComplete h
  case thermalSample => exact goes_execThermalSample h
  case dieTemperatureSample => exact goes_execDieTemperatureSample h
  case wearLevelling =>
    simp only [exec, execWearLevelling] at h
    split at h
    exacts [goes_onUnit_whenUp h, nomatch h]
  case readOnlyModeEntry | lowPowerEntry | pldmAlertClear =>
    exact goes_next_ite h (fun _ => .of_sound id rfl (Nat.le_refl _) rfl)
  case debugUnlockToken => exact goes_execDebugUnlockToken h
  case pldmPortConfigWrite => exact goes_next_ite h (fun c => goes_portNext c.2.2)
  case inputPowerOn => exact goes_execInputPowerOn h
  case undervoltage => exact goes_execUndervoltage h
  case overvoltage | inputOvercurrent => exact goes_next_ite h (fun c => goes_latchDown c.2.2)
  case latchClear => exact absurd rfl (clear _ _)
  case modResetAssert => exact goes_next_ite h (fun c => goes_goDown_held c.2)
  case modResetRelease => exact goes_next_ite h (fun c => goes_startBoot c.1)
  case pldmThermCfgWrite => exact goes_next_ite h (fun _ => goes_setTherm _ _)
  case flitCrcFailure => exact goes_execFlitCrcFailure h
  case replayRunExhausted => exact goes_execReplayRunExhausted h
  case retrainComplete => exact goes_onUnit_ite h (goes_linkReport _ _ _)
  case usneaHubFailure | peridotWatchdog | peridotSramError | agateEngineFailure =>
    exact goes_onUnit_ite h (.of_sound id rfl (Nat.le_refl _) rfl)
  case usneaMessageCrcFailure => exact goes_execUsneaMessageCrcFailure h
  case commandTimeout | timeoutDeferralEnd => cases h; exact .trans (.of_eq (whenUp_plat s _)) (goes_dropStaged _ _ _)
  case hostBar2WindowWrite | bar2Request => exact goes_onUnit_ite h (.refl _)
  case bar2Resize => exact goes_onUnit_ite h (by split <;> exact .refl _)
  case hostPortCfgWrite => exact goes_execHostPortCfgWrite h
  case berylThermCfgWrite => exact goes_onUnit_ite h (by split; exacts [goes_setTherm _ _, .refl _])
  case tickRegisterLowRead => exact goes_onUnit (by split <;> exact .refl _) h
  case registerWrite => exact goes_execRegisterWrite h
  case functionLevelReset => exact goes_onUnit_ite h (.refl _)
  case romRecWrite => exact goes_onUnit_ite h (goes_rom (fun _ => Nat.mod_lt _ (by decide)))
  case romRecFinish | romRecAbort => exact goes_onUnit_ite h (goes_rom id)
  case romRecActionDone => exact goes_execRomRecActionDone h
  case pldmFirmwareUpdate => exact goes_execPldmFirmwareUpdate h
  case hostLinkUp | vfEnable =>
    refine goes_onUnit_ite h ?_
    dsimp only
    split
    · exact .refl _
    · split <;> exact .of_eq rfl
  case hostLinkDown | hotReset | vfDisable => exact goes_onUnit_ite h (.of_eq (onDev_plat _ _))
  case d3hotEntry => exact goes_onUnit_ite h (.ite (fun _ => .of_eq (onDev_plat _ _)) (fun _ => .refl _))
  case perstAssert => exact goes_execPerstAssert h
  case perstRelease => exact goes_execPerstRelease h
  case d0Return => exact goes_execD0Return h

/-- LATCH_CLEAR takes the latch and the input away and moves nothing else of the invariant. -/
theorem execLatchClear_plat {mv ms : Nat} {s t : State} (h : execLatchClear mv ms s = .next t) :
    t.plat = s.plat ∨ s.plat.latch.isSome = true ∧ t.plat = { s.plat with latch := none, input := false, thermTrip := false } := by
  cases h
  split
  · next c => exact .inr ⟨c.2.2, rfl⟩
  · exact .inl rfl

/-- The module is as off without its input as it was with its latch. -/
theorem sound_execLatchClear {mv ms : Nat} {s t : State} (h : execLatchClear mv ms s = .next t) (i : s.plat.Sound) : t.plat.Sound := by
  rcases execLatchClear_plat h with e | ⟨latched, e⟩
  · rwa [e]
  · obtain ⟨therm, ports, chunk, off, rest⟩ := i
    have unpowered : s.plat.powered = false := by
      cases l : s.plat.latch <;> simp_all [Plat.powered]
    rw [e]
    exact ⟨therm, ports, chunk, by rw [unpowered] at off; exact off, rest⟩

/-- Every command keeps the platform's invariant. -/
theorem exec_sound (i : Instr) (s t : State) (h : exec i s = .next t) (inv : s.plat.Sound) : t.plat.Sound := by
  by_cases clear : ∃ mv ms, i = .latchClear mv ms
  · obtain ⟨mv, ms, rfl⟩ := clear
    exact sound_execLatchClear h inv
  · exact (exec_goes i s t h (fun mv ms e => clear ⟨mv, ms, e⟩)).sound inv

theorem idle_plat (s : State) : s.idle.plat = s.plat := by
  unfold State.idle
  split <;> rfl

/-- Settles O7: an idle step leaves the platform, and a command keeps its invariant by `exec_sound`. -/
theorem stepsKeepTheInvariant : Obligations.StepsKeepTheInvariant := by
  intro s t inv h
  unfold step at h
  split at h
  · cases h
    exact (inv_iff_sound _).mpr ((idle_plat s).symm ▸ (inv_iff_sound s).mp inv)
  · exact exec_sound _ _ _ h inv

/-- Settles O60: the three parts of `Plat.Goes`, and LATCH_CLEAR, which moves neither version nor epoch. -/
theorem latchesAndVersionsHold : Obligations.LatchesAndVersionsHold := by
  intro i s t h
  by_cases clear : ∃ mv ms, i = .latchClear mv ms
  · obtain ⟨mv, ms, rfl⟩ := clear
    refine ⟨fun _ other => absurd rfl (other mv ms), ?_⟩
    rcases execLatchClear_plat h with e | ⟨-, e⟩ <;> rw [e] <;> exact ⟨Nat.le_refl _, Nat.le_refl _⟩
  · have goes := exec_goes i s t h (fun mv ms e => clear ⟨mv, ms, e⟩)
    exact ⟨fun latched _ => goes.latch latched, goes.secVersion, goes.fuseEpoch⟩

end Sys2Proof.Machine

namespace Sys2Proof.Machine

/-! ## A step, and the machine after reset -/

/-- Settles O1. -/
theorem stepRunsTheFrontCommand : Obligations.StepRunsTheFrontCommand := fun _ _ _ => rfl

theorem step_idle {s : State} (empty : s.pending = []) : step s = .next s.idle := by simp only [step, empty]

/-- While the module serves work its reference runs. -/
theorem clocked_of_up {x : Plat} (h : x.up = true) : x.clocked = true := by
  simp only [Plat.up, Bool.and_eq_true, beq_iff_eq] at h
  obtain ⟨⟨⟨input, latch⟩, ready⟩, -⟩ := h
  simp [Plat.clocked, input, latch, ready]

/-- Of a core that changes in its errors and its failure alone, every core says as much. -/
theorem core_modCore_struck (d : Dev) (i c : Nat) (bad soft : Core → List Nat) (faulted : Core → Bool) :
    ∃ b s f, (d.modCore i (fun k => { k with bad := bad k, soft := soft k, faulted := faulted k })).core c =
      { d.core c with bad := b, soft := s, faulted := f } := by
  by_cases same : c = i
  · subst same
    exact ⟨_, _, _, core_modCore _ _ _⟩
  · exact ⟨_, _, _, core_modCore_ne _ _ same⟩

/-- A strike changes cores and clusters alone, and of a core its errors and its failure alone (log 160). -/
theorem strike_frame (d : Dev) (v c : Nat) : ∃ cs ls, d.strike v = { d with cores := cs, clusters := ls } ∧
    ∃ bad soft f, (d.strike v).core c = { d.core c with bad := bad, soft := soft, faulted := f } := by
  unfold Dev.strike
  dsimp only
  split
  · exact ⟨_, _, rfl, core_modCore_struck d _ c (·.bad) (fun k => addOnce k.soft _) (·.faulted)⟩
  · exact ⟨_, _, rfl, core_modCore_struck d _ c (fun k => addOnce k.bad _) (·.soft) (·.faulted)⟩
  · exact ⟨_, _, rfl, _, _, _, rfl⟩
  · exact ⟨_, _, rfl, _, _, _, rfl⟩
  · exact ⟨_, _, rfl, core_modCore_struck d _ c (·.bad) (·.soft) (fun _ => true)⟩
  · exact ⟨_, _, rfl, _, _, _, rfl⟩

/-- Settles O2: the cases of `State.idle`, and the frame of a strike. -/
theorem idleStepPassesTime : Obligations.IdleStepPassesTime := by
  intro s empty
  refine ⟨fun still => ?_, fun clocked down => ?_, fun up => ?_, strike_frame⟩
  · rw [step_idle empty, State.idle, still]
    rfl
  · simp only [step_idle empty, State.idle, clocked, down, if_true, State.onDev, Bool.false_eq_true, if_false, Dev.tickOne]
  · simp only [step_idle empty, State.idle, clocked_of_up up, up, if_true, State.onDev, Dev.tickOne]

/-- Settles O5: every value stands in the reset records. -/
theorem resetValues : Obligations.ResetValues :=
  ⟨rfl, rfl, rfl, rfl, rfl, rfl, rfl, rfl, rfl, rfl, rfl, rfl, rfl, fun _ => rfl, rfl⟩

/-- Settles O6: each bound of the invariant at the reset values. -/
theorem resetMeetsTheInvariant : Obligations.ResetMeetsTheInvariant := by
  unfold Obligations.ResetMeetsTheInvariant
  decide

/-! ## Handles (R358) -/

/-- Settles O10: the fields are digits of the handle in base 2^20, 2^24 and 2^2. -/
theorem handlesHoldTheirFields : Obligations.HandlesHoldTheirFields := by
  refine ⟨fun h g p hh hg hp => ?_, rfl, fun g lt => if_neg (Nat.ne_of_lt lt), fun g lt => ?_⟩
  · simp only [bitsOf, handleOf]
    omega
  · unfold nextGen
    split <;> omega

/-! ## Registers and predicates (R56, R57) -/

theorem reg_setReg (k : Core) (r v : Nat) : (k.setReg r v).reg r = v % 2 ^ 32 := by
  unfold Core.setReg Core.reg
  split <;> simp

/-- Loop counters and address registers are kept apart. -/
theorem reg_setReg_ne (k : Core) (v : Nat) {r j : Nat} (h : j ≠ r) : (k.setReg r v).reg j = k.reg j := by
  unfold Core.setReg Core.reg
  split
  · split
    · exact Tab.getD_put_ne _ _ _ h
    · rfl
  · split
    · rfl
    · exact Tab.getD_put_ne _ _ _ (by omega)

theorem setReg_frame (k : Core) (r v : Nat) : (k.setReg r v).pc = k.pc ∧ (k.setReg r v).preds = k.preds ∧
    (k.setReg r v).sp = k.sp ∧ (k.setReg r v).window = k.window := by
  unfold Core.setReg
  split <;> exact ⟨rfl, rfl, rfl, rfl⟩

theorem bitOf_eq_testBit (v i : Nat) : bitOf v i = v.testBit i := by
  rw [bitOf, Nat.testBit_eq_decide_div_mod_eq]
  exact Bool.beq_eq_decide_eq _ _

/-- Bit `i` is the lowest of the digits above the low `i` bits; `predsWith` replaces it there. -/
theorem predsWith_eq (ps i : Nat) (v : Bool) :
    predsWith ps i v = 2 ^ i * (ps / 2 ^ i / 2 * 2 + v.toNat) + ps % 2 ^ i := by
  have whole := Nat.div_add_mod ps (2 ^ i)
  have digits := Nat.div_add_mod (ps / 2 ^ i) 2
  have bit : (if bitOf ps i then 2 ^ i else 0) = 2 ^ i * (ps / 2 ^ i % 2) := by
    rcases Nat.mod_two_eq_zero_or_one (ps / 2 ^ i) with e | e <;> simp [bitOf, e]
  have set : (if v then 2 ^ i else 0) = 2 ^ i * v.toNat := by cases v <;> simp
  have split : 2 ^ i * (ps / 2 ^ i) = 2 ^ i * (ps / 2 ^ i / 2 * 2) + 2 ^ i * (ps / 2 ^ i % 2) := by
    rw [← Nat.mul_add, Nat.mul_comm _ 2, digits]
  rw [predsWith, bit, set, Nat.mul_add]
  omega

/-- Of the predicates one alone changes. -/
theorem bitOf_predsWith (ps i j : Nat) (v : Bool) : bitOf (predsWith ps i v) j = if j = i then v else bitOf ps j := by
  have low : ps % 2 ^ i < 2 ^ i := Nat.mod_lt _ (Nat.two_pow_pos i)
  have before : ps.testBit j = if j < i then (ps % 2 ^ i).testBit j else (ps / 2 ^ i).testBit (j - i) := by
    rw [← Nat.testBit_two_pow_mul_add _ low, Nat.div_add_mod]
  rw [bitOf_eq_testBit, bitOf_eq_testBit, before, predsWith_eq, Nat.testBit_two_pow_mul_add _ low]
  rcases Nat.lt_trichotomy j i with lt | rfl | gt
  · simp [lt, Nat.ne_of_lt lt]
  · cases v <;> simp [Nat.testBit_zero, Nat.add_mod]
  · obtain ⟨n, rfl⟩ : ∃ n, j = i + n + 1 := ⟨j - i - 1, by omega⟩
    have above : i + n + 1 - i = n + 1 := by omega
    have bit : v.toNat < 2 := v.toNat_lt
    have digit : (ps / 2 ^ i / 2 * 2 + v.toNat) / 2 = ps / 2 ^ i / 2 := by omega
    simp [above, Nat.testBit_succ, digit, Nat.not_lt.mpr (Nat.le_of_lt gt), Nat.ne_of_gt gt]

theorem pred_setPred (k : Core) (i j : Nat) (v : Bool) : (k.setPred i v).pred j = if j = i then v else k.pred j :=
  bitOf_predsWith k.preds i j v

/-- Settles O16: registers by their table's laws, predicates by `pred_setPred`. -/
theorem registersAndPredicatesAreIndependent : Obligations.RegistersAndPredicatesAreIndependent := by
  refine ⟨fun k r v j => ⟨reg_setReg k r v, reg_setReg_ne k v, setReg_frame k r v⟩, fun k w cond i j v => ⟨?_, fun ne => ?_, ?_, ?_⟩⟩
  · rw [pred_setPred, if_pos rfl]
  · rw [pred_setPred, if_neg ne]
  · exact fun en => if_pos en
  · exact fun en => if_neg (by simp [en])

end Sys2Proof.Machine

namespace Sys2Proof.Machine

/-! ## Memories and little-endian fields (R4) -/

/-- The byte of the first cell at an address, zero where no cell is. -/
theorem byte_append (m n : Mem) (a : Nat) (h : ∀ e ∈ m, e.1 ≠ a) : Mem.byte (m ++ n) a = Mem.byte n a := by
  have none_ : m.find? (fun e => e.1 == a) = none := List.find?_eq_none.mpr (fun e he => by simpa using h e he)
  rw [Mem.byte, Mem.byte, List.find?_append, none_, Option.none_or]

theorem byte_append_none (m n : Mem) (a : Nat) (h : ∀ e ∈ n, e.1 ≠ a) : Mem.byte (m ++ n) a = Mem.byte m a := by
  have none_ : n.find? (fun e => e.1 == a) = none := List.find?_eq_none.mpr (fun e he => by simpa using h e he)
  rw [Mem.byte, Mem.byte, List.find?_append, none_, Option.or_none]

/-- Filtering by address leaves the bytes at the addresses kept, and zero at the others. -/
theorem byte_filter (m : Mem) (p : Nat → Bool) (a : Nat) :
    Mem.byte (m.filter (fun e => p e.1)) a = if p a then Mem.byte m a else 0 := by
  rw [Mem.byte, List.find?_filter]
  cases keeps : p a with
  | true =>
    have same : (fun e : Nat × Byte => decide (p e.1 = true ∧ (e.1 == a) = true)) = fun e => e.1 == a :=
      funext fun e => by by_cases h : e.1 = a <;> simp [h, keeps]
    rw [same]
    rfl
  | false =>
    have never : (fun e : Nat × Byte => decide (p e.1 = true ∧ (e.1 == a) = true)) = fun _ => false :=
      funext fun e => by by_cases h : e.1 = a <;> simp [h, keeps]
    rw [never, List.find?_eq_none.mpr (by simp)]
    rfl

/-- The byte at an offset of a string laid down; beyond its end zero. -/
theorem byte_cells (bs : Bytes) (a i : Nat) : Mem.byte (Mem.cells a bs) (a + i) = bs.getD i 0 := by
  induction bs generalizing a i with
  | nil => rfl
  | cons b bs ih =>
    have later (j : Nat) : Mem.byte (Mem.cells (a + 1) bs) (a + (j + 1)) = bs.getD j 0 := by
      rw [← ih (a + 1) j, Nat.add_assoc, Nat.add_comm 1 j]
    have here : Mem.byte (Mem.cells (a + 1) bs) a = 0 := by
      rw [← List.nil_append (Mem.cells (a + 1) bs), byte_append_none _ _ _ (fun e he => ?_)]
      · rfl
      · have := (cells_above (a + 1) bs e he).1
        omega
    unfold Mem.cells
    cases i with
    | zero =>
      split
      · next zero => exact here.trans zero.symm
      · simp [Mem.byte]
    | succ j =>
      split
      · exact later j
      · rw [← List.singleton_append, byte_append _ _ _ (by simp), later]
        rfl

/-- What a byte is after a write. -/
theorem byte_write (m : Mem) (a : Nat) (bs : Bytes) (b : Nat) :
    Mem.byte (Mem.write m a bs) b = if a ≤ b ∧ b < a + bs.length then bs.getD (b - a) 0 else Mem.byte m b := by
  have below (e) (he : e ∈ m.filter (fun e => decide (e.1 < a))) : e.1 < a := of_decide_eq_true (List.mem_filter.mp he).2
  have above (e) (he : e ∈ m.filter (fun e => decide (a + bs.length ≤ e.1))) : a + bs.length ≤ e.1 :=
    of_decide_eq_true (List.mem_filter.mp he).2
  unfold Mem.write
  by_cases lo : b < a
  · rw [if_neg (by omega), List.append_assoc, byte_append_none, byte_filter m (fun x => decide (x < a)), if_pos (decide_eq_true lo)]
    intro e he
    rcases List.mem_append.mp he with he | he
    · have := (cells_above a bs e he).1
      omega
    · have := above e he
      omega
  · have notBelow : ∀ e ∈ m.filter (fun e => decide (e.1 < a)), e.1 ≠ b := fun e he => by have := below e he; omega
    rw [List.append_assoc, byte_append _ _ _ notBelow]
    by_cases hi : a + bs.length ≤ b
    · rw [if_neg (by omega), byte_append, byte_filter m (fun x => decide (a + bs.length ≤ x)), if_pos (decide_eq_true hi)]
      intro e he
      have := (cells_above a bs e he).2
      omega
    · rw [if_pos (by omega), byte_append_none]
      · rw [← byte_cells bs a (b - a), Nat.add_sub_cancel' (by omega)]
      · intro e he
        have := above e he
        omega

theorem byte_write_of_outside (m : Mem) (a : Nat) (bs : Bytes) {b : Nat} (h : b < a ∨ a + bs.length ≤ b) :
    Mem.byte (Mem.write m a bs) b = Mem.byte m b := by
  rw [byte_write, if_neg (by omega)]

theorem length_read (m : Mem) (a n : Nat) : (Mem.read m a n).length = n := by simp [Mem.read]

theorem read_write_self (m : Mem) (a : Nat) (bs : Bytes) : Mem.read (Mem.write m a bs) a bs.length = bs := by
  refine List.ext_getElem (length_read _ _ _) (fun i _ hi => ?_)
  simp [Mem.read, byte_write, hi]

/-- Bytes that a write does not touch read as before. -/
theorem read_write_of_outside (m : Mem) (a : Nat) (bs : Bytes) {b n : Nat} (h : b + n ≤ a ∨ a + bs.length ≤ b) :
    Mem.read (Mem.write m a bs) b n = Mem.read m b n := by
  refine List.map_congr_left (fun i hi => byte_write_of_outside _ _ _ ?_)
  have := List.mem_range.mp hi
  omega

theorem byte_clear (m : Mem) (a n b : Nat) : Mem.byte (Mem.clear m a n) b = if a ≤ b ∧ b < a + n then 0 else Mem.byte m b := by
  rw [Mem.clear, byte_filter m (fun x => decide (x < a) || decide (a + n ≤ x))]
  by_cases h : a ≤ b ∧ b < a + n
  · rw [if_pos h, if_neg (by simp; omega)]
  · rw [if_neg h, if_pos (by simp; omega)]

@[simp] theorem length_natLE (n v : Nat) : (natLE n v).length = n := by
  induction n generalizing v with
  | zero => rfl
  | succ n ih => rw [natLE, List.length_cons, ih]

theorem leNat_natLE (n v : Nat) : leNat (natLE n v) = v % 256 ^ n := by
  induction n generalizing v with
  | zero => rw [Nat.pow_zero, Nat.mod_one]; rfl
  | succ n ih =>
    rw [natLE, leNat, ih, BitVec.toNat_ofNat, Nat.pow_succ 256, Nat.mul_comm (256 ^ n), Nat.mod_mul]

theorem natLE_leNat (bs : Bytes) : natLE bs.length (leNat bs) = bs := by
  induction bs with
  | nil => rfl
  | cons b bs ih =>
    have byte : b.toNat < 256 := b.isLt
    have rest : (b.toNat + 256 * leNat bs) / 256 = leNat bs := by omega
    have low : BitVec.ofNat 8 (b.toNat + 256 * leNat bs) = b := BitVec.eq_of_toNat_eq (by rw [BitVec.toNat_ofNat]; omega)
    rw [leNat, List.length_cons, natLE, rest, ih, low]

/-- Settles O9. -/
theorem memoryAndFieldsHoldBytes : Obligations.MemoryAndFieldsHoldBytes :=
  ⟨fun m a bs => ⟨read_write_self m a bs, fun _ => byte_write_of_outside m a bs, fun b n => byte_clear m a n b⟩,
    fun n v => ⟨leNat_natLE n v, length_natLE n v⟩, natLE_leNat, fun _ _ => rfl⟩

/-! ## Event rings (R400) -/

theorem post_room {r : EventRing} (e : EventRec) (room : r.recs.length < 4096) :
    r.post e = (⟨r.recs ++ [{ e with seq := r.nextSeq }], r.nextSeq + 1⟩, 0) :=
  if_pos (by rw [List.length_append]; exact room)

theorem post_full {r : EventRing} (e : EventRec) (full : r.recs.length = 4096) :
    r.post e = (⟨r.recs.tail ++ [{ e with seq := r.nextSeq }], r.nextSeq + 1⟩, 1) := by
  have some_ : r.recs ≠ [] := fun empty => by simp [empty] at full
  refine (if_neg (by simp [full])).trans ?_
  rw [List.drop_one, List.tail_append_of_ne_nil some_]

/-- Settles O11: the ring below its limit, and the ring at it, which gives its oldest record up. -/
theorem eventRingsHold4096 : Obligations.EventRingsHold4096 := by
  intro r e le
  rcases Nat.lt_or_eq_of_le le with room | full
  · rw [post_room e room]
    exact ⟨by simpa using room, rfl, List.getLast?_concat, fun _ => ⟨rfl, rfl⟩, fun full => by omega⟩
  · rw [post_full e full]
    exact ⟨by simp [full], rfl, List.getLast?_concat, fun room => by omega, fun _ => ⟨rfl, rfl⟩⟩

end Sys2Proof.Machine

namespace Sys2Proof.Machine

/-! ## What stopping cores and ending group operations leave as it was (R38, R66, R85) -/

/-- What no stop and no end of a group operation changes of a core. -/
def Core.still (k : Core) : CoreStatus × Mem × Nat × Option (Nat × Nat × Nat) × Option CoreStatus × Bool :=
  (k.stat, k.sp, k.pc, k.run, k.fault, k.window.isEmpty)

/-- What no stop changes of the cores, and what the end of a group operation keeps besides: their phases. -/
def Dev.stills (d : Dev) (i : Nat) : CoreStatus × Mem × Nat × Option (Nat × Nat × Nat) × Option CoreStatus × Bool := (d.core i).still
/-- The phase of every core. -/
def Dev.phases (d : Dev) (i : Nat) : Phase := (d.core i).phase
/-- The stages of every pipeline. -/
def Dev.stagesOf (d : Dev) (p slot : Nat) : Option (List Stage) := (Tab.find (d.part p).pipes slot).map (·.stages)

theorem stills_setCore {d : Dev} {c : Nat} {k : Core} (h : k.still = (d.core c).still) : (d.setCore c k).stills = d.stills := by
  funext i
  by_cases e : i = c
  · subst e; rw [Dev.stills, core_setCore, h]; rfl
  · rw [Dev.stills, core_setCore_ne _ _ e]; rfl

theorem phases_setCore {d : Dev} {c : Nat} {k : Core} (h : k.phase = (d.core c).phase) : (d.setCore c k).phases = d.phases := by
  funext i
  by_cases e : i = c
  · subst e; rw [Dev.phases, core_setCore, h]; rfl
  · rw [Dev.phases, core_setCore_ne _ _ e]; rfl

/-- Changing runs changes no stages. -/
theorem stagesOf_modRun (d : Dev) (p slot : Nat) (f : Run → Run) :
    (d.modPart p (fun y => y.modPipe slot (fun x => x.modRun f))).stagesOf = d.stagesOf := by
  funext q t
  unfold Dev.stagesOf
  by_cases hq : q = p
  · subst hq
    rw [part_modPart, Part.modPipe]
    cases find : Tab.find (d.part q).pipes slot with
    | none => rfl
    | some x =>
      have stages : (x.modRun f).stages = x.stages := by unfold Pipe.modRun; split <;> rfl
      by_cases ht : t = slot
      · subst ht
        simp [find, stages]
      · simp [Tab.find_put_ne _ _ ht]
  · rw [part_modPart_ne _ _ hq]

/-- The end of a group operation at its members, and at those that have yet to issue it. -/
theorem endGroup_keeps (d : Dev) (p slot stage group k st : Nat) :
    (d.endGroup p slot stage group k st).stills = d.stills ∧ (d.endGroup p slot stage group k st).phases = d.phases ∧
    (d.endGroup p slot stage group k st).stagesOf = d.stagesOf ∧
    (d.endGroup p slot stage group k st).clusters = d.clusters := by
  unfold Dev.endGroup
  split
  · exact ⟨rfl, rfl, rfl, rfl⟩
  · dsimp only
    refine ⟨?_, ?_, (stagesOf_modRun _ _ _ _).trans ?_, ?_⟩
    · refine foldl_keeps Dev.stills _ (fun d c => ?_) _ d
      split
      · rfl
      · exact stills_setCore (by simp [Core.still])
    · refine foldl_keeps Dev.phases _ (fun d c => ?_) _ d
      split
      exacts [rfl, phases_setCore rfl]
    · refine foldl_keeps Dev.stagesOf _ (fun d c => ?_) _ d
      split <;> rfl
    · refine foldl_keeps Dev.clusters _ (fun d c => ?_) _ d
      split <;> rfl

/-- The ends of a core's waits. -/
theorem abandonWaits_keeps (d : Dev) (c st : Nat) :
    (d.abandonWaits c st).stills = d.stills ∧ (d.abandonWaits c st).phases = d.phases ∧
    (d.abandonWaits c st).stagesOf = d.stagesOf ∧ (d.abandonWaits c st).clusters = d.clusters := by
  unfold Dev.abandonWaits
  dsimp only
  generalize ended : d.setCore c _ = e
  have keeps : e.stills = d.stills ∧ e.phases = d.phases ∧ e.stagesOf = d.stagesOf ∧ e.clusters = d.clusters := by
    subst ended
    exact ⟨stills_setCore (by simp [Core.still]), phases_setCore rfl, rfl, rfl⟩
  split
  · exact keeps
  · next p slot stage _ =>
    have each {α : Type} (m : Dev → α) (h : ∀ d g k st, m (Dev.endGroup d p slot stage g k st) = m d) (l : List UsneaReq) :
        m (l.foldl (fun d u => if u.done then d else d.endGroup p slot stage u.group u.k st) e) = m e :=
      foldl_keeps m _ (fun d u => by split; exacts [rfl, h _ _ _ _]) l e
    obtain ⟨h1, h2, h3, h4⟩ := keeps
    exact ⟨(each _ (fun d g k st => (endGroup_keeps d p slot stage g k st).1) _).trans h1,
      (each _ (fun d g k st => (endGroup_keeps d p slot stage g k st).2.1) _).trans h2,
      (each _ (fun d g k st => (endGroup_keeps d p slot stage g k st).2.2.1) _).trans h3,
      (each _ (fun d g k st => (endGroup_keeps d p slot stage g k st).2.2.2) _).trans h4⟩

/-- A core that drains while it stops keeps its phase and all that is still. -/
theorem drained_stopping (k : Core) (t : Nat) :
    ({ k with phase := .stopping }.drained t).still = k.still ∧ ({ k with phase := .stopping }.drained t).phase = .stopping := by
  unfold Core.drained
  split <;> exact ⟨rfl, rfl⟩

/-- A core that is stopped. Only its phase, its done stamp and its waits change; a core that is not idle is stopping. -/
theorem stopCore_keeps (d : Dev) (c : Nat) :
    (d.stopCore c).stills = d.stills ∧ (d.stopCore c).stagesOf = d.stagesOf ∧ (d.stopCore c).clusters = d.clusters := by
  unfold Dev.stopCore
  dsimp only
  split
  · exact ⟨rfl, rfl, rfl⟩
  · obtain ⟨h1, -, h3, h4⟩ := abandonWaits_keeps (d.setCore c ({ d.core c with phase := .stopping }.drained (d.coreTc c))) c stAborted
    exact ⟨h1.trans (stills_setCore (drained_stopping _ _).1), h3, h4⟩

theorem stopCore_phases (d : Dev) (c i : Nat) :
    (d.stopCore c).phases i = if i = c ∧ d.phases c ≠ .idle then .stopping else d.phases i := by
  unfold Dev.stopCore
  dsimp only
  split
  · next idle => rw [if_neg (fun h => h.2 idle)]
  · next busy =>
    rw [(abandonWaits_keeps _ c stAborted).2.1]
    by_cases e : i = c
    · subst e
      rw [if_pos ⟨rfl, busy⟩, Dev.phases, core_setCore, (drained_stopping _ _).2]
    · rw [if_neg (fun h => e h.1), Dev.phases, core_setCore_ne _ _ e]
      rfl

/-- A list of cores that are stopped. -/
theorem foldl_stopCore_keeps (d : Dev) (l : List Nat) :
    (l.foldl (fun d c => d.stopCore c) d).stills = d.stills ∧ (l.foldl (fun d c => d.stopCore c) d).stagesOf = d.stagesOf ∧
    (l.foldl (fun d c => d.stopCore c) d).clusters = d.clusters :=
  ⟨foldl_keeps Dev.stills _ (fun d c => (stopCore_keeps d c).1) l d, foldl_keeps Dev.stagesOf _ (fun d c => (stopCore_keeps d c).2.1) l d,
    foldl_keeps Dev.clusters _ (fun d c => (stopCore_keeps d c).2.2) l d⟩

theorem foldl_stopCore_phases (d : Dev) (l : List Nat) (i : Nat) :
    (l.foldl (fun d c => d.stopCore c) d).phases i = if i ∈ l ∧ d.phases i ≠ .idle then .stopping else d.phases i := by
  induction l generalizing d with
  | nil => simp
  | cons c l ih =>
    rw [List.foldl_cons, ih, stopCore_phases]
    by_cases e : i = c
    · subst e
      by_cases idle : d.phases i = .idle <;> simp [idle]
    · simp [e]

/-- A pipeline that is stopped: each of its cores that is not idle. -/
theorem stopPipe_keeps (d : Dev) (p slot : Nat) :
    (d.stopPipe p slot).stills = d.stills ∧ (d.stopPipe p slot).stagesOf = d.stagesOf ∧ (d.stopPipe p slot).clusters = d.clusters := by
  unfold Dev.stopPipe
  split
  · exact ⟨rfl, rfl, rfl⟩
  · obtain ⟨h1, h2, h3⟩ := foldl_stopCore_keeps
      (d.modPart p (fun y => y.modPipe slot (fun x => x.modRun (fun r => { r with stopping := true })))) (‹Pipe›).cores
    exact ⟨h1, h2.trans (stagesOf_modRun _ _ _ _), h3⟩

theorem stopPipe_phases {d : Dev} {p slot i : Nat} {stages : List Stage} (h : d.stagesOf p slot = some stages)
    (mem : i ∈ stages.flatMap (·.cores)) (busy : d.phases i ≠ .idle) : (d.stopPipe p slot).phases i = .stopping := by
  obtain ⟨x, find, rfl⟩ := Option.map_eq_some_iff.mp h
  unfold Dev.stopPipe
  rw [find]
  exact (foldl_stopCore_phases _ _ _).trans (if_pos ⟨mem, busy⟩)

/-! ## An operation's fault (R66, R78) -/

@[simp] theorem count_cores (d : Dev) (p i n : Nat) : (d.count p i n).cores = d.cores := by unfold Dev.count; split <;> rfl
@[simp] theorem count_clusters (d : Dev) (p i n : Nat) : (d.count p i n).clusters = d.clusters := by
  unfold Dev.count; split <;> rfl

theorem stagesOf_modPart (d : Dev) (p : Nat) (f : Part → Part) (h : ∀ x, (f x).pipes = x.pipes) :
    (d.modPart p f).stagesOf = d.stagesOf := by
  funext q t
  unfold Dev.stagesOf
  by_cases e : q = p
  · subst e; rw [part_modPart, h]
  · rw [part_modPart_ne _ _ e]

theorem stagesOf_count (d : Dev) (p i n : Nat) : (d.count p i n).stagesOf = d.stagesOf := by
  unfold Dev.count
  split
  exacts [rfl, stagesOf_modPart _ _ _ (fun _ => rfl)]

/-- An event record of a partition touches no core, no cluster and no stage. -/
theorem partEvent_keeps (d : Dev) (p : Nat) (e : EventRec) :
    (d.partEvent p e).cores = d.cores ∧ (d.partEvent p e).clusters = d.clusters ∧ (d.partEvent p e).stagesOf = d.stagesOf := by
  unfold Dev.partEvent
  exact ⟨count_cores _ _ _ _, count_clusters _ _ _ _, (stagesOf_count _ _ _ _).trans (stagesOf_modPart _ _ _ (fun _ => rfl))⟩

theorem stills_of_cores {d e : Dev} (h : e.cores = d.cores) : e.stills = d.stills := by
  unfold Dev.stills Dev.core; rw [h]

theorem phases_of_cores {d e : Dev} (h : e.cores = d.cores) : e.phases = d.phases := by
  unfold Dev.phases Dev.core; rw [h]

/-- The status record of a core that waited for nothing but its window: written, and its pipeline stops. -/
def Core.recorded (k : Core) (x : CoreStatus) : Core := { k with stat := x, fault := none }

/-- A core whose window still holds operations keeps its fault for later. -/
theorem writeFault_busy {d : Dev} {c : Nat} (busy : (d.core c).window ≠ []) : d.writeFault c = d := by
  unfold Dev.writeFault
  dsimp only
  split
  · rw [if_pos (by simpa using busy)]
  · rfl

/-- Once the window is empty the record is written. What the row changes besides: the suspect mark, the event record,
what the run remembers, and the phases of the pipeline's cores. -/
theorem writeFault_empty {d : Dev} {c p slot stage : Nat} {x : CoreStatus} (run : (d.core c).run = some (p, slot, stage))
    (fault : (d.core c).fault = some x) (empty : (d.core c).window = []) :
    (d.writeFault c).stills = (d.modCore c (·.recorded x)).stills ∧ ((d.writeFault c).cluster (clusterOfCore c)).suspect = true ∧
    ∀ i stages, d.stagesOf p slot = some stages → i ∈ stages.flatMap (·.cores) → d.phases i ≠ .idle →
      (d.writeFault c).phases i = .stopping := by
  have marked (u : Dev) (h : u.clusters = (d.modCluster (clusterOfCore c) (fun y => { y with suspect := true })).clusters) :
      (u.cluster (clusterOfCore c)).suspect = true := by
    rw [Dev.cluster, h]
    exact congrArg Cluster.suspect (cluster_modCluster d _ _)
  unfold Dev.writeFault
  dsimp only
  rw [run, fault]
  dsimp only
  rw [if_neg (by simp [empty])]
  generalize event : Dev.partEvent _ _ _ = e
  obtain ⟨cores, clusters, stagesOf_⟩ : e.cores = (d.modCore c (·.recorded x)).cores ∧
      e.clusters = (d.modCluster (clusterOfCore c) (fun y => { y with suspect := true })).clusters ∧ e.stagesOf = d.stagesOf := by
    subst event
    exact partEvent_keeps _ _ _
  obtain ⟨h1, h2, h3⟩ := stopPipe_keeps (e.modPart p (fun y => y.modPipe slot (fun x' => x'.modRun (fun r =>
    { r with stop := { r.stop with fault := earlierFault r.stop.fault c x.status x } })))) p slot
  refine ⟨h1.trans (stills_of_cores cores), marked _ (h3.trans clusters), fun i stages st mem busy => ?_⟩
  refine stopPipe_phases (by rw [stagesOf_modRun, stagesOf_, st]) mem ?_
  have same : (d.modCore c (·.recorded x)).phases = d.phases := phases_setCore rfl
  exact (congrFun ((phases_of_cores cores).trans same) i).trans_ne busy

theorem still_eq_iff (k l : Core) : k.still = l.still ↔ k.stat = l.stat ∧ k.sp = l.sp ∧ k.pc = l.pc ∧ k.run = l.run ∧
    k.fault = l.fault ∧ k.window.isEmpty = l.window.isEmpty := by
  simp only [Core.still, Prod.mk.injEq]

/-- The core that has a fault keeps the first one. -/
def Core.withFault (k : Core) (x : CoreStatus) : Core := { k with fault := some (k.fault.getD x) }

theorem faultCore_eq {d : Dev} {c st word tag : Nat} (run : (d.core c).run.isSome = true) :
    d.faultCore c st word tag = ((d.modCore c (·.withFault ⟨st, word, tag, d.coreTc c⟩)).stopCore c).writeFault c := by
  obtain ⟨r, run⟩ := Option.isSome_iff_exists.mp run
  rw [Dev.faultCore, run]
  rfl

/-- A core stopped with its fault: what is still of every core, and the phases. -/
theorem stopFaulted_keeps (d : Dev) (c : Nat) (x : CoreStatus) (i : Nat) :
    (((d.modCore c (·.withFault x)).stopCore c).core i).still =
      (if i = c then (d.core c).withFault x else d.core i).still ∧
    ((d.modCore c (·.withFault x)).stopCore c).phases i = if i = c ∧ d.phases c ≠ .idle then .stopping else d.phases i := by
  have phases : (d.modCore c (·.withFault x)).phases = d.phases := phases_setCore rfl
  rw [stopCore_phases, phases]
  refine ⟨(congrFun (stopCore_keeps (d.modCore c (·.withFault x)) c).1 i).trans ?_, rfl⟩
  by_cases e : i = c
  · subst e
    rw [if_pos rfl, Dev.stills, core_modCore]
  · rw [if_neg e, Dev.stills, core_modCore_ne _ _ e]

/-- Settles O13: the core keeps the fault and stops (`stopFaulted_keeps`), then its record is written if nothing of its
window is left (`writeFault_busy`, `writeFault_empty`). -/
theorem faultsFillTheStatusRecord : Obligations.FaultsFillTheStatusRecord := by
  intro d e c st word tag p slot stage run he
  rw [faultCore_eq (by rw [run]; rfl)] at he
  generalize hx : (⟨st, word, tag, d.coreTc c⟩ : CoreStatus) = x at he ⊢
  have keeps := stopFaulted_keeps d c x
  have stages : ((d.modCore c (·.withFault x)).stopCore c).stagesOf = d.stagesOf := (stopCore_keeps _ c).2.1
  generalize ((d.modCore c (·.withFault x)).stopCore c) = n at he keeps stages
  obtain ⟨-, -, -, run', fault', window'⟩ := (still_eq_iff _ _).mp ((keeps c).1.trans (by rw [if_pos rfl]))
  have fault : (n.core c).fault = some ((d.core c).fault.getD x) := fault'
  have unchanged (i : Nat) : (n.core i).sp = (d.core i).sp ∧ (n.core i).pc = (d.core i).pc ∧ (n.core i).stat = (d.core i).stat := by
    obtain ⟨stat, sp, pc, -⟩ := (still_eq_iff _ _).mp (keeps i).1
    rw [stat, sp, pc]
    split
    · next same => subst same; exact ⟨rfl, rfl, rfl⟩
    · exact ⟨rfl, rfl, rfl⟩
  by_cases empty : (d.core c).window = []
  · have none_left : (n.core c).window = [] := List.isEmpty_iff.mp (window'.trans (List.isEmpty_iff.mpr empty))
    obtain ⟨stills, suspect, stopped⟩ := writeFault_empty (run'.trans run) fault none_left
    rw [← he] at stills suspect stopped
    have wrote (i : Nat) : (e.core i).still = (if i = c then (n.core c).recorded ((d.core c).fault.getD x) else n.core i).still := by
      refine (congrFun stills i).trans ?_
      by_cases same : i = c
      · subst same; rw [if_pos rfl, Dev.stills, core_modCore]
      · rw [if_neg same, Dev.stills, core_modCore_ne _ _ same]
    refine ⟨fun i ne => ?_, fun i => ?_, fun busy => absurd empty busy, fun _ => ⟨?_, suspect, fun y find i mem busy => ?_⟩⟩
    · rw [((still_eq_iff _ _).mp (wrote i)).1, if_neg ne]
      exact (unchanged i).2.2
    · obtain ⟨-, sp, pc, -⟩ := (still_eq_iff _ _).mp (wrote i)
      rw [sp, pc, ← (unchanged i).1, ← (unchanged i).2.1]
      split
      · next same => subst same; exact ⟨rfl, rfl⟩
      · exact ⟨rfl, rfl⟩
    · rw [((still_eq_iff _ _).mp (wrote c)).1, if_pos rfl]
      rfl
    · have cores : n.stagesOf p slot = some y.stages := by rw [stages, Dev.stagesOf, find]; rfl
      refine stopped i _ cores mem ?_
      rw [(keeps i).2]
      split
      exacts [nofun, busy]
  · have left : (n.core c).window ≠ [] := fun none_ => empty (List.isEmpty_iff.mp (window'.symm.trans (List.isEmpty_iff.mpr none_)))
    rw [writeFault_busy left] at he
    subst he
    refine ⟨fun i _ => (unchanged i).2.2, fun i => ⟨(unchanged i).1, (unchanged i).2.1⟩, fun _ => ⟨(unchanged c).2.2, fault, fun busy => ?_⟩,
      fun none_ => absurd none_ empty⟩
    exact (keeps c).2.trans (if_pos ⟨rfl, busy⟩)

end Sys2Proof.Machine

namespace Sys2Proof.Machine

/-! ## ctl. words (R67 to R69) -/

/-- A ctl. word that issues changes its core alone, as `ctlCore` says. -/
theorem issueOn_ctl {s : State} {c op : Nat} {w : Bytes} (h : Issues s c 12 op w) :
    issueOn c 12 op s (fun w d => d.modCore c (ctlCore op w)) = .next (s.onDev (fun d => d.setCore c (ctlCore op w (s.dev.core c)))) :=
  issueOn_go h

/-- Settles O14: each row is the branch of `ctlCore` for its op, the program counter moved past the word first. -/
theorem controlWordsRun : Obligations.ControlWordsRun := by
  intro s c w k hk
  have retired : (s.dev.core c).retire = k := hk.symm
  refine ⟨fun h => ?_, fun h => ?_, fun h => ?_, fun h => ?_, fun h => ?_, fun h r hr => ⟨fun zero => ?_, fun more => ?_⟩, fun h => ?_,
    fun h => ?_, fun h => ?_⟩ <;> refine (issueOn_ctl h).trans ?_ <;> simp only [ctlCore, retired]
  · rw [← hr, if_pos zero]
  · rw [← hr, if_neg more]

/-! ## 32-bit integers (R68, R106) -/

theorem signed_toNat (x : BitVec 32) : signed 32 x.toNat = x.toInt := by
  rw [BitVec.toInt_eq_toNat_cond, signed]
  split <;> split <;> omega

theorem ite_toNat {n : Nat} (c : Prop) [Decidable c] (x y : BitVec n) : (if c then x else y).toNat = if c then x.toNat else y.toNat := by
  split <;> rfl

/-- The subtraction of ctl.alu, for an op that is known to be 1. The kernel would otherwise unfold the remainder modulo 2^32. -/
theorem aluFn_sub {f : Nat} (a b : Nat) (h : f = 1) : aluFn f a b = (a + 2 ^ 32 - b % 2 ^ 32) % 2 ^ 32 := by
  unfold aluFn
  split
  case h_2 => rfl
  case h_8 => exact absurd h ‹_›
  all_goals exact absurd h (by decide)

/-- ctl.alu is the arithmetic of 32-bit words. -/
theorem aluFn_toNat (x y : BitVec 32) :
    aluFn 0 x.toNat y.toNat = (x + y).toNat ∧ aluFn 1 x.toNat y.toNat = (x - y).toNat ∧
    aluFn 2 x.toNat y.toNat = (x &&& y).toNat ∧ aluFn 3 x.toNat y.toNat = (x ||| y).toNat ∧
    aluFn 4 x.toNat y.toNat = (x ^^^ y).toNat ∧ aluFn 5 x.toNat y.toNat = (x <<< (y.toNat % 32)).toNat ∧
    aluFn 6 x.toNat y.toNat = (x >>> (y.toNat % 32)).toNat ∧ aluFn 7 x.toNat y.toNat = (x * y).toNat := by
  refine ⟨(BitVec.toNat_add x y).symm, ?_, (BitVec.toNat_and x y).symm, (BitVec.toNat_or x y).symm, (BitVec.toNat_xor x y).symm, ?_, ?_,
    (BitVec.toNat_mul x y).symm⟩
  · have lt : y.toNat < 2 ^ 32 := y.isLt
    rw [BitVec.toNat_sub, aluFn_sub _ _ rfl]
    omega
  · rw [BitVec.toNat_shiftLeft, Nat.shiftLeft_eq]
    rfl
  · rw [BitVec.toNat_ushiftRight, Nat.shiftRight_eq_div_pow]
    rfl

/-- ctl.cmp compares words, unsigned or signed. -/
theorem cmpFn_toNat (x y : BitVec 32) :
    cmpFn 0 x.toNat y.toNat = (x == y) ∧ cmpFn 1 x.toNat y.toNat = (x != y) ∧ cmpFn 2 x.toNat y.toNat = x.ult y ∧
    cmpFn 3 x.toNat y.toNat = y.ule x ∧ cmpFn 4 x.toNat y.toNat = x.slt y ∧ cmpFn 5 x.toNat y.toNat = y.sle x := by
  have eq : (x.toNat == y.toNat) = (x == y) := by
    rw [Bool.eq_iff_iff, beq_iff_eq, beq_iff_eq]
    exact BitVec.toNat_inj
  refine ⟨eq, congrArg (!·) eq, rfl, rfl, ?_, ?_⟩
  · rw [cmpFn, signed_toNat, signed_toNat]
    rfl
  · rw [cmpFn, signed_toNat, signed_toNat]
    · rfl
    all_goals nofun

/-- The integer reductions of the hubs. -/
theorem usneaFn_toNat (x y : BitVec 32) :
    usneaFn 0 0 x.toNat y.toNat = (x + y).toNat ∧ usneaFn 1 0 x.toNat y.toNat = (if x.slt y then y else x).toNat ∧
    usneaFn 2 0 x.toNat y.toNat = (if y.slt x then y else x).toNat ∧ usneaFn 3 0 x.toNat y.toNat = (x &&& y).toNat ∧
    usneaFn 4 0 x.toNat y.toNat = (x ||| y).toNat := by
  refine ⟨(BitVec.toNat_add x y).symm, ?_, ?_, (BitVec.toNat_and x y).symm, (BitVec.toNat_or x y).symm⟩ <;>
    simp [usneaFn, signed_toNat, ite_toNat, BitVec.slt]

/-- Settles O15. -/
theorem integerArithmeticIs32Bit : Obligations.IntegerArithmeticIs32Bit := by
  refine ⟨fun x y => ?_, fun x y op type l => ?_⟩
  · obtain ⟨h0, h1, h2, h3, h4, h5, h6, h7⟩ := aluFn_toNat x y
    exact ⟨h0, h1, h2, h3, h4, h5, h6, h7, cmpFn_toNat x y⟩
  · obtain ⟨h0, h1, h2, h3, h4⟩ := usneaFn_toNat x y
    exact ⟨h0, h1, h2, h3, h4, rfl⟩

/-! ## Operations of the units (R84) -/

/-- A word whose row is an operation of a unit that issues: its core as `Core.ran` says. -/
theorem issueOn_unitOp {s : State} {c cls op : Nat} {w : Bytes} {act : Bytes → Dev → Dev} {empty : Bool} {f : Core → Mem × Bool}
    (h : Issues s c cls op w) (row : act w s.dev = s.dev.unitOp c w empty f) :
    issueOn c cls op s act = .next (s.withCore c ((s.dev.core c).ran w empty (f (s.dev.core c)) s.dev.now)) := by
  rw [issueOn_go h, State.onDev, row, unitOp_eq]
  rfl

theorem ran_empty_sp (k : Core) (w : Bytes) (r : Mem × Bool) (n : Nat) : (k.ran w true r n).sp = k.sp := rfl

/-- Settles O17: every row is a `unitOp`; qz. asks for the climb first, and sf.prog for its micro-program. -/
theorem unitOperationsComplete : Obligations.UnitOperationsComplete := by
  refine ⟨fun s c w k n hk hn => ?_, fun s c w h none_ => ?_⟩
  · subst hk hn
    have row {cls op : Nat} (empty : Bytes → Bool) (f : Bytes → Core → Mem × Bool) (h : Issues s c cls op w) :=
      issueOn_unitOp (act := fun w d => d.unitOp c w (empty w) (f w)) h rfl
    refine ⟨fun h free => issueOn_unitOp h (f := fun k => quantArea k w) (by simp [free]),
      fun h free => issueOn_unitOp h (f := fun k => dequantArea k w) (by simp [free]), fun h held => issueOn_idle h (by simp [held]),
      row emptyVx (fun w k => vxArea 1 k w), row emptyVx (fun w k => vxArea 2 k w), row emptyVx (fun w k => vxArea 3 k w), row emptyVx (fun w k => vxArea 4 k w),
      row emptyRows (fun w k => sfArea k w (builtin (fieldOf w 38 1))), fun h img himg loaded => ?_, row emptyRows (fun w k => sumArea k w),
      row emptyRows (fun w k => maxArea k w), row emptyRows (fun w k => smaxArea k w), row emptyRows (fun w k => gapArea k w), fun r => ran_empty_sp _ w r _⟩
    refine issueOn_unitOp h (f := fun k => sfArea k w (microFn img)) ?_
    subst himg
    exact if_neg loaded
  · exact (issueOn_go h).trans (congrArg (fun d => Host.Outcome.next { s with dev := d }) (if_pos none_))

end Sys2Proof.Machine

namespace Sys2Proof.Machine

/-! ## Rows of codes in memory (R84, R111) -/

/-- Byte strings laid down one after the other, each at its address. -/
def Mem.writeAll (m : Mem) (l : List (Nat × Bytes)) : Mem := l.foldl (fun m e => Mem.write m e.1 e.2) m

theorem byte_writeAll_of_outside (m : Mem) {l : List (Nat × Bytes)} {b : Nat} (h : ∀ e ∈ l, b < e.1 ∨ e.1 + e.2.length ≤ b) :
    Mem.byte (Mem.writeAll m l) b = Mem.byte m b := by
  induction l generalizing m with
  | nil => rfl
  | cons e l ih =>
    have later : Mem.byte (Mem.writeAll (Mem.write m e.1 e.2) l) b = Mem.byte (Mem.write m e.1 e.2) b :=
      ih _ (fun f hf => h f (List.mem_cons_of_mem _ hf))
    exact later.trans (byte_write_of_outside _ _ _ (h e List.mem_cons_self))

theorem read_writeAll_of_outside (m : Mem) {l : List (Nat × Bytes)} {b n : Nat} (h : ∀ e ∈ l, b + n ≤ e.1 ∨ e.1 + e.2.length ≤ b) :
    Mem.read (Mem.writeAll m l) b n = Mem.read m b n := by
  refine List.map_congr_left (fun i hi => byte_writeAll_of_outside m (fun e he => ?_))
  have := List.mem_range.mp hi
  have := h e he
  omega

/-- Strings that lie one behind the other all read back. -/
theorem read_writeAll_of_mem (m : Mem) {l : List (Nat × Bytes)} (apart : l.Pairwise (fun x y => x.1 + x.2.length ≤ y.1))
    {e : Nat × Bytes} (he : e ∈ l) : Mem.read (Mem.writeAll m l) e.1 e.2.length = e.2 := by
  induction l generalizing m with
  | nil => cases he
  | cons f l ih =>
    obtain ⟨behind, apart⟩ := List.pairwise_cons.mp apart
    rcases List.mem_cons.mp he with rfl | he
    · have later : Mem.read (Mem.writeAll (Mem.write m e.1 e.2) l) e.1 e.2.length = Mem.read (Mem.write m e.1 e.2) e.1 e.2.length :=
        read_writeAll_of_outside _ (fun f hf => .inl (behind f hf))
      exact later.trans (read_write_self _ _ _)
    · exact ih _ apart he

/-- The rows that `writeRows` lays down, each with its address. -/
def rowsAt (off f pitch : Nat) (rows : List (List Nat)) : List (Nat × Bytes) :=
  rows.zipIdx.map (fun r => (off + r.2 * pitch * 128, packCodes (fmtBits f) r.1))

theorem writeRows_eq (m : Mem) (off f pitch : Nat) (rows : List (List Nat)) :
    writeRows m off f pitch rows = Mem.writeAll m (rowsAt off f pitch rows) := by
  rw [writeRows, Mem.writeAll, rowsAt, List.foldl_map]

theorem mem_rowsAt {off f pitch : Nat} {rows : List (List Nat)} {e : Nat × Bytes} (h : e ∈ rowsAt off f pitch rows) :
    ∃ i cs, rows[i]? = some cs ∧ e = (off + i * pitch * 128, packCodes (fmtBits f) cs) := by
  obtain ⟨r, mem, rfl⟩ := List.mem_map.mp h
  exact ⟨r.2, r.1, List.mem_zipIdx_iff_getElem?.mp mem, rfl⟩

/-- Rows of at most a pitch of bytes lie one behind the other. -/
theorem rowsAt_apart {off f pitch : Nat} {rows : List (List Nat)} (fit : ∀ cs ∈ rows, (packCodes (fmtBits f) cs).length ≤ pitch * 128) :
    (rowsAt off f pitch rows).Pairwise (fun x y => x.1 + x.2.length ≤ y.1) := by
  unfold rowsAt
  rw [List.pairwise_map]
  refine List.pairwise_iff_getElem.mpr (fun i j hi hj lt => ?_)
  simp only [List.getElem_zipIdx, Nat.zero_add]
  have size := fit _ (List.getElem_mem (by simpa using hi : i < rows.length))
  have step : (i + 1) * (pitch * 128) ≤ j * (pitch * 128) := Nat.mul_le_mul_right _ lt
  rw [Nat.add_mul, Nat.one_mul, ← Nat.mul_assoc, ← Nat.mul_assoc] at step
  omega

/-! ## Packed codes -/

theorem ceilDiv_8 (a : Nat) : ceilDiv a 8 = (a + 7) / 8 := rfl

/-- Narrow codes of an even number of bits fill their bytes, four codes at a time. -/
theorem length_packNarrow (h : Nat) (cs : List Nat) : (packNarrow (2 * h) cs).length = ceilDiv (cs.length * (2 * h)) 8 := by
  induction cs using packNarrow.induct with
  | case1 c0 c1 c2 c3 cs ih =>
    have four : (cs.length + 1 + 1 + 1 + 1) * (2 * h) = cs.length * (2 * h) + 8 * h := by ring
    simp only [packNarrow, List.length_append, length_natLE, ih, List.length_cons, four, ceilDiv_8]
    omega
  | case2 => simp [packNarrow, ceilDiv_8]
  | case3 cs some_ few =>
    rw [packNarrow.eq_3 _ _ (by simpa using some_) (by simpa using few), length_natLE]

theorem length_packCodes {w : Nat} (cs : List Nat) (even : w < 8 → w % 2 = 0) (bytes : 8 ≤ w → w % 8 = 0) :
    (packCodes w cs).length = ceilDiv (cs.length * w) 8 := by
  unfold packCodes
  split
  · next narrow =>
    obtain ⟨h, rfl⟩ : ∃ h, w = 2 * h := ⟨w / 2, by have := even narrow; omega⟩
    exact length_packNarrow h cs
  · next wide =>
    obtain ⟨b, rfl⟩ : ∃ b, w = 8 * b := ⟨w / 8, by have := bytes (by omega); omega⟩
    have bits : cs.length * (8 * b) = 8 * (cs.length * b) := by ring
    simp only [List.length_flatMap, length_natLE, Nat.mul_div_cancel_left b (show 0 < 8 by decide), List.map_const', List.sum_replicate,
      smul_eq_mul, ceilDiv_8, bits]
    omega

/-- The elements of every format take an even number of bits, or whole bytes. -/
theorem fmtBits_sizes (f : Nat) : (fmtBits f < 8 → fmtBits f % 2 = 0) ∧ (8 ≤ fmtBits f → fmtBits f % 8 = 0) := by
  unfold fmtBits
  split <;> decide

theorem length_packRow (f : Nat) (cs : List Nat) : (packCodes (fmtBits f) cs).length = ceilDiv (cs.length * fmtBits f) 8 :=
  length_packCodes cs (fmtBits_sizes f).1 (fmtBits_sizes f).2

/-! ## vx. (R92) -/

/-- What a vx. operation writes: rows of `n` codes each, from its destination on. -/
theorem vxArea_writes (op : Nat) (k : Core) (w : Bytes) : ∃ val : Nat → Nat → Nat, (vxArea op k w).1 =
    writeRows k.sp (k.ref w 28) (fieldOf w 43 1) (fieldOf w 38 2)
      ((List.range (fieldOf w 32 2)).map (fun r => (List.range (fieldOf w 34 2)).map (val r))) := ⟨_, rfl⟩

/-- Settles O18: `vxArea` writes its rows alone (`vxArea_writes`), and the rows of vx.fill, which fit their pitch, read
back. -/
theorem vectorsStayInTheirRows : Obligations.VectorsStayInTheirRows := by
  refine ⟨fun op k w a rows n hr hn outside => ?_, fun k w n rows pitch hn hr hp fit => ⟨rfl, fun r lt => ?_⟩⟩
  · subst hr hn
    obtain ⟨val, writes⟩ := vxArea_writes op k w
    rw [writes, writeRows_eq]
    refine byte_writeAll_of_outside _ (fun e he => ?_)
    obtain ⟨i, cs, row, rfl⟩ := mem_rowsAt he
    obtain ⟨lt, rfl⟩ : i < fieldOf w 32 2 ∧ (List.range (fieldOf w 34 2)).map (val i) = cs := by
      simpa [List.getElem?_eq_some_iff] using row
    simpa [length_packRow] using outside i lt
  · subst hn hr hp
    generalize hv : vxRound (fieldOf w 43 1) (bitOf (fieldOf w 45 1) 0) (d32 (fieldOf w 48 4)) = v
    have filled : (vxArea 4 k w).1 = writeRows k.sp (k.ref w 28) (fieldOf w 43 1) (fieldOf w 38 2)
        (List.replicate (fieldOf w 32 2) (List.replicate (fieldOf w 34 2) v)) := by
      subst hv
      simp [vxArea]
    have length_row := length_packRow (fieldOf w 43 1) (List.replicate (fieldOf w 34 2) v)
    rw [List.length_replicate] at length_row
    have row : (k.ref w 28 + r * fieldOf w 38 2 * 128, packCodes (fmtBits (fieldOf w 43 1)) (List.replicate (fieldOf w 34 2) v)) ∈
        rowsAt (k.ref w 28) (fieldOf w 43 1) (fieldOf w 38 2) (List.replicate (fieldOf w 32 2) (List.replicate (fieldOf w 34 2) v)) :=
      List.mem_map.mpr ⟨(_, r), List.mem_zipIdx_iff_getElem?.mpr (by simp [lt]), rfl⟩
    rw [filled, writeRows_eq, ← length_row, ← Nat.mul_assoc]
    refine read_writeAll_of_mem _ (rowsAt_apart (fun cs hcs => ?_)) row
    rw [(List.mem_replicate.mp hcs).2, length_row]
    exact fit

end Sys2Proof.Machine

namespace Sys2Proof.Machine

/-! ## What memory, frames and records leave as it was: every core and every cluster -/

/-- The cores and the clusters of a device. -/
def Dev.compute (d : Dev) : Tab Core × Tab Cluster := (d.cores, d.clusters)

theorem Dev.core_of_compute {d e : Dev} (h : e.compute = d.compute) (c : Nat) : e.core c = d.core c := by
  exact congrArg (Tab.getD · c Core.reset) (congrArg Prod.fst h)

theorem Dev.cluster_of_compute {d e : Dev} (h : e.compute = d.compute) (c : Nat) : e.cluster c = d.cluster c := by
  exact congrArg (Tab.getD · c Cluster.reset) (congrArg Prod.snd h)

theorem count_compute (d : Dev) (p i n : Nat) : (d.count p i n).compute = d.compute := by
  unfold Dev.count
  split <;> rfl

theorem partEvent_compute (d : Dev) (p : Nat) (e : EventRec) : (d.partEvent p e).compute = d.compute := count_compute _ _ _ _

theorem queueEvents_compute (d : Dev) (p code d0 d1 : Nat) : (d.queueEvents p code d0 d1).compute = d.compute := by
  refine foldl_keeps Dev.compute _ (fun d f => ?_) _ d
  unfold Dev.queueEvent
  dsimp only
  split
  · rfl
  · split
    · exact count_compute _ _ _ _
    · rfl

/-- A service of a stack changes that stack, the partition's counters and what is reported. -/
theorem endSvc_compute (d : Dev) (s p : Nat) (v : Svc) : (d.endSvc s p v).compute = d.compute := by
  unfold Dev.endSvc
  dsimp only
  refine (foldl_keeps Dev.compute _ (fun d a => partEvent_compute _ _ _) _ _).trans ?_
  refine (foldl_keeps Dev.compute _ (fun d a => (queueEvents_compute _ _ _ _ _).trans (partEvent_compute _ _ _)) _ _).trans ?_
  exact (count_compute _ _ _ _).trans ((count_compute _ _ _ _).trans ((count_compute _ _ _ _).trans (count_compute _ _ _ _)))

theorem spanRead_compute (d : Dev) (p : Nat) (loc : Nat → Nat × Nat) (a n hint : Nat) : (d.spanRead p loc a n hint).2.compute = d.compute :=
  foldl_keeps (fun x : PBytes × Dev => x.2.compute) _ (fun _ _ => endSvc_compute _ _ _ _) _ _

theorem spanWrite_compute (d : Dev) (p : Nat) (loc : Nat → Nat × Nat) (a : Nat) (bs : PBytes) (hint : Nat) :
    (d.spanWrite p loc a bs hint).compute = d.compute :=
  foldl_keeps Dev.compute _ (fun _ _ => endSvc_compute _ _ _ _) _ d

theorem tagFrame_compute (d : Dev) (p die f : Nat) : (d.tagFrame p die f).compute = d.compute := by
  unfold Dev.tagFrame
  split
  · rfl
  · split <;> rfl

theorem frameRead_compute (d : Dev) (p die f off n hint : Nat) : (d.frameRead p die f off n hint).2.compute = d.compute := by
  unfold Dev.frameRead
  split
  · exact spanRead_compute _ _ _ _ _ _
  · rfl

theorem frameWrite_compute (d : Dev) (p die f off : Nat) (bs : PBytes) (hint : Nat) : (d.frameWrite p die f off bs hint).compute = d.compute := by
  unfold Dev.frameWrite
  split
  · exact (spanWrite_compute _ _ _ _ _ _).trans (tagFrame_compute _ _ _ _)
  · rfl

theorem evictOne_compute (d : Dev) (p : Nat) : (d.evictOne p).compute = d.compute := by
  have page (d : Dev) (g : Nat) : (d.evictPage p g).compute = d.compute := by
    unfold Dev.evictPage
    split <;> rfl
  unfold Dev.evictOne
  dsimp only
  split
  · rfl
  · split
    · exact page _ _
    · split
      · split <;> rfl
      · split
        · rfl
        · split
          · exact page _ _
          · rfl

theorem evictFor_compute (d : Dev) (p want : Nat) : (d.evictFor p want).compute = d.compute :=
  foldl_keeps Dev.compute _ (fun d _ => evictOne_compute d p) _ d

theorem startStoreMigr_compute (d : Dev) (p slot page die : Nat) (prefetch : Bool) :
    (d.startStoreMigr p slot page die prefetch).compute = d.compute := by
  unfold Dev.startStoreMigr
  dsimp only
  split
  · split
    · rfl
    · exact count_compute _ _ _ _
  · split
    · exact count_compute _ _ _ _
    · split
      · rfl
      · exact count_compute _ _ _ _

theorem readyPage_compute (d : Dev) (p slot die page : Nat) : (d.readyPage p slot die page).2.compute = d.compute := by
  unfold Dev.readyPage
  dsimp only
  split
  · rfl
  · split
    · split
      · rfl
      · split <;> rfl
    · split
      · split
        · exact startStoreMigr_compute _ _ _ _ _ _
        · split
          · rfl
          · exact startStoreMigr_compute _ _ _ _ _ _
      · split
        · rfl
        · split
          · rfl
          · exact (frameWrite_compute _ _ _ _ _ _ _).trans (frameRead_compute _ _ _ _ _ _ _)

/-- An append writes page frames and what the partition says of them. -/
theorem tryAppend_compute (d : Dev) (p slot die off : Nat) (bs : PBytes) (count : Nat) :
    (d.tryAppend p slot die off bs count).2.compute = d.compute := by
  have ready : (d.readyPages p slot die ((piecesOf off bs.length).map (·.1))).2.compute = d.compute := by
    refine foldl_keeps (fun x : Ready × Dev => x.2.compute) _ (fun acc g => ?_) _ _
    split
    · exact readyPage_compute _ _ _ _ _
    · rfl
  unfold Dev.tryAppend
  dsimp only
  split
  · refine Eq.trans ?_ ready
    refine foldl_keeps Dev.compute _ (fun d e => ?_) _ _
    split
    · exact frameWrite_compute _ _ _ _ _ _ _
    · rfl
  · exact ready

theorem ledgerAdd_compute (d : Dev) (p : Nat) (r : LedgerRec) : (d.ledgerAdd p r).2.compute = d.compute := by
  have event (d : Dev) (e : EventRec) (code d0 d1 : Nat) (f : Part → Part) :
      (((d.modPart p f).partEvent p e).queueEvents p code d0 d1).compute = d.compute :=
    (queueEvents_compute _ _ _ _ _).trans (partEvent_compute _ _ _)
  have levels (d : Dev) : (d.ledgerLevels p).compute = d.compute := by
    unfold Dev.ledgerLevels
    dsimp only
    split <;> split <;> simp only [event]
  unfold Dev.ledgerAdd
  dsimp only
  split <;> split
  case isTrue.isFalse | isFalse.isFalse => rfl
  all_goals exact levels _

theorem holdSeq_compute (d : Dev) (p slot die : Nat) (needBlock : Bool) (by_ : Option (Nat × Issued)) :
    (d.holdSeq p slot die needBlock by_).2.compute = d.compute := by
  unfold Dev.holdSeq
  split
  · rfl
  · refine (evictFor_compute _ _ _).trans ?_
    split
    · rfl
    · exact ledgerAdd_compute _ _ _

theorem startCopies_compute (d : Dev) (p slot : Nat) (recs : List Bytes) : (d.startCopies p slot recs).compute = d.compute := by
  refine foldl_keeps Dev.compute _ (fun d b => ?_) _ d
  dsimp only
  split
  · rfl
  · split
    · split <;> rfl
    · split
      · split
        · rfl
        · unfold Dev.startQuiet
          dsimp only
          split
          · rfl
          · exact startStoreMigr_compute _ _ _ _ _ _
      · rfl

theorem acceptBatch_compute (d : Dev) (p slot : Nat) (handle : Option Nat) (recs : List Bytes) :
    (d.acceptBatch p slot handle recs).2.compute = d.compute := by
  have now : (recs.foldl (fun (acc : List Bytes × Dev) b =>
      if edNow b && (acc.2.part p).canNow slot b then (acc.1, acc.2.modPart p (fun x => x.applyRec slot (d.part p).tick.index b))
      else (acc.1 ++ [b], acc.2)) ([], d)).2.compute = d.compute := by
    refine foldl_keeps (fun x : List Bytes × Dev => x.2.compute) _ (fun acc b => ?_) _ _
    split <;> rfl
  unfold Dev.acceptBatch
  dsimp only
  split
  · rfl
  · split
    · exact now
    · exact (startCopies_compute _ _ _ _).trans now

theorem prefetchWalk_compute (p slot die : Nat) (q : Seq) (pages : List Nat) (d : Dev) (cold : Bool) :
    (d.prefetchWalk p slot die q pages cold).2.2.compute = d.compute := by
  induction pages generalizing d cold with
  | nil => rfl
  | cons g gs ih =>
    unfold Dev.prefetchWalk
    split
    · rfl
    · dsimp only
      split
      · rfl
      · split
        · exact (ih _ _).trans (startStoreMigr_compute _ _ _ _ _ _)
        · exact ih _ _

end Sys2Proof.Machine

namespace Sys2Proof.Machine

/-! ## What a command that reaches its unit comes to, by its effect on the device -/

theorem next_dev {s : State} {d e : Dev} (h : d = e) : (Host.Outcome.next { s with dev := d } : Host.Outcome State Fault Refusal) = .next { s with dev := e } :=
  h ▸ rfl

/-- A word that issues, by what its row does. -/
theorem issueOn_acts {s : State} {c cls op : Nat} {w : Bytes} {act : Bytes → Dev → Dev} {e : Dev} (h : Issues s c cls op w) (eq : act w s.dev = e) :
    issueOn c cls op s act = .next { s with dev := e } :=
  (issueOn_go h).trans (next_dev eq)

/-- A row of a core, by what it does. -/
theorem onCore_acts {s : State} {c : Nat} {f : Dev → Dev} {e : Dev} (h : CoreUp s c) (eq : f s.dev = e) :
    onCore c s f = .next { s with dev := e } :=
  (onCore_up h).trans (next_dev eq)

/-- A row of a unit that exists while the module runs, by what it does. -/
theorem onUnit_acts {s : State} {ok : Bool} {f : Dev → Dev} {e : Dev} (up : s.plat.up = true) (unit : ok = true) (eq : f s.dev = e) :
    onUnit ok (whenUp s f) = .next { s with dev := e } := by
  rw [unit, onUnit_true, whenUp_up up, State.onDev, eq]

/-! ## The array while a climb holds it (R119, R126) -/

theorem whileFree_held {d : Dev} {c : Nat} {f : Dev → Dev} (held : (d.core c).climb.isSome = true) : d.whileFree c f = d :=
  if_pos held

theorem whileFree_free {d : Dev} {c : Nat} {f : Dev → Dev} (free : (d.core c).climb = none) : d.whileFree c f = f d :=
  if_neg (by simp [free])

/-! ## The first attempt of a product (R86, R118, R124) -/

/-- The element-format flag of a word: whether it accumulates onto a buffer of the other kind, which faults (R118). -/
def mmMixes (k : Core) (w : Bytes) : Bool :=
  bitOf (fieldOf w (if opCode w = 1 then 45 else 51) 1) 1 &&
    (k.acc (mmJob k.aregs w).accSel).isInt != fmtInt (fieldOf w (if opCode w = 1 then 42 else 48) 1)

/-- The first attempt of a word that issues on a core, with the key drawn for it. -/
def mmFirst (k : Core) (w : Bytes) (key : Nat) : Attempt :=
  (mmJob k.aregs w).attempt (mmJob k.aregs w).startRung k.sp (k.acc (mmJob k.aregs w).accSel) key

/-- Counting an issued operation in its stage changes the partitions alone. -/
theorem modStage_parts (d : Dev) (p slot st : Nat) (f : StageRun → StageRun) : ∃ ps, d.modStage p slot st f = { d with parts := ps } :=
  ⟨_, rfl⟩

/-- A product that is not empty and does not mix kinds: its word enters the window and its first attempt is made. The
partitions change by the count of the operations that the stage has issued. -/
theorem mmStart_attempts {d : Dev} {c : Nat} {w : Bytes} (some_ : (mmJob (d.core c).aregs w).kTotal ≠ 0)
    (fits : mmMixes (d.core c) w = false) : ∃ ps, d.mmStart c w =
      (({ d with parts := ps, free := d.free + 1 } : Dev).setCore c ((d.core c).entered w stOK false .climb d.now)).mmAttempt c
        (d.core c).nextId (d.core c).pc w (mmJob (d.core c).aregs w) ((d.core c).acc (mmJob (d.core c).aregs w).accSel) false
        (mmJob (d.core c).aregs w).startRung 0 (mmFirst (d.core c) w (Config.freeNat d.free)) := by
  unfold Dev.mmStart
  dsimp only
  rw [if_neg some_, if_neg (by simpa [mmMixes] using fits)]
  cases (d.core c).run with
  | none => exact ⟨d.parts, rfl⟩
  | some r => exact ⟨_, rfl⟩

theorem mmStart_empty {d : Dev} {c : Nat} {w : Bytes} (none_ : (mmJob (d.core c).aregs w).kTotal = 0) :
    d.mmStart c w = d.setCore c ((d.core c).entered w stOK false .ready d.now) := if_pos none_

/-- The core of a product that has its result: accumulator, drain, no climb. -/
def Core.product (k : Core) (w : Bytes) (j : MmJob) (a : Attempt) : Core :=
  let k := k.setAcc j.accSel a.acc
  let k := if spAbsent (fieldOf w 24 4) then k
    else { k with sp := Mem.write k.sp (spAt k.aregs (fieldOf w 24 4)) (drainBytes a.acc j.outFmt j.outScale) }
  { k with climb := none }

/-- A result adds no record. -/
theorem mmFinish_ok (d : Dev) (c id word : Nat) (w : Bytes) (j : MmJob) (rung repeats : Nat) (a : Attempt) :
    d.mmFinish c id word w j rung repeats a .ok = (d.modCore c (·.product w j a)).settle c id stOK (decide (0 < repeats)) := by
  have quiet (e : Dev) : e.climbRecords c id word (opDebugTag w) j rung repeats a .ok = (true, e) := by
    unfold Dev.climbRecords
    split <;> rfl
  unfold Dev.mmFinish
  dsimp only
  rw [quiet]
  rfl

theorem mmAttempt_result {d : Dev} {c id word : Nat} {w : Bytes} {j : MmJob} {before : Acc} {landed : Bool} {rung repeats : Nat}
    {a : Attempt} (h : j.flagged a = false) : d.mmAttempt c id word w j before landed rung repeats a =
      (d.modCore c (·.product w j a)).settle c id stOK (decide (0 < repeats)) := by
  rw [Dev.mmAttempt, if_neg (by simp [h]), mmFinish_ok]

theorem mmAttempt_flagged {d : Dev} {c id word : Nat} {w : Bytes} {j : MmJob} {before : Acc} {landed : Bool} {rung repeats : Nat}
    {a : Attempt} (h : j.flagged a = true) : d.mmAttempt c id word w j before landed rung repeats a =
      (d.modCore c (fun k => { k with climb := some (climbOf id rung repeats landed before a) })).setWait c id .climb :=
  if_pos h

theorem product_eq (k : Core) (w : Bytes) (j : MmJob) (a : Attempt) : ∃ acc0 acc1, k.product w j a = { k with
    acc0 := acc0, acc1 := acc1, climb := none
    sp := if spAbsent (fieldOf w 24 4) then k.sp else Mem.write k.sp (spAt k.aregs (fieldOf w 24 4)) (drainBytes a.acc j.outFmt j.outScale) } := by
  unfold Core.product Core.setAcc
  dsimp only
  split <;> split <;> exact ⟨_, _, rfl⟩

theorem acc_product (k : Core) (w : Bytes) (j : MmJob) (a : Attempt) (x : Nat) :
    (k.product w j a).acc x = if (x = 0) = (j.accSel = 0) then a.acc else k.acc x := by
  unfold Core.product Core.setAcc Core.acc
  dsimp only
  by_cases drains : spAbsent (fieldOf w 24 4) = true <;> by_cases hx : x = 0 <;> by_cases hj : j.accSel = 0 <;> simp [drains, hx, hj]

/-- What an operation that is not flagged leaves: the accumulator, the drained area, and itself ready at the back of the window. -/
theorem newest_settled (k : Core) (w : Bytes) (wait : Wait) (n st : Nat) (b : Bool) :
    (((k.entered w stOK false wait n).window.map (fun e =>
      if e.id == k.nextId then { e with status := st, cond := b, wait := .ready } else e)).getLast?).map
        (fun e => (e.word, e.status, e.cond, e.wait)) = some (k.pc, st, b, .ready) := by
  simp [Core.entered]

/-- An mm. word issues and its first attempt is not flagged (R86, R118, R124). -/
theorem mmStart_result {d : Dev} {c : Nat} {w : Bytes} {j : MmJob} {a : Attempt} (hj : j = mmJob (d.core c).aregs w) (some_ : j.kTotal ≠ 0)
    (fits : mmMixes (d.core c) w = false) (ha : a = mmFirst (d.core c) w (Config.freeNat d.free)) (within : j.flagged a = false) :
    ∃ ps, d.mmStart c w = (((({ d with parts := ps, free := d.free + 1 } : Dev).setCore c
      ((d.core c).entered w stOK false .climb d.now)).modCore c (·.product w j a)).settle c (d.core c).nextId stOK false) := by
  subst hj ha
  obtain ⟨ps, start⟩ := mmStart_attempts some_ fits
  exact ⟨ps, start.trans (mmAttempt_result within)⟩

/-- A device that differs in the strides of one core alone, which no product reads (R174). -/
def Dev.SameButStrides (d e : Dev) (c : Nat) : Prop :=
  (∃ x, e.core c = { d.core c with strides := x }) ∧ (∀ c', c' ≠ c → e.core c' = d.core c') ∧ e.clusters = d.clusters ∧
    e.beryl = d.beryl ∧ e.free = d.free

/-- The word of a product issues as mm.tile or as mm.conv, which notes its strides first. -/
theorem exec_product {s : State} {c : Nat} {w : Bytes} {i : Instr} (free : (s.dev.core c).climb = none)
    (h : i = .mmTile c ∧ Issues s c 1 1 w ∧ opCode w = 1 ∨ i = .mmConv c ∧ Issues s c 1 2 w ∧ opCode w = 2) :
    ∃ d, exec i s = .next (s.onDev (fun _ => d.mmStart c w)) ∧ s.dev.SameButStrides d c := by
  obtain ⟨rfl, go, _⟩ | ⟨rfl, go, _⟩ := h
  · exact ⟨s.dev, issueOn_acts go (whileFree_free free),
      ⟨_, rfl⟩, fun _ _ => rfl, rfl, rfl, rfl⟩
  · exact ⟨s.dev.modCore c (fun k => k.noteStrides w),
      issueOn_acts go (whileFree_free free),
      ⟨_, core_modCore _ _ _⟩, fun _ ne => core_modCore_ne _ _ ne, rfl, rfl, rfl⟩

/-- Settles O19. -/
theorem matrixProductsRun : Obligations.MatrixProductsRun := by
  intro s c w k j a i hk hj issues free some_ fits ha within
  subst hk
  obtain ⟨d, run, ⟨x, core⟩, others, clusters, beryl, same⟩ := exec_product free issues
  have unflagged : j.flagged a = false := by
    obtain h | h := within
    · simp [MmJob.flagged, h]
    · simp [MmJob.flagged, Nat.not_lt.mpr h]
  obtain ⟨ps, start⟩ := mmStart_result (d := d) (c := c) (w := w) (j := j) (a := a) (by rw [core]; exact hj) some_
    (by rw [core]; subst hj; exact fits) (by subst hj; rw [core, same]; exact ha) unflagged
  refine ⟨_, run, ?_⟩
  rw [start, core]
  obtain ⟨acc0, acc1, prod⟩ := product_eq (({ s.dev.core c with strides := x } : Core).entered w stOK false .climb d.now) w j a
  have acc := acc_product (({ s.dev.core c with strides := x } : Core).entered w stOK false .climb d.now) w j a
  refine ⟨?_, rfl, ?_, ?_, ?_, ?_, fun y ne => ?_, ?_, ?_, fun c' ne => ?_, clusters, beryl⟩
  · simp only [Dev.settle, State.onDev, core_modCore, core_setCore]
    exact (acc j.accSel).trans (if_pos rfl)
  all_goals simp only [Dev.settle, State.onDev, core_modCore, core_setCore, prod]
  · rfl
  · simp [Core.entered]
  · exact newest_settled _ w _ _ _ _
  · rfl
  · have := acc y
    rw [if_neg (by simpa using ne), prod] at this
    exact this
  · rfl
  · rfl
  · simp [core_setCore_ne _ _ ne]
    exact others c' ne

/-! ## Drains, empty products, and words that wait (R90, R118, R119) -/

theorem tileJob_empty {regs : Tab Nat} {w : Bytes} (h : opCode w = 1) (none_ : fieldOf w 40 2 = 0) : (mmJob regs w).kTotal = 0 := by
  simp [mmJob, h, tileJob, none_]

theorem convJob_empty {regs : Tab Nat} {w : Bytes} (h : opCode w = 2) (none_ : fieldOf w 32 2 = 0 ∨ (convGeo w).taps = 0) :
    (mmJob regs w).kTotal = 0 := by
  simp [mmJob, h, convJob, none_]

/-- Settles O20. -/
theorem arrayWordsDrainAndWait : Obligations.ArrayWordsDrainAndWait := by
  refine ⟨fun s c w free => ⟨fun h op none_ => ?_, fun h op none_ => ?_⟩, fun s c w k x hk h free hx => ⟨fun form => ?_, fun int float => ?_⟩,
    fun s c w held => ⟨fun h => issueOn_idle h (whileFree_held held), fun h => issueOn_idle h (whileFree_held held),
      fun h => issueOn_idle h (whileFree_held held)⟩⟩
  · exact issueOn_acts h ((whileFree_free free).trans (mmStart_empty (tileJob_empty op none_)))
  · refine issueOn_acts h ((whileFree_free free).trans ((mmStart_empty (convJob_empty op none_)).trans ?_))
    rw [core_modCore]
    exact setCore_modCore ..
  all_goals
    subst hk hx
    refine issueOn_acts h ((whileFree_free free).trans ?_)
  · refine (if_neg (by rintro ⟨int, float⟩; simp [int] at form; simp [form] at float)).trans ?_
    rw [pushOp_eq, core_modCore]
    exact setCore_modCore ..
  · exact if_pos ⟨int, by simp [float]⟩

/-! ## The end of a flagged attempt (R125, R127) -/

/-- An operation that ends with a NARROW record or with none changes no cluster. -/
theorem mmFinish_clusters {d : Dev} {c id word : Nat} {w : Bytes} {j : MmJob} {rung repeats : Nat} {a : Attempt} {e : ClimbEnd}
    (h : ∀ b, e ≠ .ceiling b) : (d.mmFinish c id word w j rung repeats a e).clusters = d.clusters := by
  have records (d : Dev) : (d.climbRecords c id word (opDebugTag w) j rung repeats a e).2.clusters = d.clusters := by
    unfold Dev.climbRecords
    split
    · rfl
    · cases e with
      | ok => rfl
      | ceiling b => exact absurd rfl (h b)
      | narrow => exact congrArg Prod.snd (ledgerAdd_compute _ _ _)
  have held (b : Bool) (d : Dev) : (if b then d else d.setWait c id .ledger).clusters = d.clusters := by cases b <;> rfl
  exact (held _ _).trans (records _)

theorem mmAttempt_clusters (d : Dev) (c id word : Nat) (w : Bytes) (j : MmJob) (before : Acc) (landed : Bool) (rung repeats : Nat) (a : Attempt) :
    (d.mmAttempt c id word w j before landed rung repeats a).clusters = d.clusters := by
  unfold Dev.mmAttempt
  split
  · rfl
  · exact mmFinish_clusters nofun

/-- A repeat that its stage may still make takes one count of the budget, in the first cluster of the stage (R125, R128). -/
theorem climbOn_counts {d : Dev} {c : Nat} {e : Issued} {cl : Climb} {p slot st : Nat} {x : Pipe} {y : Stage}
    (hcl : (d.core c).climb = some cl) (run : d.coreRun c = some (p, slot, st, x, y))
    (climbs : ceilingOf (mmJob (d.core c).aregs e.bytes) y.layer cl = none) (running : (d.core c).phase = .running) :
    (d.climbOn c e).clusters = (d.modCluster y.firstCluster (fun k =>
      { k with budget := Tab.put k.budget (64 * slot + st) (Tab.getD (d.cluster y.firstCluster).budget (64 * slot + st) 0 + 1) })).clusters := by
  unfold Dev.climbOn
  simp only [hcl, run, climbs, running]
  rw [if_neg (by simp)]
  split
  · exact mmFinish_clusters nofun
  · split
    · rfl
    · exact mmAttempt_clusters ..

/-- Settles O21. -/
theorem climbsFollowTheBudget : Obligations.ClimbsFollowTheBudget := by
  refine ⟨fun s c w k j a i hk hj issues free some_ fits ha flagged => ?_, fun s c i k e j cl p slot st x y b v up hk he climb hcl hj run hb hv => ?_,
    fun s c p k cl e x r up hk => ⟨fun free => ?_, fun hp hcl he running hx descrs atoms there ways waits hr affords clean => ?_⟩⟩
  · subst hk
    obtain ⟨d, run, ⟨x, core⟩, _, _, _, same⟩ := exec_product free issues
    obtain ⟨ps, start⟩ := mmStart_attempts (d := d) (c := c) (w := w) (by rw [core]; subst hj; exact some_)
      (by rw [core]; subst hj; exact fits)
    refine ⟨_, run, ?_⟩
    have first : mmFirst (d.core c) w (Config.freeNat d.free) = a := by rw [core, same, ha, hj]; rfl
    have job : mmJob (d.core c).aregs w = j := by rw [core, hj]
    rw [start, first, job, mmAttempt_flagged flagged, core]
    simp only [Dev.setWait, State.onDev, core_modCore, core_setCore]
    refine ⟨rfl, ?_, rfl, rfl, rfl⟩
    simp [Core.newest, Core.entered]
  · have ends : exec (.operationComplete c i) s = .next (s.onDev (fun d => d.climbOn c e)) := by
      refine onCore_acts up ?_
      rw [Dev.opEnds, ← hk, he]
      exact if_pos climb
    subst hk hj
    have on : s.dev.climbOn c e = s.dev.climbOn c e := rfl
    conv at on => rhs; unfold Dev.climbOn
    simp only [hcl, run, ← hb, ← hv] at on
    rw [ends]
    refine ⟨fun z hz => ?_, fun hz stopped => ?_, fun hz running => ⟨_, rfl, ?_⟩, fun nonf => if_pos nonf, fun fin last => ?_⟩
    · simp only [State.onDev, on, hz]
    · simp only [State.onDev, on, hz]
      rw [if_pos stopped]
    · have counted : (s.dev.climbOn c e).cluster y.firstCluster =
          { s.dev.cluster y.firstCluster with budget := Tab.put (s.dev.cluster y.firstCluster).budget (64 * slot + st) (v + 1) } := by
        rw [Dev.cluster, climbOn_counts hcl run hz running, ← hv]
        exact cluster_modCluster ..
      rw [State.onDev, counted, Tab.getD_put_self]
    · rw [ceilingOf, if_neg (by simp [fin]), if_pos last]
  · refine onCore_acts (e := s.dev) up ?_
    rw [Dev.residualLanded, ← hk, free]
  · refine onCore_acts up ?_
    subst hk hp hx hr
    dsimp only at there affords clean
    simp only [Dev.residualLanded, hcl, he]
    rw [if_neg (by simp [running]), if_neg (not_or.mpr ⟨Nat.not_le.mpr descrs, Nat.not_lt.mpr atoms⟩), if_neg (by rw [there]; nofun), if_neg (by simp [ways, waits]),
      if_neg (by simp [ways]), if_neg (by simp [affords]), if_neg (by simp [clean])]

end Sys2Proof.Machine

namespace Sys2Proof.Machine

/-! ## Core DMA with nothing in it (R53, R74) -/

/-- With nothing that waits for a place and no descriptor, nothing starts. -/
theorem pump_idle {d : Dev} {c : Nat} (descrs : (d.core c).descrs = []) (queue : (d.core c).dmaQ = []) (buffer : (d.core c).fetchBuf = [])
    (pages : (d.cluster (clusterOfCore c)).descQ = []) : d.pump c = d.setCore c (d.core c) := by
  have letIn : d.letIn c = d.setCore c (d.core c) := by
    unfold Dev.letIn
    simp only [queue, buffer, pages, descrs, List.filter_nil, List.take_nil, List.drop_nil, List.append_nil, List.map_nil, List.isEmpty_nil, if_pos]
    congr 1
    cases hk : d.core c
    simp_all
  rw [Dev.pump, letIn]
  simp [descrs]

/-- Late bytes count in a stream and among the partition's counters. -/
theorem lateBytes_core (d : Dev) (c stream most : Nat) : (∃ x, (d.lateBytes c stream most).core c = { d.core c with streams := x }) ∧
    (d.lateBytes c stream most).clusters = d.clusters := by
  unfold Dev.lateBytes
  split
  · exact ⟨⟨_, rfl⟩, rfl⟩
  · dsimp only
    refine ⟨?_, count_clusters _ _ _ _⟩
    rw [Dev.core, count_cores]
    exact ⟨_, core_modCore ..⟩

/-- The last descriptor of an operation that moves bytes for no halo: its place is free, and the operation is ready. -/
theorem endDescr_last {d : Dev} {c : Nat} {y : Descr} {e : Issued} (one : (d.core c).descrs = [y]) (queue : (d.core c).dmaQ = [])
    (buffer : (d.core c).fetchBuf = []) (pages : (d.cluster (clusterOfCore c)).descQ = []) (started : y.started = true)
    (window : (d.core c).window = [e]) (id : e.id = y.op) (wait : e.wait = .descr 1) (cls : opClass e.bytes = 6) :
    ((d.endDescr c 0).core c).descrs = [] ∧ ((d.endDescr c 0).core c).window = [{ e with wait := .ready }] := by
  unfold Dev.endDescr
  simp only [one, List.getElem?_cons_zero, started, List.eraseIdx_cons_zero]
  rw [if_neg (by decide)]
  generalize hd : ((d.setCore c { d.core c with descrs := [] }).modPart (d.corePart c) (fun x => x.letGo y.lent y.frees)) = d1
  obtain ⟨⟨x, late⟩, clusters⟩ := lateBytes_core d1 c y.x.stream (y.x.late y.rate ((d.setCore c { d.core c with descrs := [] }).coreTc c * 65536) y.due)
  generalize d1.lateBytes c y.x.stream _ = d2 at late clusters ⊢
  have same : d1.core c = { d.core c with descrs := [] } ∧ d1.clusters = d.clusters := by
    subst hd
    exact ⟨core_setCore .., rfl⟩
  have less : (d2.lessDescr c y.op 1).core c = { d.core c with descrs := [], streams := x, window := [{ e with wait := .ready }] } := by
    rw [Dev.lessDescr, core_modCore, late, same.1, window]
    simp [id, wait]
  have ended : ∃ g : List Walk → List Walk, (d2.lessDescr c y.op 1).endTransfer c y.op = (d2.lessDescr c y.op 1).modCluster (clusterOfCore c) (fun z => { z with walks := g z.walks }) := by
    refine ⟨fun z => z.filter (fun v => !(v.core == c && v.op == y.op)), ?_⟩
    simp [Dev.endTransfer, less, id, Dev.haloFinish, cls]
  obtain ⟨z, ended⟩ := ended
  have core : ((d2.lessDescr c y.op 1).endTransfer c y.op).core c = _ := (congrArg (fun d => d.core c) ended).trans less
  have quiet : (((d2.lessDescr c y.op 1).endTransfer c y.op).cluster (clusterOfCore c)).descQ = [] := by
    have tables : (d2.lessDescr c y.op 1).clusters = d.clusters := clusters.trans same.2
    rw [ended, cluster_modCluster, Dev.cluster, tables]
    exact pages
  rw [pump_idle (by rw [core]) (by rw [core]; exact queue) (by rw [core]; exact buffer) quiet, core_setCore, core]
  exact ⟨rfl, rfl⟩

/-- Settles O23. -/
theorem descriptorsComplete : Obligations.DescriptorsComplete := by
  refine ⟨fun s c i cl up => ⟨fun h => onCore_up ⟨up, h⟩, fun h none_ => ?_, fun h => onCore_up ⟨up, h⟩, fun h none_ => ?_,
    fun h => ?_, fun h none_ => ?_⟩, fun s c k y e up hk one queue buffer pages started window id wait cls => ?_⟩
  · refine onCore_acts (e := s.dev) ⟨up, h⟩ ?_
    rw [Dev.ringBurst, List.find?_eq_none.mpr (fun r hr => by simp [none_ r hr])]
  · refine onCore_acts (e := s.dev) ⟨up, h⟩ ?_
    cases hy : (s.dev.core c).descrs[i]? with
    | none => simp [Dev.endDescr, hy]
    | some y => simp [Dev.endDescr, hy, none_ y hy]
  · exact onUnit_acts up (decide_eq_true h) rfl
  · refine onUnit_acts (e := s.dev) up (decide_eq_true h) ?_
    rw [Dev.walkerEmit, List.find?_eq_none.mpr (fun v hv => by simp [none_ v hv])]
  · subst hk
    exact ⟨_, onCore_up up, endDescr_last one queue buffer pages started window id wait cls⟩

/-! ## hx. words (R60, R100, R162 to R165) -/

theorem epochLegal_iff (put : Bool) (e flag : Nat) :
    epochLegal put e flag = true ↔ e ≠ ones32 ∧ (flag = ones64 ∨ if put then flag < e else flag ≤ e) := by
  cases put <;> simp [epochLegal]

/-- What an hx.put or hx.get that issues does. -/
theorem exec_haloIssue {s t : State} {c : Nat} {w : Bytes} {put : Bool} {i : Instr}
    (h : put = true ∧ i = .hxPut c ∧ Issues s c 8 1 w ∨ put = false ∧ i = .hxGet c ∧ Issues s c 8 2 w)
    (eq : { s with dev := s.dev.haloIssue c put w } = t) : exec i s = .next t := by
  subst eq
  obtain ⟨rfl, rfl, go⟩ | ⟨rfl, rfl, go⟩ := h <;> exact issueOn_go go

/-- An hx.put or hx.get that finds its buffer area, in the order of its tests. -/
theorem haloIssue_area {d : Dev} {c cl base slot : Nat} {put : Bool} {w : Bytes} (area : d.haloAt c (fieldOf w 20 2) put = .area cl base slot) :
    d.haloIssue c put w =
      if !epochLegal put (fieldOf w 24 4) (d.haloWord cl base (fieldOf w 24 4 % 2)) then d.faultAt c w stInvalid
      else if fieldOf w 28 4 = 0 then d.pushEmpty c w
      else if d.wayState (dieOfCore c) (cl / 8) = 2 || d.haloBad cl base then d.pushOp c w stDeviceFault false .ready
      else if d.wayState (dieOfCore c) (cl / 8) = 0 && !(d.core c).clusterPending && d.haloMet put cl base (fieldOf w 24 4) then
        (d.pushOp c w stOK false (.descr 1)).haloGo c (d.core c).nextId put w cl base slot
      else d.pushOp c w stOK true .halo := by
  simp only [Dev.haloIssue, area]
  rfl

/-- What an hx.free that issues finds. -/
theorem exec_hxFree {s : State} {c : Nat} {w : Bytes} {e : Dev} (h : Issues s c 8 3 w)
    (eq : (match s.dev.haloAt c (fieldOf w 20 2) false with
      | .outside => s.dev.faultAt c w stInvalid
      | .edge => if fieldOf w 24 4 = ones32 then s.dev.faultAt c w stInvalid else s.dev.pushEmpty c w
      | .area cl base _ =>
        if fieldOf w 24 4 = ones32 then s.dev.faultAt c w stInvalid
        else if s.dev.wayState (dieOfCore c) (cl / 8) = 2 then s.dev.pushOp c w stDeviceFault false .ready
        else if s.dev.wayState (dieOfCore c) (cl / 8) = 1 || (s.dev.core c).clusterPending then s.dev.pushOp c w stOK false .halo
        else (s.dev.setHaloWord cl base (2 + fieldOf w 24 4 % 2) (fieldOf w 24 4)).pushOp c w stOK false .ready) = e) :
    exec (.hxFree c) s = .next { s with dev := e } :=
  issueOn_acts h (by subst eq; rfl)

/-- A field of a word is below the power of its width. -/
theorem fieldOf_lt (w : Bytes) (o n : Nat) : fieldOf w o n < 256 ^ n := by
  have below (bs : Bytes) : leNat bs < 256 ^ bs.length := by
    induction bs with
    | nil => exact Nat.one_pos
    | cons b bs ih =>
      have := b.isLt
      rw [leNat, List.length_cons, Nat.pow_succ]
      omega
  exact (below _).trans_le (Nat.pow_le_pow_right (by decide) (List.length_take_le _ _))

/-- A word of a halo's control line holds what was written to it. -/
theorem haloWord_setHaloWord (d : Dev) (cl base i : Nat) {v : Nat} (h : v < 2 ^ 64) : (d.setHaloWord cl base i v).haloWord cl base i = v := by
  have read := read_write_self (d.cluster cl).mem (base + 8 * i) (natLE 8 v)
  rw [length_natLE] at read
  rw [Dev.haloWord, Dev.setHaloWord, cluster_modCluster, Mem.nat, Mem.putNat, read, leNat_natLE]
  exact Nat.mod_eq_of_lt h

/-- Settles O24: the branches of `haloIssue`, of hx.free and of `haloPoll`. -/
theorem halosExchangeByEpoch : Obligations.HalosExchangeByEpoch := by
  refine ⟨fun s c cl base slot ep w put i issues hep => ?_, fun s c cl base slot ep w h hep => ?_, fun s c cl base slot e k up hk => ?_⟩
  · subst hep
    refine ⟨fun area legal some_ sound => ⟨fun way free met => exec_haloIssue issues ?_, fun waits => exec_haloIssue issues ?_⟩,
      fun area legal some_ fails => exec_haloIssue issues ?_, fun area legal none_ => exec_haloIssue issues ?_,
      fun area illegal => exec_haloIssue issues ?_, fun out => exec_haloIssue issues ?_,
      fun edge => ⟨fun ep => exec_haloIssue issues ?_, fun ep => exec_haloIssue issues ?_⟩, fun flag => epochLegal_iff _ _ _⟩
    · rw [haloIssue_area area, if_neg (by simp [legal]), if_neg some_, if_neg (by simp [way, sound]), if_pos (by simp [way, free, met])]
      rfl
    · rw [haloIssue_area area, if_neg (by simp [legal]), if_neg some_, if_neg, if_neg]
      · rfl
      · obtain h | ⟨h, pending | unmet⟩ := waits <;> simp [*]
      · obtain h | ⟨h, _⟩ := waits <;> simp [h, sound]
    · rw [haloIssue_area area, if_neg (by simp [legal]), if_neg some_, if_pos (by simpa using fails)]
      rfl
    · rw [haloIssue_area area, if_neg (by simp [legal]), if_pos none_]
      rfl
    · rw [haloIssue_area area, if_pos (by simp [illegal])]
      rfl
    · simp only [Dev.haloIssue, out]
      rfl
    · simp only [Dev.haloIssue, edge, if_neg ep]
      rfl
    · simp only [Dev.haloIssue, edge, if_pos ep]
      rfl
  · subst hep
    refine ⟨fun bad => exec_hxFree h ?_, fun ep edge => exec_hxFree h ?_, fun ep area => ⟨fun way free => ⟨_, exec_hxFree h rfl, ?_⟩,
      fun waits => exec_hxFree h ?_, fun down => exec_hxFree h ?_⟩⟩
    · obtain ep | out := bad
      · cases s.dev.haloAt c (fieldOf w 20 2) false with
        | outside => rfl
        | edge => exact if_pos ep
        | area => exact if_pos ep
      · rw [out]
        rfl
    · simp only [edge, if_neg ep]
      rfl
    · simp only [area, if_neg ep, way, free, Nat.reduceEqDiff, if_false, decide_false, Bool.or_false, Bool.false_eq_true]
      refine ⟨haloWord_setHaloWord _ _ _ _ (Nat.lt_trans (fieldOf_lt _ _ _) (by decide)), core_setCore .., fun cl' ne => ?_⟩
      exact cluster_modCluster_ne s.dev (fun x => { x with mem := Mem.putNat x.mem _ 8 _ }) ne
    · simp only [area, if_neg ep]
      rw [if_neg, if_pos]
      · rfl
      · obtain h | ⟨h, h'⟩ := waits <;> simp [*]
      · obtain h | ⟨h, h'⟩ := waits <;> simp [*]
    · simp only [area, if_neg ep, if_pos down]
      rfl
  · subst hk
    refine ⟨fun none_ => onCore_acts (e := s.dev) up ?_, fun one wait op free area way sound met => onCore_acts up ?_⟩
    · rw [Dev.haloPoll, List.find?_eq_none.mpr (fun e he => by simp [Dev.haloTurn, none_ e he])]
    · have turn : s.dev.haloTurn c e = .go cl base slot := by
        rw [Dev.haloTurn, if_neg (by simp [wait]), area]
        simp [way, sound, free, met]
      have first : (s.dev.core c).window.find? (fun e => s.dev.haloTurn c e != .no) = some e := by
        rw [one, List.find?_cons, turn]
        rfl
      simp only [Dev.haloPoll, first, turn]
      exact if_neg op

/-! ## A table that lists a stack twice (R258) -/

/-- A dma.copy of one row of 128 bytes from the start of the scratchpad to byte 64 of the core's own cluster memory. -/
def copyWord : Bytes :=
  [6, 1] ++ List.replicate 22 0 ++ [64] ++ List.replicate 7 0 ++ [128, 0, 0, 0, 1] ++ List.replicate 11 0 ++ [4] ++ List.replicate 15 0

/-- The program of that word alone. -/
def copyProgram : Bytes := [1, 0, 1] ++ List.replicate 61 0 ++ copyWord

/-- A state that no step reaches: the table of stacks lists stack 0 twice, first throttled and without tokens, then with an
atom drawn. It affords no change, not even one that draws no atom. -/
def throttledTwice : State :=
  ⟨{ Plat.reset with boot := .ready },
    { Dev.reset with
      parts := [(0, { Part.reset with
        layout := some Layout.shipped
        pipes := [(0, ⟨[⟨[0], 0, false, false, 0, 0, 0, none⟩], [], [], [], [], false, false, [], some (Run.fresh 0 1 1), []⟩)] })]
      cores := [(0, { Core.reset with phase := .running, run := some (0, 0, 0), progMem := copyProgram, sp := [(0, 1)] })]
      beryl := [(0, { Stack.reset with step := 1, tokens := 0 }), (0, { Stack.reset with drawn := 1 })] }, []⟩

theorem throttledTwice_issues : Issues throttledTwice 0 6 1 copyWord := by decide +kernel

/-- The word issues, its descriptor stays behind, and the cluster memory keeps its bytes. -/
theorem throttledTwice_copies_nothing :
    ((throttledTwice.dev.oneDescr 0 copyWord false (copyXfer (throttledTwice.dev.core 0).aregs copyWord) (some (fieldOf copyWord 56 4))).cluster 0).mem =
      [] := by decide +kernel

/-- Refutes O22: its last clause has no hypothesis on the stacks. Where the table of stacks lists one twice, the test of R258
finds an atom drawn that was not, and a throttled stack without tokens holds back even a copy that touches no stack. -/
theorem not_transfersMoveBytes : ¬ Obligations.TransfersMoveBytes := by
  intro ⟨issue, move⟩
  obtain ⟨t, run, mem, _⟩ := move throttledTwice 0 0 copyWord _ _ throttledTwice_issues rfl rfl (by decide +kernel) (by decide +kernel)
    (by decide +kernel) (by decide +kernel) (by decide +kernel) (by decide +kernel) (by decide +kernel) (by decide +kernel)
    (by decide +kernel) (by decide +kernel) (by decide +kernel)
  have runs := (issue throttledTwice 0 _ copyWord rfl).1 throttledTwice_issues (by decide +kernel) (by decide +kernel)
  rw [runs] at run
  obtain rfl := Host.Outcome.next.inj run
  have kept := mem.symm.trans throttledTwice_copies_nothing
  revert kept
  decide +kernel

end Sys2Proof.Machine

namespace Sys2Proof.Machine

/-! ## The request queue of a cluster with one request (R73) -/

theorem foldl_idle {α β : Type} {f : α → β → α} {l : List β} {a : α} (h : ∀ b ∈ l, f a b = a) : l.foldl f a = a := by
  induction l with
  | nil => rfl
  | cons b l ih => rw [List.foldl_cons, h b List.mem_cons_self, ih (fun x hx => h x (List.mem_cons_of_mem b hx))]

/-- The pg. words of a cluster that wait for a place are those of one core under one number, if any. -/
def Dev.PgOnly (d : Dev) (cl c id : Nat) : Prop :=
  ∀ i, i < 8 → ∀ x ∈ (d.core (8 * cl + i)).window, x.wait = .pgq → 8 * cl + i = c ∧ x.id = id

/-- No word of a cluster waits for a place. -/
def Dev.PgNone (d : Dev) (cl : Nat) : Prop := ∀ i, i < 8 → ∀ x ∈ (d.core (8 * cl + i)).window, x.wait ≠ .pgq

theorem pgLetIn_none {d : Dev} {cl : Nat} (h : d.PgNone cl) : d.pgLetIn cl = d :=
  foldl_idle (fun i hi => foldl_idle (fun x hx => if_neg (by simp [h i (List.mem_range.mp hi) x hx])))

/-- The word that has just entered the window takes the one place asked for. -/
theorem pgLetIn_pushed {d : Dev} {c cl : Nat} {w : Bytes} (hcl : cl = clusterOfCore c) (quiet : PgQuiet d cl) :
    (d.pushOp c w stOK false .pgq).pgLetIn cl = d.pgAsked c w := by
  obtain ⟨empty, none_⟩ := quiet
  have place : c = 8 * cl + c % 8 := by rw [hcl, clusterOfCore]; omega
  have core : (d.pushOp c w stOK false .pgq).core c = (d.core c).entered w stOK false .pgq d.now := core_setCore ..
  have others {i : Nat} (h : i ≠ c) : (d.pushOp c w stOK false .pgq).core i = d.core i := core_setCore_ne _ _ h
  have upTo (n : Nat) (hn : n ≤ 8) : (List.range n).foldl (fun (d : Dev) i =>
      (d.core (8 * cl + i)).window.foldl (fun (d : Dev) e =>
        let r : PgReq := ⟨8 * cl + i, e.id⟩
        if e.wait == .pgq && !(d.cluster cl).pgQ.contains r && (d.cluster cl).pgRoom (8 * cl + i) then
          d.modCluster cl (fun x => { x with pgQ := x.pgQ ++ [r] })
        else d) d) (d.pushOp c w stOK false .pgq) = if c % 8 < n then d.pgAsked c w else d.pushOp c w stOK false .pgq := by
    induction n with
    | zero => rfl
    | succ n ih =>
      rw [List.range_succ, List.foldl_concat, ih (by omega)]
      obtain before | here | after := Nat.lt_trichotomy (c % 8) n
      · rw [if_pos before, if_pos (by omega)]
        have core : (d.pgAsked c w).core (8 * cl + n) = d.core (8 * cl + n) := others (by omega)
        rw [core]
        exact foldl_idle (fun x hx => if_neg (by simp [none_ n (by omega) x hx]))
      · subst here
        rw [if_neg (by omega), if_pos (by omega), ← place, core, Core.entered, List.foldl_concat]
        rw [foldl_idle (fun x hx => if_neg (by simp [none_ (c % 8) (by omega) x (by rwa [← place])]))]
        have queue : ((d.pushOp c w stOK false .pgq).cluster cl).pgQ = [] := empty
        refine (if_pos (by simp only [queue, Cluster.pgRoom]; rfl)).trans ?_
        rw [Dev.pgAsked, ← hcl, Dev.modCluster, Dev.modCluster, queue]
        rfl
      · rw [if_neg (by omega), if_neg (by omega), others (by omega)]
        exact foldl_idle (fun x hx => if_neg (by simp [none_ n (by omega) x hx]))
  exact (upTo 8 (Nat.le_refl 8)).trans (if_pos (Nat.mod_lt _ (by decide)))

/-- The request that has been served: its word waits for no place, and it stands at the front. -/
structure Dev.PgServed (d : Dev) (cl : Nat) (r : PgReq) : Prop where
  none_ : d.PgNone cl
  front : (d.cluster cl).pgQ = [r]

/-- One turn of the service and the next, when nothing more asks: the definition by recursion on the fuel is taken apart by
`delta`, as its equations are too costly to generate. -/
theorem servePgFuel_alone {d e : Dev} {cl n : Nat} {r : PgReq} {q : Bool × Dev} (letIn : d.pgLetIn cl = e) (front : (e.cluster cl).pgQ = [r])
    (hq : e.serveFront r = q) (served : q.1 = true → q.2.PgServed cl r) :
    Dev.servePgFuel (n + 2) d cl = if q.1 then q.2.modCluster cl (fun x => { x with pgQ := x.pgQ.drop 1 }) else q.2 := by
  delta Dev.servePgFuel Dev.servePgFuel._f
  dsimp only [Nat.brecOn, Nat.brecOn.go]
  simp only [letIn, front, hq]
  by_cases hs : q.1 = true
  · obtain ⟨none_, alone⟩ := served hs
    have nothing : ((q.2.modCluster cl (fun x => { x with pgQ := x.pgQ.drop 1 })).cluster cl).pgQ = [] := by
      rw [cluster_modCluster, alone, List.drop_one, List.tail_cons]
    have letIn : (q.2.modCluster cl (fun x => { x with pgQ := x.pgQ.drop 1 })).pgLetIn cl = _ := pgLetIn_none none_
    rw [if_pos hs, if_pos hs]
    simp only [letIn, nothing]
  · rw [if_neg hs, if_neg hs]

/-- A pg. word that issues on an idle queue, by what serving it comes to. -/
theorem pgIssue_alone {d : Dev} {c cl : Nat} {w : Bytes} {q : Bool × Dev} (hcl : cl = clusterOfCore c) (quiet : PgQuiet d cl)
    (works : (d.cluster cl).failed = false) (hq : (d.pgAsked c w).serveFront ⟨c, (d.core c).nextId⟩ = q)
    (served : q.1 = true → q.2.PgServed cl ⟨c, (d.core c).nextId⟩) :
    d.pgIssue c w false = if q.1 then q.2.modCluster cl (fun x => { x with pgQ := x.pgQ.drop 1 }) else q.2 := by
  have front : ((d.pgAsked c w).cluster cl).pgQ = [⟨c, (d.core c).nextId⟩] := by rw [hcl]; exact congrArg Cluster.pgQ (cluster_modCluster ..)
  unfold Dev.pgIssue Dev.servePgOf
  dsimp only
  rw [← hcl, works, if_neg Bool.false_ne_true, if_neg Bool.false_ne_true]
  exact servePgFuel_alone (n := 254) (pgLetIn_pushed hcl quiet) front hq served

/-! ## What serving a pg. operation leaves of the queue -/

theorem pgOnly_asked {d : Dev} {c cl : Nat} {w : Bytes} (quiet : PgQuiet d cl) : (d.pgAsked c w).PgOnly cl c (d.core c).nextId := by
  intro i hi x hx pgq
  by_cases own : 8 * cl + i = c
  · subst own
    have core : (d.pgAsked (8 * cl + i) w).core (8 * cl + i) = (d.core (8 * cl + i)).entered w stOK false .pgq d.now := core_setCore ..
    rw [core] at hx
    obtain old | new := List.mem_append.mp hx
    · exact absurd pgq (quiet.2 i hi x old)
    · exact ⟨rfl, by rw [List.mem_singleton.mp new]⟩
  · have core : (d.pgAsked c w).core (8 * cl + i) = d.core (8 * cl + i) := core_setCore_ne _ _ own
    rw [core] at hx
    exact absurd pgq (quiet.2 i hi x hx)

/-- The one request of a cluster, being served: its word alone waits in the windows, and it stands at the front. -/
structure Dev.PgServing (d : Dev) (cl c id : Nat) : Prop where
  only : d.PgOnly cl c id
  front : (d.cluster cl).pgQ = [⟨c, id⟩]

theorem pgServing_asked {d : Dev} {c cl : Nat} {w : Bytes} (hcl : cl = clusterOfCore c) (quiet : PgQuiet d cl) :
    (d.pgAsked c w).PgServing cl c (d.core c).nextId :=
  ⟨pgOnly_asked quiet, by rw [hcl]; exact congrArg Cluster.pgQ (cluster_modCluster ..)⟩

theorem Dev.PgServing.of_compute {d e : Dev} {cl c id : Nat} (h : d.PgServing cl c id) (same : e.compute = d.compute) : e.PgServing cl c id :=
  ⟨fun i hi x hx => h.only i hi x (by rwa [Dev.core_of_compute same] at hx), by rw [Dev.cluster_of_compute same]; exact h.front⟩

/-- An operation that gets its status waits for no place any more. -/
theorem Dev.PgServing.settle {d : Dev} {cl c id : Nat} (h : d.PgServing cl c id) (st : Nat) (b : Bool) :
    (d.settle c id st b).PgServed cl ⟨c, id⟩ := by
  refine ⟨fun i hi x hx pgq => ?_, h.front⟩
  by_cases own : 8 * cl + i = c
  · rw [own, Dev.settle, core_modCore, List.mem_map] at hx
    obtain ⟨y, hy, rfl⟩ := hx
    by_cases same : y.id = id
    · simp [same] at pgq
    · rw [if_neg (by simpa using same)] at pgq
      exact same (h.only i hi y (by rwa [own]) pgq).2
  · rw [Dev.settle, core_modCore_ne _ _ own] at hx
    exact own (h.only i hi x hx pgq).1

theorem Dev.PgServed.setWait {d : Dev} {cl c id : Nat} {r : PgReq} (h : d.PgServed cl r) : (d.setWait c id .ledger).PgServed cl r := by
  refine ⟨fun i hi x hx pgq => ?_, h.front⟩
  by_cases own : 8 * cl + i = c
  · rw [own, Dev.setWait, core_modCore, List.mem_map] at hx
    obtain ⟨y, hy, rfl⟩ := hx
    by_cases same : y.id = id
    · simp [same] at pgq
    · rw [if_neg (by simpa using same)] at pgq
      exact h.none_ i hi y (by rwa [own]) pgq
  · rw [Dev.setWait, core_modCore_ne _ _ own] at hx
    exact h.none_ i hi x hx pgq

theorem pgPublish_served {d : Dev} {c cl : Nat} {e : Issued} (h : d.PgServing cl c e.id) : (d.pgPublish c e).PgServed cl ⟨c, e.id⟩ := by
  unfold Dev.pgPublish
  dsimp only
  split
  · exact h.settle _ _
  · split
    · exact h.settle _ _
    · split
      · exact h.settle _ _
      · exact (h.of_compute (acceptBatch_compute _ _ _ _ _)).settle _ _

theorem pgPrefetch_served {d : Dev} {c cl : Nat} {e : Issued} (h : d.PgServing cl c e.id) : (d.pgPrefetch c e).PgServed cl ⟨c, e.id⟩ := by
  unfold Dev.pgPrefetch
  dsimp only
  split
  · exact h.settle _ _
  · split
    · exact h.settle _ _
    · exact (h.of_compute (prefetchWalk_compute _ _ _ _ _ _ _)).settle _ _

theorem pgInfo_served {d : Dev} {c cl : Nat} {e : Issued} (h : d.PgServing cl c e.id) : (d.pgInfo c e).PgServed cl ⟨c, e.id⟩ := by
  unfold Dev.pgInfo
  dsimp only
  split
  · exact h.settle _ _
  · refine Dev.PgServing.settle (d := d.modCore c _) ⟨fun i hi x hx => h.only i hi x ?_, h.front⟩ _ _
    by_cases own : 8 * cl + i = c
    · rw [own, core_modCore] at hx
      rwa [own]
    · rwa [core_modCore_ne _ _ own] at hx

theorem pgAppend_served {d : Dev} {c cl : Nat} {e : Issued} (h : d.PgServing cl c e.id) (done : (d.pgAppend c e).1 = true) :
    (d.pgAppend c e).2.PgServed cl ⟨c, e.id⟩ := by
  revert done
  unfold Dev.pgAppend
  dsimp only
  split
  · exact fun _ => h.settle _ _
  · split
    · exact fun _ => (h.of_compute (e := d.modPart _ _) rfl).settle _ _
    · split
      · exact fun _ => h.settle _ _
      · split
        · exact fun _ => h.settle _ _
        · split
          · nofun
          · split
            · refine fun _ => (h.of_compute ?_).settle _ _
              split <;> exact tryAppend_compute _ _ _ _ _ _ _
            · refine fun _ => ?_
              split
              · exact (h.of_compute ((holdSeq_compute _ _ _ _ _ _).trans (tryAppend_compute _ _ _ _ _ _ _))).settle _ _
              · exact ((h.of_compute ((holdSeq_compute _ _ _ _ _ _).trans (tryAppend_compute _ _ _ _ _ _ _))).settle _ _).setWait
            · nofun

/-- The request at the front is the word that has entered the window last. -/
theorem find_entered {k : Core} {w : Bytes} {n : Nat} {e : Issued} (fresh : ∀ x ∈ k.window, x.id ≠ k.nextId)
    (newest : (k.entered w stOK false .pgq n).newest = some e) :
    (k.entered w stOK false .pgq n).window.find? (fun x => x.id == k.nextId) = some e ∧ e.id = k.nextId ∧ e.bytes = w := by
  have last : e = ⟨k.nextId, k.pc, w, footOf k.aregs w, stOK, false, .pgq, n⟩ := by simpa [Core.newest, Core.entered, eq_comm] using newest
  subst last
  refine ⟨?_, rfl, rfl⟩
  rw [Core.entered, List.find?_append, List.find?_eq_none.mpr (fun x hx => by simp [fresh x hx])]
  simp

/-! ## Appends (R212, R218) -/

theorem appendFail_beyond {q : Seq} {off n count : Nat} (h : q.regionBytes < off + n) : q.appendFail off n count = some stBounds := if_pos h

theorem appendFail_none {q : Seq} {off n count : Nat} (h : q.appendFail off n count = none) :
    off + n ≤ q.regionBytes ∧ q.tokens + count ≤ q.maxTokens ∧ ∀ e ∈ piecesOf off n, q.tokens ≤ q.tokenAt (e.1 * 65536 + e.2.1) ∧
      q.tokenAt (e.1 * 65536 + e.2.1 + e.2.2.1 - 1) < q.maxTokens := by
  revert h
  unfold Seq.appendFail
  dsimp only
  split
  · nofun
  case isFalse inside =>
    split
    · nofun
    case isFalse after =>
      split
      · nofun
      case isFalse below =>
        split
        · nofun
        case isFalse tokens =>
          simp only [List.any_eq_true, decide_eq_true_eq, not_exists, not_and, not_lt, not_le] at after below
          exact fun _ => ⟨Nat.not_lt.mp inside, Nat.not_lt.mp tokens, fun e he => ⟨after e he, below e he⟩⟩

/-- Changing entries under their own keys changes what each key finds. -/
theorem find_map_keyed {α : Type} (f : Nat → α → α) (t : Tab α) (g : Nat) :
    Tab.find (t.map (fun e => (e.1, f e.1 e.2))) g = (Tab.find t g).map (f g) := by
  induction t with
  | nil => rfl
  | cons e t ih =>
    obtain ⟨k, v⟩ := e
    by_cases h : k = g
    · subst h
      simp [Tab.find]
    · simpa [Tab.find, h] using ih

/-- The entry of a page after a sequence has advanced by some tokens. -/
def Seq.advanced (q : Seq) (n g : Nat) (e : Entry) : Entry :=
  if n ≠ 0 ∧ q.tokens / q.pageTokens ≤ q.blockOf g ∧ q.blockOf g * q.pageTokens < q.tokens + n then
    { e with tokens := q.tokensOf g (q.tokens + n) } else e

theorem advance_find (q : Seq) (n g : Nat) : Tab.find (q.advance (q.tokens + n)).entries g = (Tab.find q.entries g).map (q.advanced n g) := by
  rw [← find_map_keyed]
  unfold Seq.advance Seq.advanced
  refine congrArg (Tab.find · g) (List.map_congr_left (fun e _ => ?_))
  have moved : q.tokens ≠ q.tokens + n ↔ n ≠ 0 := by omega
  simp only [moved]
  split <;> rfl

/-- Settles O25. -/
theorem pageOperationsAndAppends : Obligations.PageOperationsAndAppends := by
  refine ⟨fun s c cl w e hcl quiet fresh works newest => ?_, fun d c p slot e q hp hq => ?_,
    fun q off n count => ⟨appendFail_beyond, appendFail_none⟩, fun q n g => ⟨rfl, advance_find q n g⟩⟩
  · obtain ⟨found, id, bytes⟩ := find_entered fresh newest
    have serving : (s.dev.pgAsked c w).PgServing cl c e.id := id ▸ pgServing_asked hcl quiet
    have served {q : Bool × Dev} (hq : (match opCode e.bytes with
        | 1 => (s.dev.pgAsked c w).pgAppend c e
        | 2 => (true, (s.dev.pgAsked c w).pgPublish c e)
        | 3 => (true, (s.dev.pgAsked c w).pgPrefetch c e)
        | _ => (true, (s.dev.pgAsked c w).pgInfo c e)) = q) (h : q.1 = true → q.2.PgServed cl ⟨c, e.id⟩) :
        s.dev.pgIssue c w false = if q.1 then q.2.modCluster cl (fun x => { x with pgQ := x.pgQ.drop 1 }) else q.2 := by
      refine pgIssue_alone hcl quiet works ?_ (id ▸ h)
      have core : (s.dev.pgAsked c w).core c = (s.dev.core c).entered w stOK false .pgq s.dev.now := core_setCore ..
      rw [Dev.serveFront, core, found]
      exact hq
    refine ⟨fun h op some_ r hr => ?_, fun h op some_ => ?_, fun h op some_ => ?_, fun h op => ?_⟩
    · refine issueOn_acts h ?_
      rw [beq_false_of_ne some_, served (q := r) (by rw [bytes, op]; exact hr.symm) (fun done => by subst hr; exact pgAppend_served serving done)]
    · refine issueOn_acts h ?_
      rw [beq_false_of_ne some_, served (by rw [bytes, op]) (fun _ => pgPublish_served serving)]
      rfl
    · refine issueOn_acts h ?_
      rw [beq_false_of_ne some_, served (by rw [bytes, op]) (fun _ => pgPrefetch_served serving)]
      rfl
    · refine issueOn_acts h ?_
      rw [served (by rw [bytes, op]) (fun _ => pgInfo_served serving)]
      rfl
  · subst hp
    refine ⟨?_, fun here recs hrecs passes => ?_, fun moving => ?_, fun idle => ?_, fun idle => ⟨?_, ?_⟩, fun act st fails => ?_⟩
    · simp only [Dev.pgInfo, hq]
    · subst hrecs
      simp only [Dev.pgPublish, hq, passes]
      exact if_neg (by obtain h | h := here <;> simp [h])
    · simp only [Dev.pgPublish, hq]
      exact if_pos moving
    · simp only [Dev.pgPrefetch, Dev.liveSeq, hq, if_neg idle]
    · simp only [Dev.pgAppend, hq]
      exact if_pos idle
    · unfold Seq.refuse
      split <;> rfl
    · simp only [Dev.pgAppend, hq, fails]
      exact if_neg (by simp [act])

end Sys2Proof.Machine

namespace Sys2Proof.Machine

/-! ## cnt. words (R101, R167 to R170, R283, R284) -/

/-- What a cnt. operation does to its cluster: counters and bits by its row, the old value, the condition. -/
theorem cntAtomic_eq (op : Nat) (w : Bytes) (x : Cluster) : 1 ≤ op ∧ op ≤ 7 → cntAtomic op w x =
    ({ x with
        work := match op with
          | 1 => Tab.put x.work (fieldOf w 16 2) ((Tab.getD x.work (fieldOf w 16 2) 0 + 1) % 2 ^ 64)
          | 2 => Tab.put x.work (fieldOf w 16 2) ((Tab.getD x.work (fieldOf w 16 2) 0 + fieldOf w 24 8) % 2 ^ 64)
          | 3 => if Tab.getD x.work (fieldOf w 16 2) 0 = fieldOf w 24 8 then Tab.put x.work (fieldOf w 16 2) (fieldOf w 32 8) else x.work
          | _ => x.work
        credit := if op = 7 then Tab.put x.credit (fieldOf w 16 2) ((Tab.getD x.credit (fieldOf w 16 2) 0 + fieldOf w 24 8) % 2 ^ 64) else x.credit
        bits := match op with
          | 5 => if Tab.getD x.bits (fieldOf w 16 2) 0 % 4 = 0 then Tab.put x.bits (fieldOf w 16 2) 2 else x.bits
          | 6 => if Tab.getD x.bits (fieldOf w 16 2) 0 % 2 = 0 then
              Tab.put x.bits (fieldOf w 16 2) (Tab.getD x.bits (fieldOf w 16 2) 0 % 4 + 1) else x.bits
          | _ => x.bits },
      (if op = 7 then Tab.getD x.credit (fieldOf w 16 2) 0
        else if op = 5 ∨ op = 6 then x.bitWord (fieldOf w 16 2) else Tab.getD x.work (fieldOf w 16 2) 0),
      (match op with
        | 1 => decide (Tab.getD x.work (fieldOf w 16 2) 0 < fieldOf w 24 8)
        | 3 => Tab.getD x.work (fieldOf w 16 2) 0 == fieldOf w 24 8
        | 5 => Tab.getD x.bits (fieldOf w 16 2) 0 % 4 == 0
        | 6 => Tab.getD x.bits (fieldOf w 16 2) 0 % 2 == 0
        | _ => false)) := by
  have mod (n : Nat) : n % 4 % 2 = n % 2 := Nat.mod_mod_of_dvd n (by decide)
  rintro ⟨h1, h7⟩
  have tested_or_plain : (op = 3 ∨ op = 5 ∨ op = 6) ∨ op = 1 ∨ op = 2 ∨ op = 4 ∨ op = 7 := by omega
  rcases tested_or_plain with tested | plain
  · rcases tested with rfl | rfl | rfl <;> simp only [cntAtomic, mod] <;> split <;> rfl
  · rcases plain with rfl | rfl | rfl | rfl <;> rfl

/-- A device that differs in what a core notes of steals, and in what the partitions count. -/
def Dev.SameButSteals (d e : Dev) (c : Nat) : Prop :=
  (∃ a b, e.core c = { d.core c with stealAt := a, causes := b }) ∧ e.clusters = d.clusters ∧ e.wayState = d.wayState


/-- The core and the cluster after a cnt. operation over a link that is up. -/
theorem cntOp_up {d : Dev} {c op cl : Nat} {w : Bytes} (hcl : cl = cntCluster c w)
    (way : d.wayState (dieOfCore c) (cl / 8) = 0) :
    (d.cntOp c op w).cluster cl = (cntAtomic op w (d.cluster cl)).1 ∧ (∀ cl', cl' ≠ cl → (d.cntOp c op w).cluster cl' = d.cluster cl') ∧
    (d.cntOp c op w).core c = ({ d.core c with
      sp := if hasRef w 20 then Mem.putNat (d.core c).sp ((d.core c).ref w 20) 8 (cntAtomic op w (d.cluster cl)).2.1 else (d.core c).sp } : Core).entered
        w stOK (cntAtomic op w (d.cluster cl)).2.2 .ready d.now := by
  subst hcl
  unfold Dev.cntOp
  dsimp only
  rw [if_neg (by rw [way]; decide)]
  split
  · refine ⟨cluster_setCluster _ _ _, fun cl' ne => cluster_setCluster_ne _ _ ne, ?_⟩
    rw [pushOp_eq, core_setCore, core_modCore]
    rfl
  · exact ⟨cluster_setCluster _ _ _, fun cl' ne => cluster_setCluster_ne _ _ ne, core_setCore _ _ _⟩

theorem cntOp_down {d : Dev} {c op : Nat} {w : Bytes} (way : d.wayState (dieOfCore c) (cntCluster c w / 8) = 2) :
    d.cntOp c op w = d.pushOp c w stDeviceFault false .ready := if_pos way

theorem stolen_eq (k : Core) (key now : Nat) : ∃ a b, k.stolen key now = { k with stealAt := a, causes := b } := by
  unfold Core.stolen
  split
  · exact ⟨_, _, rfl⟩
  · exact ⟨_, _, rfl⟩

/-- A commit is its operation, with its steal noted; one that is lost over a link that is up may wait for the ledger. -/
theorem cntCommit_eq (d : Dev) (c : Nat) (w : Bytes) : ∃ e t : Dev, (d.SameButSteals e c ∧ d.cntCommit c w = t) ∧ t.clusters = (e.cntOp c 6 w).clusters ∧
    (t.core c = (e.cntOp c 6 w).core c ∨ d.wayState (dieOfCore c) (cntCluster c w / 8) ≠ 2 ∧ t.core c = { (e.cntOp c 6 w).core c with
      window := ((e.cntOp c 6 w).core c).window.map (fun x => if x.id == (d.core c).nextId then { x with wait := .ledger } else x) }) := by
  refine ⟨d.modCore c (fun k => k.stolen (stealKey (cntCluster c w) (fieldOf w 16 2)) d.now), _, ⟨⟨?_, rfl, rfl⟩, rfl⟩, ?_⟩
  · rw [core_modCore]
    exact stolen_eq _ _ _
  · unfold Dev.cntCommit
    dsimp only
    split
    case h_1 lost run =>
      have up : d.wayState (dieOfCore c) (cntCluster c w / 8) ≠ 2 := by
        rw [Bool.and_eq_true, bne_iff_ne] at lost
        exact lost.2
      split
      · exact ⟨congrArg Prod.snd (ledgerAdd_compute _ _ _), .inl (Dev.core_of_compute (ledgerAdd_compute _ _ _) c)⟩
      · refine ⟨congrArg Prod.snd (ledgerAdd_compute _ _ _), .inr ⟨up, ?_⟩⟩
        rw [Dev.setWait, core_modCore, Dev.core_of_compute (ledgerAdd_compute _ _ _) c]
        rfl
    · exact ⟨rfl, .inl rfl⟩

/-- What a cnt. word that issues over a link that does not retrain comes to: its operation, but for what is noted of steals
and counted; a commit that is lost may wait for the ledger. -/
theorem exec_cnt {s : State} {c op cl : Nat} {w : Bytes} {n : Instr}
    (hn : n = .cntClaim c ∧ op = 1 ∨ n = .cntAdd c ∧ op = 2 ∨ n = .cntCas c ∧ op = 3 ∨ n = .cntRead c ∧ op = 4 ∨
      n = .cntSteal c ∧ op = 5 ∨ n = .cntCommit c ∧ op = 6 ∨ n = .cntCredit c ∧ op = 7)
    (h : Issues s c 7 op w) (hcl : cl = cntCluster c w) (way : s.dev.wayState (dieOfCore c) (cl / 8) ≠ 1) :
    ∃ d e t : Dev, exec n s = .next { s with dev := t } ∧ s.dev.SameButSteals d c ∧ e = d.cntOp c op w ∧ t.clusters = e.clusters ∧
      (t.core c = e.core c ∨ s.dev.wayState (dieOfCore c) (cl / 8) ≠ 2 ∧
        t.core c = { e.core c with window := (e.core c).window.map (fun x => if x.id == (s.dev.core c).nextId then { x with wait := .ledger } else x) }) := by
  subst hcl
  have same : s.dev.SameButSteals s.dev c := ⟨⟨_, _, rfl⟩, rfl, rfl⟩
  obtain ⟨rfl, rfl⟩ | ⟨rfl, rfl⟩ | ⟨rfl, rfl⟩ | ⟨rfl, rfl⟩ | ⟨rfl, rfl⟩ | ⟨rfl, rfl⟩ | ⟨rfl, rfl⟩ := hn
  · refine ⟨_, _, _, issueOn_acts h (if_neg way), ?_, rfl, rfl, .inl rfl⟩
    split
    · split
      · exact ⟨⟨_, _, rfl⟩, rfl, rfl⟩
      · exact same
    · exact same
  · exact ⟨_, _, _, issueOn_acts h (if_neg way), same, rfl, rfl, .inl rfl⟩
  · exact ⟨_, _, _, issueOn_acts h (if_neg way), same, rfl, rfl, .inl rfl⟩
  · exact ⟨_, _, _, issueOn_acts h (if_neg way), same, rfl, rfl, .inl rfl⟩
  · refine ⟨_, _, _, issueOn_acts h (if_neg way), ?_, rfl, rfl, .inl rfl⟩
    split
    · exact ⟨⟨_, _, core_modCore _ _ _⟩, rfl, rfl⟩
    · exact same
  · obtain ⟨u, t, eq, clusters, core⟩ := cntCommit_eq s.dev c w
    exact ⟨u, _, t, issueOn_acts h ((if_neg way).trans eq.2), eq.1, rfl, clusters, core⟩
  · exact ⟨_, _, _, issueOn_acts h (if_neg way), same, rfl, rfl, .inl rfl⟩

/-- Waiting for the ledger changes neither the status nor the condition of the newest operation. -/
theorem newest_waits (k : Core) (id : Nat) : (({ k with
    window := k.window.map (fun x => if x.id == id then { x with wait := .ledger } else x) } : Core).newest.map (fun e => (e.status, e.cond))) =
      k.newest.map (fun e => (e.status, e.cond)) := by
  rw [Core.newest, List.getLast?_map, Option.map_map]
  refine congrArg (Option.map · _) (funext fun e => ?_)
  dsimp only [Function.comp]
  split <;> rfl

/-- Settles O26. -/
theorem countersRun : Obligations.CountersRun := by
  intro s c op cl i v w x n hn issues hcl hx hi hv
  subst hx hi hv
  have range : 1 ≤ op ∧ op ≤ 7 := by omega
  refine ⟨fun busy => ?_, fun up => ?_, fun down => ?_⟩
  · subst hcl
    obtain ⟨rfl, rfl⟩ | ⟨rfl, rfl⟩ | ⟨rfl, rfl⟩ | ⟨rfl, rfl⟩ | ⟨rfl, rfl⟩ | ⟨rfl, rfl⟩ | ⟨rfl, rfl⟩ := hn <;>
      exact issueOn_idle issues (if_pos busy)
  · obtain ⟨d, e, t, run, ⟨⟨a, b, core⟩, clusters, links⟩, he, tables, last⟩ := exec_cnt hn issues hcl (by rw [up]; decide)
    obtain ⟨own, others, after⟩ := cntOp_up (d := d) (op := op) hcl (by rw [links]; exact up)
    have same (cl : Nat) : d.cluster cl = s.dev.cluster cl := congrArg (Tab.getD · cl Cluster.reset) clusters
    have after_ (cl : Nat) : t.cluster cl = (d.cntOp c op w).cluster cl := he ▸ congrArg (Tab.getD · cl Cluster.reset) tables
    rw [same, cntAtomic_eq _ _ _ range] at own after
    refine ⟨_, run, ?_⟩
    subst he
    rw [after] at last
    rw [after_, own]
    refine ⟨rfl, ?_, rfl, ?_, ?_, ?_, fun cl' ne => (after_ cl').trans ((others cl' ne).trans (same cl'))⟩
    · rfl
    · have newest (k : Core) (cond : Bool) (n : Nat) : (k.entered w stOK cond .ready n).newest.map (fun e => (e.status, e.cond)) = some (stOK, cond) := by
        simp [Core.newest, Core.entered]
      obtain last | ⟨_, last⟩ := last
      · exact (congrArg (fun k : Core => k.newest.map _) last).trans (newest _ _ _)
      · exact (congrArg (fun k : Core => k.newest.map _) last).trans ((newest_waits _ _).trans (newest _ _ _))
    · obtain last | ⟨_, last⟩ := last <;> rw [last] <;> simp only [Core.entered, core] <;> rfl
    · obtain last | ⟨_, last⟩ := last <;> rw [last] <;> simp only [Core.entered, core]
  · obtain ⟨d, e, t, run, ⟨⟨a, b, core⟩, clusters, links⟩, he, tables, last⟩ := exec_cnt hn issues hcl (by rw [down]; decide)
    refine ⟨_, run, ?_⟩
    subst hcl
    rw [cntOp_down (by rw [links]; exact down)] at he
    subst he
    have last := last.resolve_right (fun h => h.1 down)
    rw [pushOp_eq, core_setCore, core] at last
    rw [last]
    refine ⟨by simp [Core.newest, Core.entered], rfl, rfl, tables.trans clusters⟩

/-! ## The ledger (R73, R130 to R133) -/

theorem count_ledger (d : Dev) (p i n q : Nat) : ((d.count p i n).part q).ledger = (d.part q).ledger := by
  unfold Dev.count
  split
  · rfl
  · by_cases h : q = p
    · subst h
      rw [part_modPart]
    · rw [part_modPart_ne _ _ h]

theorem queueEvents_ledger (d : Dev) (p code d0 d1 q : Nat) : ((d.queueEvents p code d0 d1).part q).ledger = (d.part q).ledger := by
  refine foldl_keeps (fun d : Dev => (d.part q).ledger) _ (fun d f => ?_) _ d
  unfold Dev.queueEvent
  dsimp only
  split
  · rfl
  · split
    · exact count_ledger _ _ _ _ _
    · rfl

theorem partEvent_ledger (d : Dev) (p : Nat) (e : EventRec) : ((d.partEvent p e).part p).ledger = (d.part p).ledger := by
  rw [Dev.partEvent, count_ledger, part_modPart]

/-- The events of a filling ledger change nothing of it but that they have been sent. -/
theorem ledgerLevels_ledger (d : Dev) (p : Nat) : ∃ a b, ((d.ledgerLevels p).part p).ledger = { (d.part p).ledger with threeQuarter := a, full := b } := by
  have event (d : Dev) (e : EventRec) (code d0 d1 : Nat) (f : Part → Part) :
      ((((d.modPart p f).partEvent p e).queueEvents p code d0 d1).part p).ledger = (f (d.part p)).ledger := by
    rw [queueEvents_ledger, partEvent_ledger, part_modPart]
  unfold Dev.ledgerLevels
  dsimp only
  split <;> split
  case isFalse.isFalse => exact ⟨_, _, rfl⟩
  all_goals
    simp only [event]
    exact ⟨_, _, rfl⟩

/-- A record put in a free entry comes last. -/
theorem ledgerPut_ledger (d : Dev) (p : Nat) (r : LedgerRec) : ((d.ledgerPut p r).part p).ledger.recs = (d.part p).ledger.recs ++ [r] ∧
    ((d.ledgerPut p r).part p).ledger.staged = (d.part p).ledger.staged ∧ ((d.ledgerPut p r).part p).ledger.held = (d.part p).ledger.held := by
  obtain ⟨a, b, levels⟩ := ledgerLevels_ledger (d.modPart p (fun x => { x with ledger := { x.ledger with recs := x.ledger.recs ++ [r] } })) p
  rw [Dev.ledgerPut, levels, part_modPart]
  exact ⟨rfl, rfl, rfl⟩

theorem wait_recs (l : Ledger) (r : LedgerRec) : (l.wait r).recs = l.recs := by
  unfold Ledger.wait
  split <;> rfl

/-- A record that is not of kind 2: placed where an unreserved entry is free and none waits, else waiting (R73, R133). -/
theorem ledgerAdd_placed {d : Dev} {p : Nat} {r : LedgerRec} (kind : r.kind ≠ 2) (free : (d.part p).ledger.recs.length < 1044480)
    (none_ : (d.part p).ledger.staged = []) :
    (d.ledgerAdd p r).1 = true ∧ ((d.ledgerAdd p r).2.part p).ledger.recs = (d.part p).ledger.recs ++ [r] := by
  have other : ¬ (r.kind = 2 ∧ bitOf (fieldOf r.detail 1 1) 0 = true) := fun h => kind h.1
  have counted : ((d.ledgerCount p (kindCounter r.kind) 1).part p).ledger.recs = (d.part p).ledger.recs ∧
      ((d.ledgerCount p (kindCounter r.kind) 1).part p).ledger.staged = (d.part p).ledger.staged := by
    rw [Dev.ledgerCount, part_modPart]
    exact ⟨rfl, rfl⟩
  have now : d.ledgerAdd p r = (true, (d.ledgerCount p (kindCounter r.kind) 1).ledgerPut p r) := by
    simp only [Dev.ledgerAdd, if_neg other]
    exact if_pos ⟨by rw [counted.1]; exact free, by rw [counted.2, none_]⟩
  rw [now, (ledgerPut_ledger _ _ _).1, counted.1]
  exact ⟨rfl, rfl⟩

theorem ledgerAdd_waits {d : Dev} {p : Nat} {r : LedgerRec} (kind : r.kind ≠ 2)
    (full : (d.part p).ledger.staged ≠ [] ∨ 1044480 ≤ (d.part p).ledger.recs.length) :
    (d.ledgerAdd p r).1 = false ∧ ((d.ledgerAdd p r).2.part p).ledger.recs = (d.part p).ledger.recs := by
  have other : ¬ (r.kind = 2 ∧ bitOf (fieldOf r.detail 1 1) 0 = true) := fun h => kind h.1
  have counted (d : Dev) (i : Nat) : ((d.ledgerCount p i 1).part p).ledger.recs = (d.part p).ledger.recs ∧
      ((d.ledgerCount p i 1).part p).ledger.staged = (d.part p).ledger.staged := by
    rw [Dev.ledgerCount, part_modPart]
    exact ⟨rfl, rfl⟩
  have later : d.ledgerAdd p r = (false, ((d.ledgerCount p (kindCounter r.kind) 1).modPart p (fun x => { x with ledger := x.ledger.wait r })).ledgerCount p 8 1) := by
    simp only [Dev.ledgerAdd, if_neg other]
    refine if_neg ?_
    rw [(counted _ _).1, (counted _ _).2]
    rintro ⟨free, none_⟩
    obtain some_ | full := full
    · exact some_ none_
    · exact Nat.not_lt.mpr full free
  rw [later, (counted _ _).1, part_modPart]
  exact ⟨rfl, (wait_recs _ _).trans (counted _ _).1⟩

theorem opRecord_fields (d : Dev) (c kind word op tag : Nat) (det : Bytes) : (d.opRecord c kind word op tag det).kind = kind ∧
    (d.opRecord c kind word op tag det).core = c ∧ (d.opRecord c kind word op tag det).word = word := by
  unfold Dev.opRecord
  split <;> exact ⟨rfl, rfl, rfl⟩

/-- A commit that is lost, of a core in a run: its record is added, and while it waits so does the operation (R170). -/
theorem cntCommit_lost {d : Dev} {c cl i p slot st : Nat} {w : Bytes} (hcl : cl = cntCluster c w) (hi : i = fieldOf w 16 2)
    (way : d.wayState (dieOfCore c) (cl / 8) = 0) (twice : Tab.getD (d.cluster cl).bits i 0 % 4 = 3) (run : (d.core c).run = some (p, slot, st)) :
    ∃ (e : Dev) (r : LedgerRec), d.cntCommit c w = (if (e.ledgerAdd p r).1 then (e.ledgerAdd p r).2 else (e.ledgerAdd p r).2.setWait c (d.core c).nextId .ledger) ∧
      e.parts = d.parts ∧ (r.kind, r.core, r.word) = (5, c, (d.core c).pc) ∧ ((e.core c).newest.map (·.id)) = some (d.core c).nextId := by
  subst hcl hi
  have lost : (Tab.getD (d.cluster (cntCluster c w)).bits (fieldOf w 16 2) 0 % 4 == 3 && d.wayState (dieOfCore c) (cntCluster c w / 8) != 2) = true := by
    rw [twice, way]
    rfl
  have commit : d.cntCommit c w = d.cntCommit c w := rfl
  conv at commit => rhs; unfold Dev.cntCommit
  simp only [lost, run] at commit
  refine ⟨_, _, commit, ?_, ?_, ?_⟩
  · unfold Dev.cntOp
    dsimp only
    split
    · rfl
    · split <;> rfl
  · obtain ⟨kind, core, word⟩ := opRecord_fields ((d.modCore c (fun k => k.stolen (stealKey (cntCluster c w) (fieldOf w 16 2)) d.now)).cntOp c 6 w)
      c 5 (d.core c).pc (d.nextOp c) (opDebugTag w) (natLE 2 (fieldOf w 16 2) ++ natLE 1 (cntCluster c w % 8 + 8 * (cntCluster c w / 8)) ++ List.replicate 29 0)
    rw [kind, core, word]
  · obtain ⟨a, b, stolen⟩ := stolen_eq (d.core c) (stealKey (cntCluster c w) (fieldOf w 16 2)) d.now
    have after := (cntOp_up (d := d.modCore c (fun k => k.stolen (stealKey (cntCluster c w) (fieldOf w 16 2)) d.now)) (op := 6) rfl way).2.2
    rw [after, core_modCore, stolen]
    simp [Core.newest, Core.entered]

/-- The operation of a record that no longer waits goes on: no ledger changes. -/
theorem ledgerGo_parts (d : Dev) (p : Nat) (r : LedgerRec) : (d.ledgerGo p r).parts = d.parts := by
  unfold Dev.ledgerGo
  dsimp only
  split
  · rfl
  · split <;> rfl

/-- Staging without its oldest record (R73). -/
theorem unstage_eq {l : Ledger} {r : LedgerRec} {rest : List LedgerRec} (h : l.staged = r :: rest) : l.unstage =
    match l.held.find? { l with staged := rest }.stagingRoom with
    | some x => { l with staged := rest ++ [x], held := l.held.erase x }
    | none => { l with staged := rest } := by
  unfold Ledger.unstage
  rw [h]
  rfl

/-- Settles O27. -/
theorem ledgerRecordsArePlaced : Obligations.LedgerRecordsArePlaced := by
  refine ⟨fun s c cl i p slot st w issues hcl hi way twice run => ?_, fun s p r rest ⟨up, unit⟩ => ⟨fun none_ => ?_, fun some_ full => ?_, fun some_ free => ?_⟩⟩
  · obtain ⟨e, r, commit, parts, fields, newest⟩ := cntCommit_lost hcl hi way twice run
    have runs : exec (.cntCommit c) s = .next { s with dev := s.dev.cntCommit c w } :=
      issueOn_acts issues (if_neg (by rw [← hcl, way]; decide))
    have part : e.part p = s.dev.part p := congrArg (Tab.getD · p Part.reset) parts
    obtain ⟨kind, core, word⟩ : r.kind = 5 ∧ r.core = c ∧ r.word = (s.dev.core c).pc := by simpa using fields
    refine ⟨fun full => ⟨_, runs, ?_⟩, fun none_ free => ⟨_, runs, ?_⟩⟩
    · obtain ⟨waits, recs⟩ := ledgerAdd_waits (d := e) (p := p) (r := r) (by rw [kind]; decide) (by rw [part]; exact full)
      rw [commit, waits]
      refine ⟨?_, recs.trans (by rw [part])⟩
      rw [if_neg Bool.false_ne_true, Dev.setWait, core_modCore, Dev.core_of_compute (ledgerAdd_compute _ _ _), Core.newest, List.getLast?_map]
      cases last : (e.core c).window.getLast? with
      | none => simp [Core.newest, last] at newest
      | some x => simp_all [Core.newest]
    · obtain ⟨placed, recs⟩ := ledgerAdd_placed (d := e) (p := p) (r := r) (by rw [kind]; decide) (by rw [part]; exact free) (by rw [part]; exact none_)
      rw [commit, placed, if_pos rfl, recs, part]
      simp [kind, core, word]
  · refine onUnit_acts (e := s.dev) up (decide_eq_true unit) ?_
    simp only [none_]
  · refine onUnit_acts (e := s.dev) up (decide_eq_true unit) ?_
    simp only [some_]
    exact if_neg (Nat.not_lt.mpr full)
  · refine ⟨_, onUnit_acts up (decide_eq_true unit) rfl, ?_⟩
    simp only [some_]
    rw [if_pos (show _ < ledgerSize - ledgerReserved from free)]
    obtain ⟨recs, staged, held⟩ := ledgerPut_ledger (s.dev.modPart p (fun x => { x with ledger := x.ledger.unstage })) p r
    have part : ((((s.dev.modPart p (fun x => { x with ledger := x.ledger.unstage })).ledgerPut p r).ledgerGo p r).part p) =
        ((s.dev.modPart p (fun x => { x with ledger := x.ledger.unstage })).ledgerPut p r).part p :=
      congrArg (Tab.getD · p Part.reset) (ledgerGo_parts _ _ _)
    rw [part, recs, staged, held, part_modPart]
    dsimp only
    rw [unstage_eq some_]
    refine ⟨?_, fun none_ => ?_, fun h found => ?_⟩
    · split <;> rfl
    · rw [none_]
      rfl
    · rw [found]
      exact ⟨rfl, rfl⟩

end Sys2Proof.Machine

namespace Sys2Proof.Machine

/-! ## Channels (R60, R105, R283, R284) -/

theorem noteWritten_compute (d : Dev) (c space a n : Nat) : (d.noteWritten c space a n).compute = d.compute := by
  unfold Dev.noteWritten
  split
  · rfl
  · refine foldl_keeps Dev.compute _ (fun d e => ?_) _ d
    dsimp only
    split <;> rfl

theorem carried_compute (d : Dev) (a b n : Nat) : (d.carried a b n).compute = d.compute := by
  unfold Dev.carried
  split <;> rfl

theorem noteWritten_now (d : Dev) (c space a n : Nat) : (d.noteWritten c space a n).now = d.now := by
  unfold Dev.noteWritten
  split
  · rfl
  · refine foldl_keeps Dev.now _ (fun d e => ?_) _ d
    dsimp only
    split <;> rfl

theorem carried_now (d : Dev) (a b n : Nat) : (d.carried a b n).now = d.now := by
  unfold Dev.carried
  split <;> rfl

/-- Correcting the words of a send's source changes neither bytes nor channels (R52). -/
theorem correctedSource (d : Dev) (src : Endpoint) (n cl : Nat) {e : Dev}
    (he : e = if src.space = 1 then d.modCluster src.cluster (fun x => x.corrected src.addr n) else d) :
    (e.cluster cl).mem = (d.cluster cl).mem ∧ (e.cluster cl).chan = (d.cluster cl).chan ∧ e.cores = d.cores ∧ e.now = d.now := by
  subst he
  split
  · by_cases h : cl = src.cluster
    · subst h
      rw [cluster_modCluster]
      exact ⟨rfl, rfl, rfl, rfl⟩
    · rw [cluster_modCluster_ne _ _ h]
      exact ⟨rfl, rfl, rfl, rfl⟩
  · exact ⟨rfl, rfl, rfl, rfl⟩

/-- What a send leaves: the bytes in the memory, the count of the channel, the operation in the window. -/
theorem sent {d e : Dev} {c cl ch n x y x' y' : Nat} {off : Nat} {w bs : Bytes}
    (mem : (e.cluster cl).mem = (d.cluster cl).mem) (chan : (e.cluster cl).chan = (d.cluster cl).chan) (cores : e.cores = d.cores) (now : e.now = d.now)
    {t : Dev} (ht : t = ((((e.modCluster cl (fun x => { x.store off bs with
      chan := Tab.put x.chan ch ((Tab.getD x.chan ch 0 + n) % 2 ^ 64) })).carried x y n).carried x' y' n).noteWritten c 1 (clusterPlace cl off) n).pushOp
        c w stOK false .ready) :
    (t.cluster cl).mem = Mem.write (d.cluster cl).mem off bs ∧
      Tab.getD (t.cluster cl).chan ch 0 = (Tab.getD (d.cluster cl).chan ch 0 + n) % 2 ^ 64 ∧
      t.core c = (d.core c).entered w stOK false .ready d.now := by
  subst ht
  generalize hv : (((e.modCluster cl (fun x => { x.store off bs with
      chan := Tab.put x.chan ch ((Tab.getD x.chan ch 0 + n) % 2 ^ 64) })).carried x y n).carried x' y' n).noteWritten c 1 (clusterPlace cl off) n = v
  have same : v.compute = (e.modCluster cl (fun x => { x.store off bs with
      chan := Tab.put x.chan ch ((Tab.getD x.chan ch 0 + n) % 2 ^ 64) })).compute := by
    subst hv
    exact (noteWritten_compute _ _ _ _ _).trans ((carried_compute _ _ _ _).trans (carried_compute _ _ _ _))
  have time : v.now = d.now := by
    subst hv
    exact (noteWritten_now _ _ _ _ _).trans ((carried_now _ _ _ _).trans ((carried_now _ _ _ _).trans now))
  have there : (v.pushOp c w stOK false .ready).cluster cl = { (e.cluster cl).store off bs with
      chan := Tab.put (e.cluster cl).chan ch ((Tab.getD (e.cluster cl).chan ch 0 + n) % 2 ^ 64) } :=
    (Dev.cluster_of_compute same cl).trans (cluster_modCluster ..)
  have core : v.core c = d.core c := (Dev.core_of_compute same c).trans (congrArg (Tab.getD · c Core.reset) cores)
  rw [there, pushOp_eq, core_setCore, core, time]
  refine ⟨?_, ?_, rfl⟩
  · rw [← mem]
    rfl
  · rw [← chan]
    exact Tab.getD_put_self _ _ _ _

theorem chanOf_takeChan (d : Dev) (c ch n : Nat) : (d.takeChan c ch n).chanOf c ch = d.chanOf c ch - n := by
  rw [Dev.chanOf, Dev.takeChan, cluster_modCluster]
  exact Tab.getD_put_self _ _ _ _

/-- What a col.send that issues does, in the order of its tests. -/
theorem exec_colSend {s : State} {c n : Nat} {w : Bytes} {src dst : Endpoint} {way : Nat} {e : Dev} (h : Issues s c 10 1 w) (hn : n = fieldOf w 32 4)
    (hsrc : src = endpoint (bitsOf (fieldOf w 38 1) 1 0) (fieldOf w 16 8) 0) (hdst : dst = endpoint 1 (fieldOf w 24 8) 0)
    (hway : way = max (s.dev.wayState (dieOfCore c) (dst.cluster / 8))
      (s.dev.wayState (if src.space = 0 then dieOfCore c else src.cluster / 8) (dieOfCore c)))
    (he : e = if src.space = 1 then s.dev.modCluster src.cluster (fun x => x.corrected src.addr n) else s.dev) :
    exec (.colSend c) s = .next { s with dev := (
      if n = 0 then s.dev.pushEmpty c w
      else if way = 1 || (s.dev.core c).clusterPending then s.dev
      else if way = 2 || (src.space == 1 && !(wordsIn (s.dev.cluster src.cluster).bad src.addr n).isEmpty) then
        s.dev.pushOp c w stDeviceFault false .ready
      else
        ((((e.modCluster dst.cluster (fun x => { x.store dst.addr (if src.space = 0 then Mem.read (s.dev.core c).sp src.addr n
            else Mem.read (s.dev.cluster src.cluster).mem src.addr n) with
          chan := Tab.put x.chan (fieldOf w 36 2) ((Tab.getD x.chan (fieldOf w 36 2) 0 + n) % 2 ^ 64) })).carried
            (dieOfCore c) (dst.cluster / 8) n).carried (if src.space = 0 then dieOfCore c else src.cluster / 8) (dieOfCore c) n).noteWritten
            c 1 (clusterPlace dst.cluster dst.addr) n).pushOp c w stOK false .ready) } := by
  subst hn hsrc hdst hway he
  exact issueOn_go h

/-- The first col.recv of a window whose count is reached: its number, channel and bytes. -/
def Dev.recvMet (d : Dev) (c : Nat) : Option (Nat × Nat × Nat) :=
  (d.core c).window.findSome? (fun e => match e.wait with
    | .recv ch n => if n ≤ d.chanOf c ch then some (e.id, ch, n) else none
    | _ => none)

theorem exec_colRecvSatisfied {s : State} {c : Nat} (up : CoreUp s c) : exec (.colRecvSatisfied c) s = .next { s with
    dev := (s.dev.recvMet c).elim s.dev (fun m => (s.dev.takeChan c m.2.1 m.2.2).settle c m.1 stOK false) } := by
  refine onCore_acts up ?_
  change (match s.dev.recvMet c with
    | some (id, ch, n) => (s.dev.takeChan c ch n).settle c id stOK false
    | none => s.dev) = _
  cases s.dev.recvMet c <;> rfl

theorem recvMet_one {d : Dev} {c ch n : Nat} {e : Issued} (one : (d.core c).window = [e]) (wait : e.wait = .recv ch n) (there : n ≤ d.chanOf c ch) :
    d.recvMet c = some (e.id, ch, n) := by
  simp [Dev.recvMet, one, wait, there]

theorem recvMet_none {d : Dev} {c : Nat} (none_ : ∀ e ∈ (d.core c).window, ∀ a b, e.wait ≠ .recv a b) : d.recvMet c = none := by
  refine List.findSome?_eq_none_iff.mpr (fun e he => ?_)
  split
  case h_1 a b waits => exact absurd waits (none_ e he a b)
  · rfl

/-- Settles O28. -/
theorem channelsDeliver : Obligations.ChannelsDeliver := by
  refine ⟨fun s c n ch w src dst hn hch hsrc hdst => ⟨fun zero => ⟨fun h => ?_, fun h => ?_⟩, fun some_ => ⟨fun h way hway => ⟨fun held => ?_,
    fun free fails => ?_, fun free up sound bs hbs => ?_⟩, fun h there => ?_, fun h less => ?_⟩⟩, fun s c ch n e up => ⟨fun one wait there => ?_, fun none_ => ?_⟩⟩
  · exact (exec_colSend h hn hsrc hdst rfl rfl).trans (next_dev (if_pos zero))
  · exact issueOn_acts h (if_pos (hn ▸ zero))
  · exact (exec_colSend h hn hsrc hdst hway rfl).trans (next_dev ((if_neg some_).trans (if_pos (by simpa using held))))
  · refine (exec_colSend h hn hsrc hdst hway rfl).trans (next_dev ((if_neg some_).trans ((if_neg ?_).trans (if_pos ?_))))
    · obtain two | ⟨zero, _⟩ := fails
      · simp [two, free]
      · simp [zero, free]
    · obtain two | ⟨zero, one, bad⟩ := fails
      · simp [two]
      · simp [zero, one, bad]
  · refine ⟨_, (exec_colSend h hn hsrc hdst hway rfl).trans (next_dev ((if_neg some_).trans ((if_neg ?_).trans (if_neg ?_)))), ?_⟩
    · simp [up, free]
    · simp only [up, Bool.or_eq_true, Bool.and_eq_true, beq_iff_eq, Bool.not_eq_true', not_or]
      refine ⟨by decide, fun ⟨one, bad⟩ => ?_⟩
      simp [sound one] at bad
    · obtain ⟨mem, chan, cores, now⟩ := correctedSource s.dev src n dst.cluster rfl
      subst hch hbs
      exact sent mem chan cores now rfl
  · subst hch
    refine ⟨_, issueOn_acts h ((if_neg (hn ▸ some_)).trans (if_pos (hn ▸ there))), ?_, ?_⟩
    · rw [hn]
      exact chanOf_takeChan _ _ _ _
    · exact core_setCore _ _ _
  · subst hch hn
    exact issueOn_acts h ((if_neg some_).trans (if_neg (Nat.not_le.mpr less)))
  · refine ⟨_, exec_colRecvSatisfied up, ?_⟩
    rw [recvMet_one one wait there]
    refine ⟨chanOf_takeChan _ _ _ _, ?_⟩
    have window : ((s.dev.takeChan c ch n).core c).window = [e] := one
    simp [Dev.settle, window]
  · rw [exec_colRecvSatisfied up, recvMet_none none_]
    rfl

end Sys2Proof.Machine

namespace Sys2Proof.Machine

/-! ## Group operations (R106, R287 to R292) -/

/-- What a col.reduce or col.barrier that issues does. -/
theorem exec_joinGroup {s : State} {c : Nat} {w : Bytes} {reduce : Bool} {i : Instr} {e : Dev}
    (h : i = .colReduce c ∧ reduce = true ∧ Issues s c 10 3 w ∨ i = .colBarrier c ∧ reduce = false ∧ Issues s c 10 4 w)
    (eq : s.dev.joinGroup c w reduce = e) : exec i s = .next { s with dev := e } := by
  obtain ⟨rfl, rfl, go⟩ | ⟨rfl, rfl, go⟩ := h <;> exact issueOn_acts go eq

/-- The contribution that a member makes to the next operation of a group. -/
def Core.contribution (y : Core) (w : Bytes) (reduce : Bool) : UsneaReq :=
  ⟨y.nextId, Tab.getD y.groupCnt (fieldOf w 40 1) 0, fieldOf w 40 1, reduce, fieldOf w 41 1, fieldOf w 42 1,
    (List.range (if reduce then fieldOf w 43 1 else 0)).map (fun i => Mem.nat y.sp (y.ref w 16 + 4 * i) 4),
    if reduce then fieldOf w 43 1 else 0, if reduce then y.ref w 24 else 0, false⟩

/-- A member counts the operations of its group. -/
def Core.joined (y : Core) (w : Bytes) : Core :=
  { y with groupCnt := Tab.put y.groupCnt (fieldOf w 40 1) (Tab.getD y.groupCnt (fieldOf w 40 1) 0 + 1) }

section
variable {d : Dev} {c p slot st : Nat} {w : Bytes} {x : Pipe} {y : Stage} {reduce : Bool}

theorem joinGroup_outside (run : d.coreRun c = some (p, slot, st, x, y)) (out : c ∉ x.members st (fieldOf w 40 1)) :
    d.joinGroup c w reduce = d.faultAt c w stInvalid := by
  simp only [Dev.joinGroup, run]
  exact if_pos (by simp [out])

theorem joinGroup_empty (run : d.coreRun c = some (p, slot, st, x, y)) (member : c ∈ x.members st (fieldOf w 40 1))
    (empty : reduce = true ∧ fieldOf w 43 1 = 0) : d.joinGroup c w reduce = d.pushEmpty c w := by
  simp only [Dev.joinGroup, run]
  exact (if_neg (by simp [member])).trans (if_pos empty)

theorem joinGroup_ended {r : Run} {ended : Nat} (run : d.coreRun c = some (p, slot, st, x, y)) (member : c ∈ x.members st (fieldOf w 40 1))
    (some_ : reduce = true → fieldOf w 43 1 ≠ 0) (hr : x.run = some r)
    (hended : Tab.find r.aborted (groupKey st (fieldOf w 40 1) (Tab.getD (d.core c).groupCnt (fieldOf w 40 1) 0)) = some ended) :
    d.joinGroup c w reduce = d.setCore c (((d.core c).joined w).entered w ended false .ready d.now) := by
  simp only [Dev.joinGroup, run]
  refine (if_neg (by simp [member])).trans ((if_neg (fun h => some_ h.1 h.2)).trans ?_)
  simp only [hr, Option.map_some, Option.bind_some, hended, pushOp_eq, core_modCore, setCore_modCore]
  rfl

theorem joinGroup_joins {r : Run} (run : d.coreRun c = some (p, slot, st, x, y)) (member : c ∈ x.members st (fieldOf w 40 1))
    (some_ : reduce = true → fieldOf w 43 1 ≠ 0) (hr : x.run = some r)
    (open_ : Tab.find r.aborted (groupKey st (fieldOf w 40 1) (Tab.getD (d.core c).groupCnt (fieldOf w 40 1) 0)) = none)
    (works : d.groupPath (x.members st (fieldOf w 40 1)) = true) :
    d.joinGroup c w reduce = d.setCore c
      ({ (d.core c).joined w with usnea := (d.core c).usnea ++ [(d.core c).contribution w reduce] }.entered w stOK false .group d.now) := by
  simp only [Dev.joinGroup, run]
  refine (if_neg (by simp [member])).trans ((if_neg (fun h => some_ h.1 h.2)).trans ?_)
  simp only [hr, Option.map_some, Option.bind_some, open_, pushOp_eq, core_modCore, setCore_modCore]
  exact (if_pos works).trans rfl

end

/-- The members of a group, ascending, and the contributions of them that are in flight to one operation. -/
def Pipe.membersUp (x : Pipe) (st group : Nat) : List Nat := (List.range 256).filter (fun m => (x.members st group).contains m)

/-- The contributions in flight to operation `k` of a group. -/
def Dev.contributions (d : Dev) (x : Pipe) (st group k : Nat) : List (Nat × UsneaReq) :=
  (x.membersUp st group).filterMap (fun m => ((d.core m).inFlight group k).map (fun v => (m, v)))

/-- The oldest operation of a core to which every member has contributed. -/
def Dev.groupFull (d : Dev) (c : Nat) (x : Pipe) (st : Nat) : Option (UsneaReq × List (Nat × UsneaReq)) :=
  ((d.core c).usnea.filter (fun u => !u.done)).findSome? (fun u =>
    if (d.contributions x st u.group u.k).length = (x.membersUp st u.group).length then some (u, d.contributions x st u.group u.k) else none)

/-- Whether the contributions to an operation agree. -/
def UsneaReq.agrees (u : UsneaReq) (got : List (Nat × UsneaReq)) : Bool :=
  got.all (fun e => e.2.reduce == u.reduce && e.2.op == u.op && e.2.type == u.type && e.2.count == u.count)

/-- What a group operation gives its members. -/
def UsneaReq.result (u : UsneaReq) (got : List (Nat × UsneaReq)) : List Nat :=
  if u.reduce then usneaResult u.op u.type (got.map (fun e => (e.1, e.2.elems))) else []

/-- USNEA_GROUP_COMPLETE: nothing, or the end of the oldest full operation at every member. -/
theorem exec_usneaGroupComplete {s : State} {c p slot st : Nat} {x : Pipe} {y : Stage} (up : CoreUp s c)
    (run : s.dev.coreRun c = some (p, slot, st, x, y)) {e : Dev}
    (none_ : s.dev.groupFull c x st = none → e = s.dev)
    (full : ∀ u got, s.dev.groupFull c x st = some (u, got) → e = got.foldl (fun (d : Dev) m =>
      d.groupLand m.1 m.2 (if u.agrees got then stOK else stInvalid) (u.result got)) (s.dev.hubsDelivered p (got.map (·.1)))) :
    exec (.usneaGroupComplete c) s = .next { s with dev := e } := by
  refine onCore_acts up ?_
  simp only [run]
  change (match s.dev.groupFull c x st with
    | none => s.dev
    | some (u, got) => got.foldl (fun (d : Dev) m =>
        d.groupLand m.1 m.2 (if u.agrees got then stOK else stInvalid) (u.result got)) (s.dev.hubsDelivered p (got.map (·.1)))) = e
  cases h : s.dev.groupFull c x st with
  | none => exact (none_ h).symm
  | some q => exact (full q.1 q.2 h).symm

theorem groupFull_none {d : Dev} {c st : Nat} {x : Pipe} (done : ∀ v ∈ (d.core c).usnea, v.done = true) : d.groupFull c x st = none := by
  rw [Dev.groupFull, List.filter_eq_nil_iff.mpr (fun v hv => by simp [done v hv])]
  rfl

theorem groupFull_first {d : Dev} {c st : Nat} {x : Pipe} {u : UsneaReq} {us : List UsneaReq} (h : (d.core c).usnea = u :: us) (open_ : u.done = false)
    (all : (d.contributions x st u.group u.k).length = (x.membersUp st u.group).length) :
    d.groupFull c x st = some (u, d.contributions x st u.group u.k) := by
  rw [Dev.groupFull, h, List.filter_cons_of_pos (by simp [open_]), List.findSome?_cons, if_pos all]

theorem filter_range_eq {n c : Nat} (h : c < n) {q : Nat → Bool} (hq : ∀ i, q i = (i == c)) : (List.range n).filter q = [c] := by
  rw [show q = (· == c) from funext hq, List.filter_beq, List.count_eq_one_of_mem List.nodup_range (List.mem_range.mpr h)]
  rfl

/-- The contribution of one core is the result. -/
theorem usneaResult_one (op type : Nat) {c : Nat} (hc : c < 256) (elems : List Nat) : usneaResult op type [(c, elems)] = elems := by
  have one (key : Nat → Nat) (n : Nat) (k : Nat) (h : key k < n) : byKey key n [(k, elems)] = [(key k, [elems])] := by
    unfold byKey
    rw [List.filter_map, filter_range_eq h (fun i => ?_)]
    · simp
    · by_cases same : key k = i
      · simp [same]
      · simp [same, Ne.symm same]
  unfold usneaResult
  simp only [one clusterOfCore 32 c (by unfold clusterOfCore; omega), List.map_cons, List.map_nil, foldElems, List.foldl_nil,
    one (· / 8) 4 (clusterOfCore c) (by unfold clusterOfCore; omega)]

theorem membersUp_one {x : Pipe} {st group c : Nat} (hc : c < 256) (one : x.members st group = [c]) : x.membersUp st group = [c] :=
  filter_range_eq hc (fun i => by simp [one, Bool.beq_eq_decide_eq])

theorem hubsDelivered_compute (d : Dev) (p : Nat) (cores : List Nat) : (d.hubsDelivered p cores).compute = d.compute := by
  have reset (d : Dev) (u : Nat) : (if (d.hub u).replays = 0 then d else d.modHub u (fun h => { h with replays := 0 })).compute = d.compute := by
    split <;> rfl
  refine (reset _ _).trans ((foldl_keeps Dev.compute _ (fun d u => reset d _) _ _).trans (foldl_keeps Dev.compute _ (fun d u => reset d _) _ _))

/-- Settles O29. -/
theorem groupsRun : Obligations.GroupsRun := by
  refine ⟨fun s c p slot st g k w x y r i reduce issues run hg hk => ?_, fun s c p slot st x y u up run => ⟨fun done => ?_, fun one open_ red alone => ?_,
    fun us got first open_ hgot all same res hsame hres => ?_⟩⟩
  · subst hg hk
    refine ⟨fun member red zero => exec_joinGroup issues (joinGroup_empty run member ⟨red, zero⟩), fun member some_ hr ended hended =>
      ⟨_, exec_joinGroup issues (joinGroup_ended run member some_ hr hended), ?_⟩, fun member some_ hr open_ works =>
      ⟨_, exec_joinGroup issues (joinGroup_joins run member some_ hr open_ works), ?_⟩, fun out => exec_joinGroup issues (joinGroup_outside run out)⟩
    · rw [core_setCore]
      exact ⟨by simp [Core.newest, Core.entered, Core.joined], Tab.getD_put_self _ _ _ _, rfl⟩
    · rw [core_setCore]
      refine ⟨Tab.getD_put_self _ _ _ _, by simp [Core.newest, Core.entered], rfl, ?_, fun c' ne => core_setCore_ne _ _ ne⟩
      simp [Core.entered, Core.contribution]
  · exact exec_usneaGroupComplete up run (fun _ => rfl) (fun u got h => by rw [groupFull_none done] at h; nomatch h)
  · have flight : (s.dev.core c).inFlight u.group u.k = some u := by simp [Core.inFlight, one, open_]
    have contributed : s.dev.contributions x st u.group u.k = [(c, u)] := by simp [Dev.contributions, membersUp_one up.2 alone, flight]
    have full := groupFull_first (x := x) (st := st) one open_ (by rw [contributed, membersUp_one up.2 alone]; rfl)
    rw [contributed] at full
    refine ⟨_, exec_usneaGroupComplete up run (e := (s.dev.hubsDelivered p [c]).groupLand c u stOK u.elems) (fun h => ?_) (fun u' got h => ?_), ?_⟩
    · rw [full] at h
      nomatch h
    · rw [full] at h
      obtain ⟨rfl, rfl⟩ := Prod.mk.inj (Option.some.inj h)
      have result : u.result [(c, u)] = u.elems := by
        rw [UsneaReq.result, if_pos red]
        exact usneaResult_one _ _ up.2 _
      simp [result, UsneaReq.agrees]
    · simp only [Dev.groupLand, Dev.settle, core_modCore, Dev.core_of_compute (hubsDelivered_compute _ _ _)]
      refine ⟨if_pos ⟨trivial, red⟩, ?_⟩
      simp [one]
  · subst hgot hsame hres
    refine exec_usneaGroupComplete up run (fun h => ?_) (fun u' got h => ?_)
    · exact absurd ((groupFull_first first open_ all.symm).symm.trans h) nofun
    · rw [groupFull_first first open_ all.symm] at h
      obtain ⟨rfl, rfl⟩ := Prod.mk.inj (Option.some.inj h)
      rfl

end Sys2Proof.Machine

namespace Sys2Proof.Machine

/-! ## Waits and done reports (R33, R112, R291) -/

/-- The first sync.wait of a window that ends now, with its status. -/
def Dev.waitFirst (d : Dev) (c : Nat) : Option (Nat × Nat) :=
  (d.core c).window.findSome? (fun e => (d.waitEnds c e).map (fun st => (e.id, st)))

theorem exec_syncWaitSatisfied {s : State} {c : Nat} (up : CoreUp s c) :
    exec (.syncWaitSatisfied c) s = .next { s with dev := (s.dev.waitFirst c).elim s.dev (fun m => s.dev.settle c m.1 m.2 false) } := by
  refine onCore_acts up ?_
  change (match s.dev.waitFirst c with
    | some (id, st) => s.dev.settle c id st false
    | none => s.dev) = _
  cases s.dev.waitFirst c <;> rfl

theorem waitEnds_sync {d : Dev} {c m i v : Nat} {e : Issued} (wait : e.wait = .sync m i v) : d.waitEnds c e =
    if d.waitWay c m i = 2 then some stDeviceFault else if d.waitWay c m i = 0 ∧ d.waitMet c m i v then some stOK else none := by
  rw [Dev.waitEnds, wait]

theorem waitEnds_other {d : Dev} {c : Nat} {e : Issued} (h : e.wait.isSync = false) : d.waitEnds c e = none := by
  unfold Dev.waitEnds
  split
  case h_1 wait => simp [wait, Wait.isSync] at h
  · rfl

theorem waitFirst_one {d : Dev} {c : Nat} {e : Issued} (one : (d.core c).window = [e]) :
    d.waitFirst c = (d.waitEnds c e).map (fun st => (e.id, st)) := by
  rw [Dev.waitFirst, one, List.findSome?_cons]
  cases d.waitEnds c e <;> rfl

theorem settle_one {d : Dev} {c st : Nat} {e : Issued} {b : Bool} (one : (d.core c).window = [e]) :
    d.settle c e.id st b = d.setCore c { d.core c with window := [{ e with status := st, cond := b, wait := .ready }] } := by
  rw [Dev.settle, Dev.modCore, one]
  simp

/-! ## The end of an operation (R42, R52, R58 to R66, R85, R299) -/

theorem drained_running {k : Core} {t : Nat} (h : k.phase = .running) : k.drained t = k := by
  unfold Core.drained
  split
  · rfl
  · rw [h]

theorem unstalled_eq (k : Core) (e : Issued) (now : Nat) :
    ∃ stream from_, k.unstalled e now = { k with causes := { k.causes with stream := k.causes.stream + stream }, stallFrom := from_ } := by
  unfold Core.unstalled
  split
  · exact ⟨_, _, rfl⟩
  · exact ⟨0, _, rfl⟩

theorem eccAfter_eq (k : Core) (e : Issued) : ∃ bad soft, k.eccAfter e = { k with
    bad := bad, soft := soft, eccFixed := satAdd k.eccFixed (k.soft.filter (inSpans e.foot.rd)).length } ∧ ∀ y ∈ soft, inSpans e.foot.rd y = false := by
  unfold Core.eccAfter
  dsimp only
  split
  · exact ⟨_, _, rfl, fun y hy => by simpa using (List.mem_filter.mp (List.mem_filter.mp hy).1).2⟩
  · exact ⟨_, _, rfl, fun y hy => by simpa using (List.mem_filter.mp hy).2⟩

theorem storeCond_kept (k : Core) (w : Bytes) (b : Bool) : (k.storeCond w b).window = k.window ∧ (k.storeCond w b).fault = k.fault := by
  unfold Core.storeCond
  split <;> exact ⟨rfl, rfl⟩

theorem sendLate_le (e : Issued) (now : Nat) : e.sendLate now ≤ fieldOf e.bytes 32 4 := by
  unfold Issued.sendLate
  split
  · exact Nat.le_refl _
  · exact Nat.zero_le _

theorem writeFault_none {d : Dev} {c : Nat} (h : (d.core c).fault = none) : d.writeFault c = d := by
  unfold Dev.writeFault
  dsimp only
  rw [h]
  split
  case h_1 bad => nomatch bad
  · rfl

/-- The core that an operation leaves: without it, without its contribution, its hold of the sequencer counted. -/
def Core.without (k : Core) (i : Nat) (e : Issued) (now : Nat) : Core :=
  { k.unstalled e now with
    window := k.window.eraseIdx i
    usnea := k.usnea.filter (fun u => u.id != e.id) }

theorem without_kept (k : Core) (i : Nat) (e : Issued) (now : Nat) : (k.without i e now).fault = k.fault ∧ (k.without i e now).phase = k.phase := by
  obtain ⟨_, _, h⟩ := unstalled_eq k e now
  rw [Core.without, h]
  exact ⟨rfl, rfl⟩

theorem without_eq (k : Core) (i : Nat) (e : Issued) (now : Nat) : ({ k.unstalled e now with
    window := (k.unstalled e now).window.eraseIdx i
    usnea := (k.unstalled e now).usnea.filter (fun u => u.id != e.id) } : Core) = k.without i e now := by
  obtain ⟨_, _, h⟩ := unstalled_eq k e now
  rw [Core.without, h]

section
variable {d : Dev} {c i : Nat} {e : Issued}

theorem completeOp_waits (he : (d.core c).window[i]? = some e) (h : e.wait ≠ .ready) : d.completeOp c i = d := by
  simp only [Dev.completeOp, he]
  exact if_pos h

theorem completeOp_behind (he : (d.core c).window[i]? = some e) (ready : e.wait = .ready) (ordered : inOrderClass (opClass e.bytes) = true)
    (h : ∃ x ∈ (d.core c).window.take i, opClass x.bytes = opClass e.bytes) : d.completeOp c i = d := by
  simp only [Dev.completeOp, he]
  exact (if_neg (by simp [ready])).trans (if_pos (by simpa [ordered] using h))

/-- An operation that leaves the window of a running core. -/
theorem completeOp_ends (he : (d.core c).window[i]? = some e) (running : (d.core c).phase = .running) (ready : e.wait = .ready)
    (first : ∀ x ∈ (d.core c).window.take i, opClass x.bytes ≠ opClass e.bytes ∨ inOrderClass (opClass e.bytes) = false) :
    d.completeOp c i = if isResult (opClass e.bytes) (opCode e.bytes) e.status then
      (d.setCore c ((((d.core c).without i e d.now).eccAfter e).storeCond e.bytes e.cond)).writeFault c
    else (d.setCore c ((d.core c).without i e d.now)).faultCore c e.status e.word (opDebugTag e.bytes) := by
  have alone : ¬ (inOrderClass (opClass e.bytes) && ((d.core c).window.take i).any (fun x => opClass x.bytes == opClass e.bytes)) = true := by
    simp only [Bool.and_eq_true, List.any_eq_true, beq_iff_eq, not_and, not_exists]
    intro ordered x mem same
    obtain h | h := first x mem
    · exact h same
    · simp [h] at ordered
  simp only [Dev.completeOp, he, without_eq]
  rw [if_neg (by simp [ready]), if_neg alone, drained_running ((without_kept _ _ _ _).2.trans running)]

theorem opEnds_idle (he : (d.core c).window[i]? = some e) (climbs : e.wait ≠ .climb) (idle : d.completeOp c i = d) : d.opEnds c i = d := by
  simp only [Dev.opEnds, he, idle]
  exact (if_neg climbs).trans (if_neg (Nat.lt_irrefl _))

end

/-- Settles O31. -/
theorem waitsReportsAndOperationsEnd : Obligations.WaitsReportsAndOperationsEnd := by
  refine ⟨fun s c m i v e k up hk => ?_, fun s c i k e up hk he running => ?_⟩
  · subst hk
    refine ⟨fun one wait => ⟨fun way met => ?_, fun down => ?_, fun notDown off => ?_⟩, fun none_ => ?_, fun stamped open_ works => onCore_acts up (if_neg ?_),
      fun off => onCore_acts up (if_pos ?_)⟩
    · rw [exec_syncWaitSatisfied up, waitFirst_one one, waitEnds_sync wait, if_neg (by rw [way]; decide), if_pos ⟨way, met⟩]
      exact next_dev (settle_one one)
    · rw [exec_syncWaitSatisfied up, waitFirst_one one, waitEnds_sync wait, if_pos down]
      exact next_dev (settle_one one)
    · rw [exec_syncWaitSatisfied up, waitFirst_one one, waitEnds_sync wait, if_neg notDown, if_neg]
      · rfl
      · rintro ⟨up, met⟩
        obtain h | h := off
        · exact h up
        · simp [h] at met
    · have nothing : s.dev.waitFirst c = none := List.findSome?_eq_none_iff.mpr (fun e he => by rw [waitEnds_other (none_ e he)]; rfl)
      rw [exec_syncWaitSatisfied up, nothing]
      rfl
    · obtain ⟨t, ht⟩ := Option.isSome_iff_exists.mp stamped
      simp [ht, open_, works]
    · obtain h | h | h := off <;> simp [h]
  · subst hk
    have ends {t : Dev} (eq : s.dev.opEnds c i = t) : exec (.operationComplete c i) s = .next { s with dev := t } := onCore_acts up eq
    refine ⟨fun waits climbs => ends (opEnds_idle he climbs (completeOp_waits he waits)), fun ready ordered behind =>
      ends (opEnds_idle he (by rw [ready]; nofun) (completeOp_behind he ready ordered behind)), fun ready first result sound => ends ?_,
      fun ready first fault => ends ?_, fun x now => ⟨fun dma => if_neg (by simp [dma]), unstalled_eq x e now, eccAfter_eq x e⟩,
      fun now => ⟨fun h => if_neg ?_, sendLate_le e now⟩⟩
    · have done : s.dev.completeOp c i = s.dev.setCore c ((((s.dev.core c).without i e s.dev.now).eccAfter e).storeCond e.bytes e.cond) := by
        refine (completeOp_ends he running ready first).trans ((if_pos result).trans (writeFault_none ?_))
        obtain ⟨_, _, ecc, _⟩ := eccAfter_eq ((s.dev.core c).without i e s.dev.now) e
        rw [core_setCore, (storeCond_kept _ _ _).2, ecc]
        exact (without_kept (s.dev.core c) i e s.dev.now).1.trans sound
      have shorter : ((s.dev.completeOp c i).core c).window.length < (s.dev.core c).window.length := by
        obtain ⟨_, _, ecc, _⟩ := eccAfter_eq ((s.dev.core c).without i e s.dev.now) e
        have inside := (List.getElem?_eq_some_iff.mp he).1
        rw [done, core_setCore, (storeCond_kept _ _ _).1, ecc]
        simp only [Core.without, List.length_eraseIdx_of_lt inside]
        omega
      simp only [Dev.opEnds, he]
      rw [if_neg (by rw [ready]; nofun), if_pos shorter, done]
      rfl
    · have late : e.sendLate s.dev.now = 0 := if_neg (fun ⟨_, _, ok, _⟩ => by simp [isResult, ok] at fault)
      have same (b : Prop) [Decidable b] (d : Dev) : (if b then d.lateBytes c 254 (e.sendLate s.dev.now) else d) = d := by
        rw [late]
        split <;> rfl
      simp only [Dev.opEnds, he]
      rw [if_neg (by rw [ready]; nofun), same, completeOp_ends he running ready first, if_neg (by simp [fault])]
      rfl
    · rintro ⟨cls, code, _, later⟩
      obtain h | h | h := h
      · exact h cls
      · exact h code
      · exact Nat.not_lt.mpr h later

end Sys2Proof.Machine

namespace Sys2Proof.Machine

/-! ## Boundary instants (R28, R34, R36, R409) -/

/-- What a boundary instant leaves of the generator and of the device. -/
theorem beginBoundary_eq (d : Dev) (p at_ : Nat) (late : List Late) :
    ((d.beginBoundary p at_ late).part p).tick = { (d.part p).tick with
      index := (d.part p).tick.index + 1
      start := at_
      inStretch := false
      boundary := some ⟨at_, at_ - (d.part p).tick.nominal⟩
      late := late } ∧
    (d.beginBoundary p at_ late).now = max d.now ((d.part p).tick.origin + at_) ∧
    (d.beginBoundary p at_ late).cores = d.cores ∧ (d.beginBoundary p at_ late).clusters = d.clusters := by
  refine ⟨?_, rfl, rfl, rfl⟩
  rw [Dev.beginBoundary, Dev.modTick, part_modPart]
  rfl

theorem tc_held {d : Dev} {p v : Nat} (h : (d.part p).tick.held = some v) : d.tc p = v := by rw [Dev.tc, h]

/-- Settles O32. -/
theorem boundariesKeepTheirInstants : Obligations.BoundariesKeepTheirInstants := by
  refine ⟨fun s p t late ⟨up, unit⟩ ht awake hlate => ⟨fun none_ => ?_, fun some_ open_ counts steady quiet => ⟨_, onUnit_acts up (decide_eq_true unit) rfl, ?_⟩,
    fun some_ open_ counts steady stretch late_ => ⟨_, onUnit_acts up (decide_eq_true unit) rfl, ?_⟩⟩,
    fun s p t ⟨up, unit⟩ ht low some_ open_ counts => ⟨_, onUnit_acts up (decide_eq_true unit) rfl, ?_⟩,
    fun s p t ⟨up, unit⟩ ht => ⟨fun steady => onUnit_acts (e := s.dev) up (decide_eq_true unit) ?_, fun stretch open_ waits =>
      ⟨_, onUnit_acts up (decide_eq_true unit) rfl, ?_⟩⟩⟩
  · refine onUnit_acts (e := s.dev) up (decide_eq_true unit) ?_
    simp [awake, Dev.tickBoundary, none_]
  · subst ht hlate
    have turn : s.dev.tickBoundary p = (s.dev.reach ((s.dev.part p).tick.origin + (s.dev.part p).tick.nominal)).beginBoundary p (s.dev.part p).tick.nominal
        ((s.dev.reach ((s.dev.part p).tick.origin + (s.dev.part p).tick.nominal)).lateStages p (s.dev.part p).tick.nominal) := by
      unfold Dev.tickBoundary
      dsimp only
      rw [if_neg, if_neg, if_neg]
      · rintro ⟨stretch, late⟩
        obtain h | h := quiet
        · exact h stretch
        · simp [h] at late
      · simp [steady]
      · obtain ⟨y, hy⟩ := Option.isSome_iff_exists.mp some_
        simp [hy, open_, counts]
    obtain ⟨tick, now, cores, clusters⟩ := beginBoundary_eq (s.dev.reach ((s.dev.part p).tick.origin + (s.dev.part p).tick.nominal)) p (s.dev.part p).tick.nominal
        ((s.dev.reach ((s.dev.part p).tick.origin + (s.dev.part p).tick.nominal)).lateStages p (s.dev.part p).tick.nominal)
    rw [awake, if_neg Bool.false_ne_true, turn]
    refine ⟨tick.trans ?_, now.trans ?_, cores, clusters⟩
    · simp
    · exact Nat.max_eq_left (Nat.le_max_right _ _)
  · subst ht hlate
    rw [awake, if_neg Bool.false_ne_true]
    unfold Dev.tickBoundary
    dsimp only
    rw [if_neg, if_neg, if_pos ⟨stretch, by simpa using late_⟩, Dev.modTick, part_modPart]
    · rfl
    · simp [steady]
    · obtain ⟨y, hy⟩ := Option.isSome_iff_exists.mp some_
      simp [hy, open_, counts]
  · subst ht
    rw [low, if_pos rfl]
    unfold Dev.holdTick
    dsimp only
    rw [if_neg]
    · have tick := congrArg Part.tick (part_modPart (s.dev.reach ((s.dev.part p).tick.origin + (s.dev.part p).tick.nominal)) p
        (fun x => { x with tick := { x.tick with held := some x.tick.nominal } }))
      exact ⟨tick, tc_held (congrArg Tick.held tick)⟩
    · obtain ⟨y, hy⟩ := Option.isSome_iff_exists.mp some_
      simp [hy, open_, counts]
  · subst ht
    simp [steady]
  · subst ht
    have limit : (s.dev.beginBoundary p ((s.dev.part p).tick.nominal + (s.dev.part p).tick.par.stretch) (s.dev.part p).tick.late) = _ := rfl
    obtain ⟨tick, _⟩ := beginBoundary_eq s.dev p ((s.dev.part p).tick.nominal + (s.dev.part p).tick.par.stretch) (s.dev.part p).tick.late
    simp only [waits, stretch, open_, Option.isNone_none, Bool.and_true, if_pos]
    rw [tick]
    simp

/-- Settles O33. -/
theorem decisionsCloseTheWindow : Obligations.DecisionsCloseTheWindow := by
  intro s p b ⟨up, unit⟩
  refine ⟨fun none_ => onUnit_acts (e := s.dev) up (decide_eq_true unit) ?_, fun open_ => ⟨_, onUnit_acts up (decide_eq_true unit) rfl, ?_⟩⟩
  · simp [Dev.decideBoundary, none_]
  · simp only [Dev.decideBoundary, open_, Dev.modTick, part_modPart]
    exact ⟨trivial, trivial⟩

/-! ## Windows, releases, policies, statuses (R34 to R41, R57) -/

theorem windowPreds_low (old : Nat) (stale prologue first : Bool) : bitOf (windowPreds old stale prologue first) 0 = true ∧
    bitOf (windowPreds old stale prologue first) 1 = stale ∧ bitOf (windowPreds old stale prologue first) 2 = prologue ∧
    bitOf (windowPreds old stale prologue first) 3 = first := by
  have digits : old / 256 * 256 = 2 * (old / 256 * 128) ∧ old / 256 * 128 = 2 * (old / 256 * 64) ∧ old / 256 * 64 = 2 * (old / 256 * 32) ∧
      old / 256 * 32 = 2 * (old / 256 * 16) := by omega
  unfold bitOf windowPreds
  simp only [Bool.beq_eq_decide_eq]
  cases stale <;> cases prologue <;> cases first <;> simp [b2n] <;> omega

/-- The program's own predicates lie above the hardware's eight. -/
theorem windowPreds_high (old : Nat) (stale prologue first : Bool) {i : Nat} (h : 8 ≤ i) :
    bitOf (windowPreds old stale prologue first) i = bitOf old i := by
  have low : 1 + 2 * b2n stale + 4 * b2n prologue + 8 * b2n first < 2 ^ 8 := by cases stale <;> cases prologue <;> cases first <;> decide
  have split_ : windowPreds old stale prologue first = 2 ^ 8 * (old / 2 ^ 8) + (1 + 2 * b2n stale + 4 * b2n prologue + 8 * b2n first) := by
    unfold windowPreds
    omega
  rw [bitOf_eq_testBit, bitOf_eq_testBit, split_, Nat.testBit_two_pow_mul_add _ low, if_neg (by omega), Nat.testBit_div_two_pow]
  congr 1
  omega

/-- Settles O34. -/
theorem windowsBeginAndEndByTheRules : Obligations.WindowsBeginAndEndByTheRules := by
  refine ⟨fun x y window at_ i r => ⟨rfl, rfl, rfl, rfl, rfl, rfl, fun hr => ?_, by simp [Part.closeWindow], rfl⟩,
    fun k e skipped stale prologue first now i he => ?_, fun par at_ t => ⟨fun h => ?_, fun h => ?_, fun h => ?_, fun h => ?_⟩, fun r => ?_⟩
  · simp only [Part.closeWindow, List.getElem?_map, hr, Option.map_some]
    simp
  · subst he
    obtain ⟨p0, p1, p2, p3⟩ := windowPreds_low k.preds stale prologue first
    refine ⟨p0, p1, p2, p3, windowPreds_high _ _ _ _, fun h => if_pos h, fun idle h => ?_, rfl, rfl, rfl, rfl⟩
    simp [Core.enter, h, idle]
  · simp [appliedPolicy, h]
  · simp [appliedPolicy, Nat.not_lt.mpr h]
  · simp [appliedPolicy, h]
  · simp [appliedPolicy, h]
  · refine ⟨fun f hf b => ?_, fun fault device b => ?_, fun fault device space b => ?_, fun fault device space time b => ?_,
      fun fault device space time => ⟨fun late b => ?_, fun late => ⟨fun ab => ?_, fun ab stale => ?_, fun ab stale qual => ?_, fun ab stale qual b => ?_⟩⟩⟩
    · simp only [Run.status, hf]
    · simp only [Run.status, fault, device]; rfl
    · simp only [Run.status, fault, device, space]; rfl
    · simp only [Run.status, fault, device, space, time]; rfl
    · simp only [Run.status, fault, device, space, time, late]; rfl
    · simp only [Run.status, fault, device, space, time, late, ab]; rfl
    · simp only [Run.status, fault, device, space, time, late, ab, stale]; rfl
    · simp only [Run.status, fault, device, space, time, late, ab, stale, qual]; rfl
    · simp only [Run.status, fault, device, space, time, late, ab, stale, qual]; cases b <;> rfl

/-! ## Runs and their cores (R38, R41, R56, R79) -/

/-- What taking the cores of a stage does to a core: it knows its run and holds the program. -/
def Core.taken (k : Core) (p slot i : Nat) (image : Bytes) : Core := { k with run := some (p, slot, i), progMem := image }

/-- A fold that changes the cores of a list leaves every other as it was. -/
theorem foldl_modCore_other {f : Core → Core} {l : List Nat} {c : Nat} (h : c ∉ l) (d : Dev) :
    (l.foldl (fun (d : Dev) i => d.modCore i f) d).core c = d.core c := by
  induction l generalizing d with
  | nil => rfl
  | cons i l ih =>
    rw [List.foldl_cons, ih (fun m => h (List.mem_cons_of_mem i m)), core_modCore_ne _ _ (fun e : c = i => h (e ▸ List.mem_cons_self))]

/-- A fold that makes every core of a list one that the change keeps. -/
theorem foldl_modCore_mem {f : Core → Core} (idem : ∀ k, f (f k) = f k) {l : List Nat} {c : Nat} (h : c ∈ l) (d : Dev) :
    (l.foldl (fun (d : Dev) i => d.modCore i f) d).core c = f (d.core c) := by
  induction l generalizing d with
  | nil => nomatch h
  | cons i l ih =>
    rw [List.foldl_cons]
    by_cases later : c ∈ l
    · rw [ih later]
      by_cases same : c = i
      · subst same
        rw [core_modCore, idem]
      · rw [core_modCore_ne _ _ same]
    · obtain rfl := (List.mem_cons.mp h).resolve_right later
      rw [foldl_modCore_other later, core_modCore]

theorem foldl_modCore_parts (f : Core → Core) (l : List Nat) (d : Dev) : (l.foldl (fun (d : Dev) i => d.modCore i f) d).parts = d.parts :=
  foldl_keeps Dev.parts (fun (d : Dev) i => d.modCore i f) (fun _ _ => rfl) l d

/-- Taking the cores of a stage under its number. -/
def Dev.takeStage (d : Dev) (p slot : Nat) (e : Stage × Nat) : Dev :=
  e.1.cores.foldl (fun (b : Dev) c => b.modCore c (·.taken p slot e.2 (Tab.getD (d.part p).programs e.1.program []))) d

theorem takeStage_parts (d : Dev) (p slot : Nat) (e : Stage × Nat) : (d.takeStage p slot e).parts = d.parts := foldl_modCore_parts _ _ d

/-- Taking the cores of some stages that have no core in common. -/
theorem takeStages_core (p slot : Nat) {l : List (Stage × Nat)} (distinct : (l.flatMap (fun e => e.1.cores)).Nodup) (d : Dev) (c : Nat) :
    (c ∉ l.flatMap (fun e => e.1.cores) → (l.foldl (fun (d : Dev) e => d.takeStage p slot e) d).core c = d.core c) ∧
    (∀ e ∈ l, c ∈ e.1.cores → (l.foldl (fun (d : Dev) e => d.takeStage p slot e) d).core c =
      (d.core c).taken p slot e.2 (Tab.getD (d.part p).programs e.1.program [])) := by
  induction l generalizing d with
  | nil => exact ⟨fun _ => rfl, fun e he => nomatch he⟩
  | cons a l ih =>
    rw [List.flatMap_cons, List.nodup_append] at distinct
    obtain ⟨_, rest, apart⟩ := distinct
    obtain ⟨other, taken⟩ := ih rest (d.takeStage p slot a)
    have part : (d.takeStage p slot a).part p = d.part p := congrArg (Tab.getD · p Part.reset) (takeStage_parts d p slot a)
    refine ⟨fun out => ?_, fun e he hc => ?_⟩
    · rw [List.flatMap_cons, List.mem_append, not_or] at out
      rw [List.foldl_cons, other out.2]
      exact foldl_modCore_other out.1 d
    · rw [List.foldl_cons]
      obtain rfl | later := List.mem_cons.mp he
      · rw [other (fun again => apart c hc c again rfl)]
        exact foldl_modCore_mem (f := fun k => k.taken p slot e.2 (Tab.getD (d.part p).programs e.1.program [])) (fun _ => rfl) hc d
      · rw [taken e later hc, part]
        refine congrArg (fun k : Core => k.taken p slot e.2 _) (foldl_modCore_other (fun here => apart c here c ?_ rfl) d)
        exact List.mem_flatMap.mpr ⟨e, later, hc⟩

/-- What a run that is given its cores leaves. -/
theorem startRun_eq {d : Dev} {p slot h count : Nat} {y : Pipe} (distinct : y.cores.Nodup) (c : Nat) :
    Tab.find ((d.startRun p slot h count y).part p).pipes slot = some { y with run := some (Run.fresh h count y.stages.length) } ∧
    (c ∉ y.cores → (d.startRun p slot h count y).core c = d.core c) ∧
    (∀ i z, y.stages[i]? = some z → c ∈ z.cores →
      (d.startRun p slot h count y).core c = (d.core c).taken p slot i (Tab.getD (d.part p).programs z.program [])) := by
  have cores : y.stages.zipIdx.flatMap (fun e => e.1.cores) = y.cores := by
    have stages : (y.stages.zipIdx.map Prod.fst).flatMap (·.cores) = y.cores := by rw [List.zipIdx_map_fst]; rfl
    rw [← stages, List.flatMap_map]
  obtain ⟨other, taken⟩ := takeStages_core p slot (l := y.stages.zipIdx) (by rw [cores]; exact distinct) d c
  rw [cores] at other
  refine ⟨?_, other, fun i z hz hc => taken (z, i) (List.mem_zipIdx_iff_getElem?.mpr hz) hc⟩
  rw [Dev.startRun, part_modPart]
  exact Tab.find_put_self _ _ _

/-! ## The end of a run -/

theorem keepEnding_compute (d : Dev) (p slot : Nat) (x : Pipe) (r : Run) : (d.keepEnding p slot x r).compute = d.compute := by
  unfold Dev.keepEnding
  dsimp only
  split <;> split <;> rfl

theorem find_modPipe (x : Part) (slot : Nat) (f : Pipe → Pipe) : Tab.find (x.modPipe slot f).pipes slot = (Tab.find x.pipes slot).map f := by
  unfold Part.modPipe
  split
  case h_1 q h => rw [h]; exact Tab.find_put_self _ _ _
  case h_2 h => rw [h]; rfl

theorem find_del_self {α : Type} (t : Tab α) (k : Nat) : Tab.find (Tab.del t k) k = none := by
  rw [Tab.find, Tab.del, List.find?_eq_none.mpr (fun e he => by simpa using (List.mem_filter.mp he).2)]
  rfl

/-- Keeping timing records leaves the pipeline in its slot. -/
theorem keepEnding_listed (d : Dev) (p slot : Nat) (x : Pipe) (r : Run) :
    (Tab.find ((d.keepEnding p slot x r).part p).pipes slot).isSome = (Tab.find (d.part p).pipes slot).isSome := by
  have kept (window : Nat) (policy : Nat → Option Nat) :
      (Tab.find ((d.keepRun p slot window x r policy).part p).pipes slot).isSome = (Tab.find (d.part p).pipes slot).isSome := by
    rw [Dev.keepRun, part_modPart, find_modPipe, Option.isSome_map]
  unfold Dev.keepEnding
  dsimp only
  split <;> split <;> simp only [kept]

/-- The end of a run that answers no command: its cores are free, and its pipeline is submitted again or gone. -/
theorem endRun_quiet {d : Dev} {p slot : Nat} {x y : Pipe} {r : Run} (submitted : x.launched = false) (handle : r.handle = none)
    (stoppers : r.stoppers = []) (listed : Tab.find (d.part p).pipes slot = some y) :
    (∀ c ∈ x.cores, (d.endRun p slot x r).core c = (d.core c).leaveRun) ∧ (∀ c, c ∉ x.cores → (d.endRun p slot x r).core c = d.core c) ∧
    (r.removeAfter = true → Tab.find ((d.endRun p slot x r).part p).pipes slot = none) ∧
    (r.removeAfter = false → (Tab.find ((d.endRun p slot x r).part p).pipes slot).map (·.run) = some none) := by
  have collective : d.endCollective p slot x r = (r, d) := by simp [Dev.endCollective, submitted]
  have ended : d.endRun p slot x r = (x.cores.foldl (fun (d : Dev) c => d.modCore c Core.leaveRun)
      ((d.keepEnding p slot x r).modTick p (fun t => { t with late := t.late.map ((d.keepEnding p slot x r).lateGone p slot) }))).modPart p (fun y =>
        if r.removeAfter || x.launched then { y with pipes := Tab.del y.pipes slot } else y.modPipe slot (fun z => { z with run := none })) := by
    simp [Dev.endRun, collective, handle, stoppers]
  have before (c : Nat) : ((d.keepEnding p slot x r).modTick p (fun t => { t with late := t.late.map ((d.keepEnding p slot x r).lateGone p slot) })).core c =
      d.core c := Dev.core_of_compute (keepEnding_compute _ _ _ _ _) c
  have part : (x.cores.foldl (fun (d : Dev) c => d.modCore c Core.leaveRun)
      ((d.keepEnding p slot x r).modTick p (fun t => { t with late := t.late.map ((d.keepEnding p slot x r).lateGone p slot) }))).part p =
      { (d.keepEnding p slot x r).part p with tick := { ((d.keepEnding p slot x r).part p).tick with
        late := ((d.keepEnding p slot x r).part p).tick.late.map ((d.keepEnding p slot x r).lateGone p slot) } } :=
    (congrArg (Tab.getD · p Part.reset) (foldl_modCore_parts _ _ _)).trans (part_modPart _ _ _)
  rw [ended]
  refine ⟨fun c hc => ?_, fun c hc => ?_, fun removes => ?_, fun stays => ?_⟩
  · exact (foldl_modCore_mem (f := Core.leaveRun) (fun _ => rfl) hc _).trans (congrArg Core.leaveRun (before c))
  · exact (foldl_modCore_other hc _).trans (before c)
  · rw [part_modPart, removes]
    exact find_del_self _ _
  · rw [part_modPart, stays, submitted]
    have there := keepEnding_listed d p slot x r
    rw [listed] at there
    obtain ⟨z, hz⟩ := Option.isSome_iff_exists.mp there
    simp [find_modPipe, part, hz]

/-- A run that its test ends, when nothing of a collective is pending. -/
theorem endRunWhen_ends {d : Dev} {p slot : Nat} {x : Pipe} {r : Run} {test : Run → Bool} (hx : Tab.find (d.part p).pipes slot = some x)
    (hr : x.run = some r) (ends : test r = true) (idle : d.pipeIdle x = true) (submitted : x.launched = false) :
    d.endRunWhen p slot test = d.endRun p slot x r := by
  have way : d.pendingWay p slot x r = (0, d) := by simp [Dev.pendingWay, submitted]
  simp [Dev.endRunWhen, hx, hr, ends, idle, way, submitted]

theorem endRunWhen_goes {d : Dev} {p slot : Nat} {x : Pipe} {r : Run} {test : Run → Bool} (hx : Tab.find (d.part p).pipes slot = some x)
    (hr : x.run = some r) (goes : test r = false ∨ d.pipeIdle x = false) : d.endRunWhen p slot test = d := by
  obtain h | h := goes <;> simp [Dev.endRunWhen, hx, hr, h]

/-- Settles O35. -/
theorem runsHoldTheirCores : Obligations.RunsHoldTheirCores := by
  refine ⟨fun d p slot h count c y distinct => ?_, fun s p slot x r ⟨up, unit⟩ hx hr => ⟨fun goes => ?_, fun goes => ?_,
    fun started steady counted idle handle stoppers submitted stays => ?_, fun stopping idle handle stoppers submitted removes => ?_⟩⟩
  · obtain ⟨run, other, taken⟩ := startRun_eq (d := d) (p := p) (slot := slot) (h := h) (count := count) distinct c
    refine ⟨by rw [run]; rfl, other, fun i z hz hc => ?_⟩
    rw [taken i z hz hc]
    exact ⟨rfl, rfl⟩
  · refine onUnit_acts up (decide_eq_true unit) (endRunWhen_goes hx hr ?_)
    obtain early | stopping | busy := goes
    · exact .inl (by simp [early])
    · exact .inl (by simp [stopping])
    · exact .inr busy
  · exact onUnit_acts up (decide_eq_true unit) (endRunWhen_goes hx hr goes)
  · obtain ⟨free, other, _, again⟩ := endRun_quiet (d := s.dev) (p := p) (slot := slot) submitted handle stoppers hx
    refine ⟨_, onUnit_acts up (decide_eq_true unit) (endRunWhen_ends hx hr (by simp [started, steady, counted]) idle submitted), fun c hc => ?_, again stays, other⟩
    rw [free c hc]
    exact ⟨rfl, rfl⟩
  · obtain ⟨free, _, gone, _⟩ := endRun_quiet (d := s.dev) (p := p) (slot := slot) submitted handle stoppers hx
    refine ⟨_, onUnit_acts up (decide_eq_true unit) (endRunWhen_ends hx hr stopping idle submitted), fun c hc => ?_, gone removes⟩
    rw [free c hc]
    rfl

end Sys2Proof.Machine

namespace Sys2Proof.Machine

/-! ## Commands that start -/

/-- A command that starts has the effect of its row. -/
theorem runCmd_acts {s : State} {h op : Nat} {c : Cmd} {form : Cmd → Bool} {act : Cmd → Dev → Dev} {f : Dev → Dev} (r : Starts s h op c)
    (of : form c = true) (eq : act c s.dev = f s.dev) : runCmd h op form s act = .next (s.onDev f) :=
  (runCmd_starts r of).trans (next_dev eq)

/-- A check that fails is the one reported where none stands at a lower offset. -/
theorem firstFail_cons_true {off st : Nat} {l : List (Nat × Nat × Bool)} (h : ∀ c ∈ l, off ≤ c.1) :
    firstFail ((off, st, true) :: l) = some (st, off) :=
  foldl_sooner_of_le (b := (st, off)) (fun c hc => h c (List.mem_filter.mp hc).1)

/-- The reserved bytes of a command stand at or after the first of their spans. -/
theorem rsvBytes_from {c : Cmd} {off : Nat} {spans : List (Nat × Nat)} (h : ∀ e ∈ spans, off ≤ e.1) :
    ∀ x ∈ rsvBytes c spans, off ≤ x.1 := by
  intro x hx
  obtain ⟨e, he, hx⟩ := List.mem_flatMap.mp hx
  obtain ⟨i, -, rfl⟩ := List.mem_map.mp hx
  exact Nat.le_trans (h e he) (Nat.le_add_right _ _)

/-- A command on a sequence that is there, and whose other fields pass, takes effect. -/
theorem seqChecked_ok {d : Dev} {h off slot : Nat} {c : Cmd} {cs : List (Nat × Nat × Bool)} {act : Nat → Seq → Dev → Dev} {q : Seq}
    (there : (d.part c.part).seqOf (c.field off 4) = some (slot, q)) (pass : firstFail ((off, stInvalid, false) :: cs) = none) :
    d.seqChecked h c off cs act = act slot q d := by
  have pass' : firstFail ((off, stInvalid, ((d.part c.part).seqOf (c.field off 4)).isNone) :: cs) = none := by rw [there]; exact pass
  unfold Dev.seqChecked
  rw [checked_ok pass']
  simp only [there]

/-- A command whose sequence is not there, or another of whose fields fails, is reported. -/
theorem seqChecked_fail {d : Dev} {h off : Nat} {c : Cmd} {cs : List (Nat × Nat × Bool)} {act : Nat → Seq → Dev → Dev} {f : Nat × Nat}
    (fails : firstFail ((off, stInvalid, ((d.part c.part).seqOf (c.field off 4)).isNone) :: cs) = some f) :
    d.seqChecked h c off cs act = d.failAt h f.1 f.2 := checked_fail fails

theorem seqChecked_gone {d : Dev} {h off : Nat} {c : Cmd} {cs : List (Nat × Nat × Bool)} {act : Nat → Seq → Dev → Dev}
    (gone : (d.part c.part).seqOf (c.field off 4) = none) (after : ∀ x ∈ cs, off ≤ x.1) :
    d.seqChecked h c off cs act = d.failAt h stInvalid off :=
  seqChecked_fail (f := (stInvalid, off)) (by rw [gone]; exact firstFail_cons_true after)

/-! ## SEQ_CREATE -/

/-- Settles O37. -/
theorem sequencesAreCreated : Obligations.SequencesAreCreated := by
  rintro s h p c cs rfl rfl starts
  refine ⟨fun f fails => runCmd_acts starts rfl (checked_fail fails), fun pass f fails => runCmd_acts starts rfl ((checked_ok pass).trans ?_),
    fun pass forks some_ slot b hslot hb q hq => ?_, fun pass forks some_ hslot hb => runCmd_acts starts rfl ((checked_ok pass).trans ?_),
    fun pass forks some_ hslot => runCmd_acts starts rfl ((checked_ok pass).trans ?_),
    fun pass forks none_ => runCmd_acts starts rfl ((checked_ok pass).trans ?_)⟩
  · simp only [Dev.seqCreate, fails]
  · subst hq
    refine ⟨fun new => runCmd_acts starts rfl ((checked_ok pass).trans ?_), fun forked => runCmd_acts starts rfl ((checked_ok pass).trans ?_)⟩
    · simp only [Dev.seqCreate, forks, if_neg some_, hslot, hb]
      exact if_neg (not_not_intro new)
    · simp only [Dev.seqCreate, forks, if_neg some_, hslot, hb]
      exact if_pos forked
  · obtain ⟨slot, hslot⟩ := Option.isSome_iff_exists.mp hslot
    simp only [Dev.seqCreate, forks, if_neg some_, hslot, hb]
  · simp only [Dev.seqCreate, forks, if_neg some_, hslot]
  · simp only [Dev.seqCreate, forks]
    exact if_pos none_

/-! ## SEQ_SUSPEND, SEQ_RESUME and SEQ_DESTROY -/

/-- Settles O39. -/
theorem stateCommandsAreStaged : Obligations.StateCommandsAreStaged := by
  refine ⟨?_, ?_⟩
  · rintro s h p slot c q rfl there
    refine ⟨fun starts pass b hb => ?_, fun starts pass held => ?_, fun starts pass active parked i hi => ?_, fun starts pass => ?_⟩
    · subst hb
      refine ⟨fun keep stay active => runCmd_acts starts (by simp [keep, stay]) ((seqChecked_ok there pass).trans ?_),
        fun keep stay idle => runCmd_acts starts (by simp [keep, stay]) ((seqChecked_ok there pass).trans ?_),
        fun keep park held => runCmd_acts starts (by simp [keep, park]) ((seqChecked_ok there pass).trans ?_),
        fun keep park active susp => runCmd_acts starts (by simp [keep, park]) ((seqChecked_ok there pass).trans ?_),
        fun evict => runCmd_acts starts evict (seqChecked_ok there pass)⟩
      · exact if_pos active
      · exact if_neg idle
      · exact if_neg (fun ⟨na, ns⟩ => held.elim na ns)
      · exact if_pos ⟨active, susp⟩
    · exact ⟨fun lazy => runCmd_acts starts lazy ((seqChecked_ok there pass).trans (if_pos held)),
        fun eager => runCmd_acts starts (by simp [eager]) ((seqChecked_ok there pass).trans (if_pos held))⟩
    · have other : ¬ (q.state = .suspended ∨ q.state = .parked) := not_or.mpr ⟨active, parked⟩
      subst hi
      cases lazy : bitOf (c.field 20 1) 0 with
      | true => exact runCmd_acts starts lazy ((seqChecked_ok there pass).trans (if_neg other))
      | false => exact runCmd_acts starts (by simp [lazy]) ((seqChecked_ok there pass).trans (if_neg other))
    · exact runCmd_acts starts rfl (seqChecked_ok there pass)
  · rintro s h op c i starts gone cases_
    have suspend : ∀ x ∈ suspendRsv c, 16 ≤ x.1 := List.forall_mem_cons.mpr ⟨(by decide : 16 ≤ 20), rsvBytes_from (by decide)⟩
    have resume : ∀ x ∈ resumeRsv c, 16 ≤ x.1 := List.forall_mem_cons.mpr ⟨(by decide : 16 ≤ 20), rsvBytes_from (by decide)⟩
    obtain ⟨rfl, rfl, keep, stay⟩ | ⟨rfl, rfl, keep, park⟩ | ⟨rfl, rfl, evict⟩ | ⟨rfl, rfl, lazy⟩ | ⟨rfl, rfl, eager⟩ | ⟨rfl, rfl⟩ := cases_
    · exact runCmd_acts starts (by simp [keep, stay]) (seqChecked_gone gone suspend)
    · exact runCmd_acts starts (by simp [keep, park]) (seqChecked_gone gone suspend)
    · exact runCmd_acts starts evict (seqChecked_gone gone suspend)
    · exact runCmd_acts starts lazy (seqChecked_gone gone resume)
    · exact runCmd_acts starts (by simp [eager]) (seqChecked_gone gone resume)
    · exact runCmd_acts starts rfl (seqChecked_gone gone (rsvBytes_from (by decide)))

/-! ## SEQ_APPEND and PAGE_EDIT -/

/-- Settles O38. -/
theorem appendsAndEditsAreChecked : Obligations.AppendsAndEditsAreChecked := by
  refine ⟨?_, ?_⟩
  · rintro s h c data cs rfl starts
    refine ⟨fun f fails => runCmd_acts starts rfl (checked_fail fails),
      fun pass some_ host => runCmd_acts starts rfl ((checked_ok pass).trans ((if_neg some_).trans (withObject_host host))),
      fun pass slot q there none_ => runCmd_acts starts rfl ((checked_ok pass).trans ((if_pos none_).trans ?_))⟩
    simp only [there, Option.elim_some]
  · rintro s h p slot n c q data recs rfl rfl starts
    refine ⟨fun f fails => runCmd_acts starts rfl (seqChecked_fail fails), fun there pass =>
      ⟨fun none_ => runCmd_acts starts rfl ((seqChecked_ok there pass).trans (if_pos none_)), fun some_ host hrecs => ?_⟩⟩
    subst hrecs
    refine ⟨fun moving => runCmd_acts starts rfl ((seqChecked_ok there pass).trans ((if_neg some_).trans (if_pos moving))), fun held => ?_⟩
    have still : ¬ (q.state = .parking ∨ q.state = .parked ∨ q.state = .resuming) := by
      obtain e | e := held <;> simp [e]
    refine ⟨fun f fails => runCmd_acts starts rfl ((seqChecked_ok there pass).trans ((if_neg some_).trans ((if_neg still).trans
      ((withObject_host host).trans ?_)))), fun good r hr => runCmd_acts starts rfl ((seqChecked_ok there pass).trans ((if_neg some_).trans
      ((if_neg still).trans ((withObject_host host).trans ?_))))⟩
    · simp only [fails]
    · subst hr
      simp only [good]

end Sys2Proof.Machine

namespace Sys2Proof.Machine

/-! ## PREFIX_LOOKUP, MEM_ALLOC and MEM_FREE -/

/-- A check that has not failed says nothing. -/
theorem firstFail_cons_false (off st : Nat) (l : List (Nat × Nat × Bool)) : firstFail ((off, st, false) :: l) = firstFail l := rfl

theorem Tab.has_of_find {α : Type} {t : Tab α} {k : Nat} {v : α} (h : Tab.find t k = some v) : Tab.has t k = true := by
  obtain ⟨e, he, -⟩ := Option.map_eq_some_iff.mp h
  exact List.any_eq_true.mpr ⟨e, List.mem_of_find?_eq_some he, List.find?_some (p := fun e : Nat × α => e.1 == k) he⟩

/-- The field checks of MEM_FREE pass for a region that is there and that no running pipeline names. -/
theorem memFree_passes {x : Part} {c : Cmd} {r : MemRegion} (there : Tab.find x.regions (c.field 16 4) = some r) (free : x.namesRegion r = false)
    (pass : firstFail (rsvBytes c [(20, 44)]) = none) :
    firstFail ([(16, stInvalid, !Tab.has x.regions (c.field 16 4)),
      (16, stBusy, (Tab.find x.regions (c.field 16 4)).elim false (fun r => x.namesRegion r))] ++ rsvBytes c [(20, 44)]) = none := by
  rw [Tab.has_of_find there, there, Option.elim_some, free]
  exact pass

/-- Settles O40. -/
theorem prefixesAndRegionsAreServed : Obligations.PrefixesAndRegionsAreServed := by
  refine ⟨?_, ?_⟩
  · rintro s h p n c data o rfl rfl starts rfl host
    refine ⟨fun mode pass some_ found hfound => ?_, fun mode slot q there pass some_ fit found hfound => ?_, fun mode slot q there pass unfit => ?_,
      fun mode slot q there pass => ⟨fun short => ?_, fun enough unfit => ?_⟩, fun mode slot q there pass some_ enough ns pt planes r hr => ?_,
      fun mode pass => runCmd_acts starts (by simp [mode]) (checked_ok pass)⟩
    · subst hfound
      exact runCmd_acts starts (by simp [mode]) ((checked_ok pass).trans ((if_neg some_).trans (withObject_host host)))
    · subst hfound
      exact runCmd_acts starts (by simp [mode]) ((seqChecked_ok there pass).trans ((if_neg (by simp [fit])).trans ((if_neg some_).trans
        (withObject_host host))))
    · exact runCmd_acts starts (by simp [mode]) ((seqChecked_ok there pass).trans (if_pos (by simp [unfit])))
    · exact runCmd_acts starts (by simp [mode]) ((seqChecked_ok there pass).trans (if_pos short))
    · exact runCmd_acts starts (by simp [mode]) ((seqChecked_ok there pass).trans ((if_neg (Nat.not_lt.mpr enough)).trans (if_pos unfit)))
    · subst hr
      exact runCmd_acts starts (by simp [mode]) ((seqChecked_ok there pass).trans ((if_neg (Nat.not_lt.mpr enough)).trans
        ((if_neg (by simp [ns, pt, planes])).trans ((if_neg some_).trans (withObject_host host)))))
  · rintro s h p a n c x rfl rfl
    refine ⟨fun starts ha hn some_ pass => ?_, fun starts r there pass => ?_⟩
    · subst ha hn
      refine ⟨fun outside => runCmd_acts starts rfl ((if_neg some_).trans ((checked_ok pass).trans (checked_fail (f := (stPartition, 16)) ?_))),
        fun inside meets => runCmd_acts starts rfl ((if_neg some_).trans ((checked_ok pass).trans (checked_fail (f := (stBounds, 16)) ?_))),
        fun inside apart => runCmd_acts starts rfl ((if_neg some_).trans ((checked_ok pass).trans (checked_ok ?_)))⟩
      · rw [outside]
        exact firstFail_cons_true (by simp)
      · rw [beq_false_of_ne inside, meets]
        rfl
      · rw [beq_false_of_ne inside, apart]
        rfl
    · refine ⟨fun named => ?_, fun free none_ e he => ?_, fun free unified gs e hgs some_ he => ?_⟩
      · refine runCmd_acts starts rfl (checked_fail (f := (stBusy, 16)) ?_)
        rw [there, Tab.has_of_find there, Option.elim_some, named]
        exact firstFail_cons_true (rsvBytes_from (by decide))
      · refine runCmd_acts starts rfl ((checked_ok (memFree_passes there free pass)).trans ?_)
        have none_ : ((pagesOf r.addr r.bytes).filter (fun g => (s.dev.part c.part).extent r.addr r.bytes == .unified &&
            Tab.has (s.dev.part c.part).migr g)).isEmpty = true := by
          rw [List.isEmpty_iff, List.filter_eq_nil_iff]
          intro g hg both
          obtain ⟨unified, runs⟩ := Bool.and_eq_true_iff.mp both
          exact none_.elim (fun other => other (beq_iff_eq.mp unified)) (fun idle => by rw [idle g hg] at runs; nomatch runs)
        subst he
        simp only [there]
        exact if_pos none_
      · refine runCmd_acts starts rfl ((checked_ok (memFree_passes there free pass)).trans ?_)
        have runs : (pagesOf r.addr r.bytes).filter (fun g => (s.dev.part c.part).extent r.addr r.bytes == .unified &&
            Tab.has (s.dev.part c.part).migr g) = gs := by simp [unified, hgs]
        subst he
        simp only [there, runs, if_pos (Or.inr unified : r.key.isSome = true ∨ (s.dev.part c.part).extent r.addr r.bytes = .unified)]
        exact if_neg (by rwa [List.isEmpty_iff])

/-! ## PROGRAM_LOAD, MICROPROG_LOAD and TICK_SET -/

/-- Settles O41. -/
theorem programsAreLoaded : Obligations.ProgramsAreLoaded := by
  rintro s h p n c data b rfl rfl rfl
  refine ⟨?_, fun starts f fails i hi => ?_, fun starts pass => ⟨fun image some_ host open_ good => ?_, fun image some_ host open_ f fails => ?_, fun shipped => ?_⟩,
    fun starts => ⟨fun f fails => runCmd_acts starts rfl (checked_fail fails), fun pass => runCmd_acts starts rfl (checked_ok pass)⟩⟩
  · rintro starts cs rfl
    refine ⟨fun f fails => runCmd_acts starts rfl (checked_fail fails), fun pass some_ host => ?_⟩
    refine ⟨fun long => runCmd_acts starts rfl ((checked_ok pass).trans ((if_neg some_).trans ((withObject_host host).trans (if_pos long)))),
      fun length open_ used => runCmd_acts starts rfl ((checked_ok pass).trans ((if_neg some_).trans ((withObject_host host).trans ?_))),
      fun length open_ unused => runCmd_acts starts rfl ((checked_ok pass).trans ((if_neg some_).trans ((withObject_host host).trans ?_)))⟩
    · exact (if_neg (not_not_intro length)).trans ((if_neg (by simp [open_])).trans (if_pos used))
    · exact (if_neg (not_not_intro length)).trans ((if_neg (by simp [open_])).trans (if_neg (by simp [unused])))
  · subst hi
    split
    · next shipped => exact runCmd_acts starts (by simp [shipped]) (checked_fail fails)
    · next image => exact runCmd_acts starts (by simp [image]) (checked_fail fails)
  · refine runCmd_acts starts (by simp [image]) ((checked_ok pass).trans ((if_neg some_).trans ((withObject_host host).trans ((if_neg (by simp [open_])).trans ?_))))
    simp only [good]
    rfl
  · refine runCmd_acts starts (by simp [image]) ((checked_ok pass).trans ((if_neg some_).trans ((withObject_host host).trans ((if_neg (by simp [open_])).trans ?_))))
    simp only [fails]
  · exact runCmd_acts starts (by simp [shipped]) (checked_ok pass)

/-! ## PIPELINE_STOP in a stretch -/

/-- PIPELINE_STOP of the pipeline in slot 0. -/
def stopSlot0 : Cmd where
  gen := 1
  part := 0
  owned := true
  fn := 0
  q := 0
  order := 0
  bytes := 0x24 :: List.replicate 63 0
  stamp := 0
  window := 0
  fetched := 0
  deadline := none
  deferred := none
  phase := .fetched
  data := []
  work := []
  count := 0
  lost := false

/-- A pipeline of one stage on cores 0 and 1, which runs. -/
def pairPipe : Pipe := ⟨[⟨[0, 1], 0, false, false, 0, 0, 0, none⟩], [], [], [], [], false, false, [], some (Run.fresh 0 1 1), []⟩

/-- The stage of that pipeline is late and stretched; its core 0 has contributed to a col.barrier that core 1 has yet to issue, and
PIPELINE_STOP has been fetched. -/
def stretchedBarrier : State :=
  ⟨{ Plat.reset with boot := .ready },
    { Dev.reset with
      parts := [(0, { Part.reset with
        layout := some Layout.shipped
        tick := { Part.reset.tick with inStretch := true, late := [⟨0, 0, none⟩] }
        pipes := [(0, pairPipe)] })]
      cores := [(0, { Core.reset with
          phase := .running
          run := some (0, 0, 0)
          nextId := 1
          window := [⟨0, 0, [10, 4], footOf [] [10, 4], stOK, false, .group, 0⟩]
          usnea := [⟨0, 0, 0, false, 0, 0, [], 0, 0, false⟩] }),
        (1, { Core.reset with phase := .running, run := some (0, 0, 0) })]
      host := { Dev.reset.host with live := [(1, stopSlot0)] } }, []⟩

theorem stretchedBarrier_starts : Starts stretchedBarrier 1 0x24 stopSlot0 := by decide +kernel

/-- Refutes O44: in a stretch the stop ends the group operations of the late stage's cores (R38, R85), and the run notes each
operation of a group that was ended with its status, which the statement says it does not. -/
theorem not_runsAreStartedAndStopped : ¬ Obligations.RunsAreStartedAndStopped := by
  intro all
  obtain ⟨-, stop, -⟩ := all stretchedBarrier 1 0 0 0 stopSlot0 pairPipe (Run.fresh 0 1 1) rfl (by decide +kernel) (by decide +kernel) (by decide) rfl
  obtain ⟨-, -, stretch⟩ := stop stretchedBarrier_starts (by decide +kernel) (by decide +kernel)
  obtain ⟨t, run, kept, -⟩ := stretch rfl rfl
  obtain rfl := Host.Outcome.next.inj ((runCmd_starts stretchedBarrier_starts (by decide +kernel)).symm.trans run)
  revert kept
  decide +kernel

end Sys2Proof.Machine

namespace Sys2Proof.Machine

/-! ## PIPELINE_SUBMIT and COLLECTIVE_LAUNCH -/

/-- What PIPELINE_SUBMIT comes to once its lists have been read. -/
theorem submitLists_cases {d e t : Dev} {h : Nat} {c : Cmd} {o : Bytes} (he : e = (d.listStep c.part o).2.2.modPart c.part (fun x => x.unask h))
    (ends : (∃ f, (d.listStep c.part o).1 = some f ∧ t = e.complete h f.1 0 f.2) ∨
      (∃ f, (d.listStep c.part o).1 = none ∧ (e.part c.part).areaSteps o = some f ∧ t = e.complete h f.1 0 f.2) ∨
      ((d.listStep c.part o).1 = none ∧ (e.part c.part).areaSteps o = none ∧
        t = (e.storePipe c.part (c.field 28 1) (c.field 29 1 == 1) o (d.listStep c.part o).2.1).complete h stOK 0 0)) : d.submitLists h c o = t := by
  subst he
  obtain ⟨f, list, rfl⟩ | ⟨f, list, area, rfl⟩ | ⟨list, area, rfl⟩ := ends
  · simp only [Dev.submitLists, list]
  · simp only [Dev.submitLists, list, area]
  · simp only [Dev.submitLists, list, area]

theorem any_or_any {α : Type} (l : List α) (f g : α → Bool) : l.any (fun e => f e || g e) = (l.any f || l.any g) := by
  induction l with
  | nil => rfl
  | cons a l ih => simp only [List.any_cons, ih, Bool.or_assoc, Bool.or_left_comm]

/-- PIPELINE_SUBMIT with its object in host memory, once the steps before its lists have passed. -/
theorem submit_host {d : Dev} {h : Nat} {c : Cmd} {o : Bytes} (host : bitOf (c.field 2 1) 1 = false) (pass : (d.part c.part).submitSteps c o = none)
    {cold : List Nat} {lost : Bool} (hcold : cold = ((d.part c.part).lists o).flatMap (fun e => (d.part c.part).lacking h e.1 e.2))
    (hlost : lost = ((d.part c.part).lists o).any (fun e => d.ioWay c.part e.1 e.2 == 2 || poisoned (d.devRead c.part e.1 e.2 0).1)) :
    d.submit h c o = if !cold.isEmpty then d.ask c.part h cold.dedup ((d.part c.part).dieList.headD 0)
      else if lost then (d.modPart c.part (fun x => x.unask h)).complete h stDeviceFault 0 0
      else if ((d.part c.part).lists o).any (fun e => d.ioWay c.part e.1 e.2 == 1 || d.extentHeld c.part e.1 e.2) then d
      else d.ifAffords (d.submitLists h c o) := by
  rw [hcold, hlost, any_or_any]
  simp only [Dev.submit, pass, host, Bool.false_eq_true, if_false, List.append_nil]

/-- The first free key of a range, or its first key where none is free, lies in the range. -/
theorem firstFree_bounds {α : Type} (t : Tab α) {a b : Nat} (h : a < b) :
    a ≤ (Tab.firstFree t a b).getD a ∧ (Tab.firstFree t a b).getD a < b := by
  cases free : Tab.firstFree t a b with
  | none => exact ⟨Nat.le_refl a, h⟩
  | some n =>
    obtain ⟨i, hi, rfl⟩ := List.mem_map.mp (List.mem_of_find?_eq_some free)
    have := List.mem_range.mp hi
    simp only [Option.getD_some]
    omega

/-- Settles O43. -/
theorem pipelinesAndCollectivesAreChecked : Obligations.PipelinesAndCollectivesAreChecked := by
  refine ⟨?_, ?_⟩
  · rintro s h p n c data o rfl rfl rfl starts
    refine ⟨fun short => runCmd_acts starts rfl (if_pos short),
      fun long host f fails => runCmd_acts starts rfl ((if_neg (Nat.not_lt.mpr long)).trans ((withObject_host host).trans ?_)),
      fun long host pass cold lost hcold hlost => ?_⟩
    · simp only [Dev.submit, fails]
    · have submits := submit_host (d := s.dev) (h := h) host.1 pass hcold hlost
      refine ⟨fun some_ => ?_, fun none_ gone => ?_, fun none_ there ⟨e, he, waits⟩ => ?_, fun none_ there free r e t hr he ends => ?_⟩
      · refine runCmd_acts starts rfl ((if_neg (Nat.not_lt.mpr long)).trans ((withObject_host host).trans (submits.trans (if_pos ?_))))
        simpa using some_
      · subst none_ gone
        exact runCmd_acts starts rfl ((if_neg (Nat.not_lt.mpr long)).trans ((withObject_host host).trans submits))
      · subst none_ there
        simp only [List.isEmpty_nil, Bool.not_true, Bool.false_eq_true, if_false] at submits
        refine runCmd_acts (f := id) starts rfl ((if_neg (Nat.not_lt.mpr long)).trans ((withObject_host host).trans (submits.trans (if_pos ?_))))
        exact List.any_eq_true.mpr ⟨e, he, by simpa using waits⟩
      · subst none_ there hr
        simp only [List.isEmpty_nil, Bool.not_true, Bool.false_eq_true, if_false] at submits
        have still : ((s.dev.part c.part).lists (objectOf data (c.field 24 4))).any
            (fun e => s.dev.ioWay c.part e.1 e.2 == 1 || s.dev.extentHeld c.part e.1 e.2) = false := by
          rw [List.any_eq_false]
          intro e he
          simp [free e he]
        refine (runCmd_acts (f := fun d => if d.affords t then t else d) starts rfl ((if_neg (Nat.not_lt.mpr long)).trans ((withObject_host host).trans
          (submits.trans ((if_neg (by rw [still]; exact Bool.false_ne_true)).trans ?_))))).trans ?_
        · rw [submitLists_cases he ends]
          rfl
        · dsimp only [State.onDev]
          split <;> rfl
  · rintro s h p c data o rfl starts whole pass host rfl
    have pass' : firstFail ([(24, stBounds, c.field 24 4 != 0 && c.field 24 4 != 256)] ++ rsvBytes c [(28, 36)]) = none := by
      rw [whole]
      exact pass
    have some_ : c.field 24 4 ≠ 0 := by rw [whole]; decide
    have launch : exec (.collectiveLaunch h data) s = .next (s.onDev (fun d => d.launch h c (objectOf data 256))) := by
      refine runCmd_acts starts rfl ((checked_ok pass').trans ((if_neg some_).trans ?_))
      rw [whole]
      exact withObject_host host
    refine ⟨fun f fails => launch.trans (next_dev ?_), fun good none_ => launch.trans (next_dev ?_), fun good some_ busy => launch.trans (next_dev ?_),
      fun good some_ free => ⟨_, _, (firstFree_bounds (s.dev.part c.part).pipes (by decide)).1, (firstFree_bounds (s.dev.part c.part).pipes (by decide)).2,
        Nat.le_add_right 1 (s.dev.draw.1 % ones64), launch.trans (next_dev ?_)⟩⟩
    · simp only [Dev.launch, fails]
    · simp only [Dev.launch, good]
      exact if_pos none_
    · simp only [Dev.launch, good]
      exact (if_neg (by simp [some_])).trans (if_pos busy)
    · simp only [Dev.launch, good]
      exact (if_neg (by simp [some_])).trans (if_neg (by simp [free]))

end Sys2Proof.Machine

namespace Sys2Proof.Machine

/-! ## PARTITION_SET -/

/-- A PARTITION_SET that starts has the effect of its row, and the layouts in force are stored. -/
theorem partitionSet_acts {s : State} {h : Nat} {c : Cmd} {form : Cmd → Bool} {act : Cmd → Dev → Dev} {d : Dev} (r : Starts s h 0x10 c)
    (of : form c = true) (eq : act c s.dev = d) :
    (Host.Outcome.next (partitionSet h form s act) : Host.Outcome State Fault Refusal) =
      .next { s with dev := d, plat := { s.plat with layouts := d.layouts } } := by
  obtain ⟨up, live, op, phase, may⟩ := r
  subst eq
  simp only [partitionSet, whenUp, up, if_true, State.onDev, Dev.onCmd, live, op, of, phase, may, and_self, State.storeLayouts]

/-- Checks that pass say nothing of those after them. -/
theorem firstFail_append_of_pass {l m : List (Nat × Nat × Bool)} (h : firstFail l = none) : firstFail (l ++ m) = firstFail m := by
  have none_ : l.filter (fun c => c.2.2) = [] := List.filter_eq_nil_iff.mpr (fun c hc => by rw [firstFail_none.mp h c hc]; decide)
  rw [firstFail, List.filter_append, none_, List.nil_append]
  rfl

/-- The checks of a layout object after its version and its dies. -/
theorem layoutChecks_from (code : Nat) (o : Bytes) : ∀ c ∈ (layoutChecks code o).drop 2, 1 ≤ c.1 := by
  simp only [layoutChecks, List.cons_append, List.drop_succ_cons, List.drop_zero, List.forall_mem_cons, List.nil_append, List.mem_append,
    List.mem_flatMap, List.mem_range]
  refine ⟨by decide, by decide, by decide, by decide, by decide, by decide, by decide, by decide, by decide, by decide, ?_⟩
  rintro c (⟨i, -, hc⟩ | ⟨i, -, hc⟩)
  · simp only [interleaveChecks, List.mem_cons, List.not_mem_nil, or_false] at hc
    obtain rfl | rfl | rfl | rfl := hc <;> dsimp only <;> omega
  · simp only [functionChecks, List.mem_cons, List.not_mem_nil, or_false] at hc
    obtain rfl | rfl | rfl | rfl | rfl | rfl := hc <;> dsimp only <;> omega

/-- Settles O45. -/
theorem partitionsAreSet : Obligations.PartitionsAreSet := by
  refine ⟨?_, fun code o => ⟨fun version => ?_, fun version dies => ?_, fun e => if_pos e, fun e => if_pos e, fun e => if_pos e, fun e => if_pos e, fun e => if_pos e⟩⟩
  · rintro s h p c data o d bad rfl starts rfl
    refine ⟨fun op whole pass => ?_, fun op pass steady idle there plain hd => ?_, fun op pass steady idle gone hd => ?_, fun pass i hi ends => ?_⟩
    · have pass' : firstFail ([(24, stBounds, c.field 24 4 != 0 && c.field 24 4 != 256)] ++ setChecks c) = none := by
        rw [whole]
        exact pass
      have some_ : c.field 24 4 ≠ 0 := by rw [whole]; decide
      have form : (c.field 29 1 != 1 && c.field 29 1 != 2) = true := by rw [op]; rfl
      refine ⟨fun busy hd => ?_, fun steady host f fails hd => ?_, fun steady host good busy hd => ?_, fun steady host good free hd => ?_⟩
      · exact partitionSet_acts starts form ((checked_ok pass').trans ((if_neg some_).trans ((if_pos busy).trans hd.symm)))
      all_goals
        refine partitionSet_acts starts form ((checked_ok pass').trans ((if_neg some_).trans ((if_neg (by rw [steady]; decide)).trans ?_)))
        rw [whole]
        refine (withObject_host host).trans ?_
      · simp only [fails, hd]
      · simp only [good, hd]
        exact if_pos busy
      · simp only [good, hd]
        exact if_neg (by rw [free]; decide)
    · have pass' : firstFail (noObject c ++ setChecks c ++ [(28, stInvalid, (s.dev.part (c.field 28 1)).layout.isNone ||
          (s.dev.part (c.field 28 1)).fnList.contains adminFn)]) = none := by
        rw [firstFail_append_of_pass pass, Option.isNone_eq_false_iff.mpr there, List.contains_eq_mem, decide_eq_false plain]
        rfl
      exact partitionSet_acts starts (beq_iff_eq.mpr op) ((checked_ok pass').trans ((if_neg (by rw [steady]; decide)).trans
        ((if_neg (by rw [idle]; decide)).trans hd.symm)))
    · have pass' : firstFail (noObject c ++ setChecks c ++ [(28, stInvalid, !(s.dev.part (c.field 28 1)).state.isDeparted)]) = none := by
        rw [firstFail_append_of_pass pass, gone]
        rfl
      exact partitionSet_acts starts (beq_iff_eq.mpr op) ((checked_ok pass').trans ((if_neg (by rw [steady]; decide)).trans
        ((if_neg (by rw [idle]; decide)).trans hd.symm)))
    · have check (b : Bool) : firstFail (noObject c ++ setChecks c ++ [(28, stInvalid, b)]) = if b then some (stInvalid, 28) else none := by
        rw [firstFail_append_of_pass pass]
        cases b <;> rfl
      obtain ⟨rfl, op, rfl⟩ | ⟨rfl, op, rfl⟩ := hi
      all_goals
        refine partitionSet_acts starts (beq_iff_eq.mpr op) ?_
        obtain ⟨bad, rfl⟩ | ⟨good, busy, rfl⟩ | ⟨good, steady, busy, rfl⟩ := ends
        · exact checked_fail (f := (stInvalid, 28)) ((check _).trans (if_pos bad))
        · exact (checked_ok ((check _).trans (if_neg (by rw [good]; decide)))).trans (if_pos busy)
        · exact (checked_ok ((check _).trans (if_neg (by rw [good]; decide)))).trans ((if_neg (by rw [steady]; decide)).trans
            (if_pos (by rw [busy]; rfl)))
  · have bad : (fieldOf o 0 1 != 1) = true := bne_iff_ne.mpr version
    unfold layoutChecks
    rw [bad]
    exact firstFail_cons_true (fun c _ => Nat.zero_le c.1)
  · have bad : (fieldOf o 1 1 == 0 || decide (16 ≤ fieldOf o 1 1)) = true := by simpa using dies
    have list : layoutChecks code o = (0, stUnsupported, false) :: (1, stInvalid, true) :: (layoutChecks code o).drop 2 := by
      conv_lhs => unfold layoutChecks
      rw [bad, version]
      rfl
    rw [list, firstFail_cons_false]
    exact firstFail_cons_true (layoutChecks_from code o)

/-! ## The scrub -/

/-- A fold of changes, each of which either applies `f` to what is read, or leaves it. -/
theorem foldl_touch {ι κ : Type} {get : Dev → κ} {upd : Dev → ι → Dev} {f : κ → κ} {hits : ι → Prop} [DecidablePred hits]
    (hit : ∀ d i, hits i → get (upd d i) = f (get d)) (miss : ∀ d i, ¬ hits i → get (upd d i) = get d) (idem : ∀ k, f (f k) = f k)
    (l : List ι) (d : Dev) : get (l.foldl upd d) = if ∃ i ∈ l, hits i then f (get d) else get d := by
  induction l generalizing d with
  | nil => simp
  | cons i l ih =>
    rw [List.foldl_cons, ih]
    by_cases here : hits i
    · rw [if_pos (⟨i, List.mem_cons_self, here⟩ : ∃ j ∈ i :: l, hits j), hit d i here, idem, ite_self]
    · rw [miss d i here]
      simp [here]

/-- Zeroing some cores, clusters and stacks. -/
def Dev.zeroUnits (d : Dev) (cores clusters berylStacks : List Nat) : Dev :=
  berylStacks.foldl (fun (d : Dev) t => d.modStack t Stack.zeroed)
    (clusters.foldl (fun (d : Dev) t => d.modCluster t Cluster.zeroed) (cores.foldl (fun (d : Dev) c => d.modCore c Core.zeroed) d))

/-- The units of a die, of which it has `per` of a kind. -/
def dieUnits (per die : Nat) : List Nat := (List.range per).map (fun t => per * die + t)

theorem mem_dieUnits {per die n : Nat} (h : 0 < per) : n ∈ dieUnits per die ↔ n / per = die := by
  rw [dieUnits, List.mem_map, Nat.div_eq_iff h]
  constructor
  · rintro ⟨t, ht, rfl⟩
    have := List.mem_range.mp ht
    rw [Nat.mul_comm]
    omega
  · rintro ⟨lo, hi⟩
    rw [Nat.mul_comm] at lo hi
    exact ⟨n - per * die, List.mem_range.mpr (by omega), by omega⟩

theorem zeroDies_eq (d : Dev) (dies : List Nat) :
    d.zeroDies dies = dies.foldl (fun (d : Dev) i => d.zeroUnits (dieUnits 64 i) (dieUnits 8 i) (dieUnits 4 i)) d := by
  simp only [Dev.zeroDies, Dev.zeroUnits, dieUnits, List.foldl_map]

/-- What is read of one core, cluster or stack after some of its kind have been zeroed. -/
theorem foldl_zeroed {κ : Type} {get : Dev → κ} {upd : Dev → Nat → Dev} {f : κ → κ} {n : Nat} (hit : ∀ d, get (upd d n) = f (get d))
    (miss : ∀ d i, n ≠ i → get (upd d i) = get d) (idem : ∀ k, f (f k) = f k) (l : List Nat) (d : Dev) :
    get (l.foldl upd d) = if n ∈ l then f (get d) else get d := by
  rw [foldl_touch (hits := fun i => n = i) (fun d i e => by subst e; exact hit d) miss idem]
  simp

theorem zeroUnits_core (d : Dev) (cores clusters berylStacks : List Nat) (n : Nat) :
    (d.zeroUnits cores clusters berylStacks).core n = if n ∈ cores then (d.core n).zeroed else d.core n :=
  (foldl_keeps (fun d : Dev => d.core n) (fun (d : Dev) t => d.modStack t Stack.zeroed) (fun _ _ => rfl) _ _).trans
    ((foldl_keeps (fun d : Dev => d.core n) (fun (d : Dev) t => d.modCluster t Cluster.zeroed) (fun _ _ => rfl) _ _).trans
      (foldl_zeroed (get := fun d => d.core n) (upd := fun (d : Dev) c => d.modCore c Core.zeroed) (f := Core.zeroed)
        (fun d => core_modCore d n _) (fun d _ e => core_modCore_ne d _ e) (fun _ => rfl) cores d))

theorem zeroUnits_cluster (d : Dev) (cores clusters berylStacks : List Nat) (n : Nat) :
    (d.zeroUnits cores clusters berylStacks).cluster n = if n ∈ clusters then (d.cluster n).zeroed else d.cluster n := by
  have kept := foldl_keeps (fun d : Dev => d.cluster n) (fun (d : Dev) c => d.modCore c Core.zeroed) (fun _ _ => rfl) cores d
  refine (foldl_keeps (fun d : Dev => d.cluster n) (fun (d : Dev) t => d.modStack t Stack.zeroed) (fun _ _ => rfl) _ _).trans
    ((foldl_zeroed (get := fun d => d.cluster n) (upd := fun (d : Dev) c => d.modCluster c Cluster.zeroed) (f := Cluster.zeroed)
      (fun d => cluster_modCluster d n _) (fun d _ e => cluster_modCluster_ne d _ e) (fun _ => rfl) clusters _).trans ?_)
  rw [kept]

theorem zeroUnits_stack (d : Dev) (cores clusters berylStacks : List Nat) (n : Nat) :
    (d.zeroUnits cores clusters berylStacks).stack n = if n ∈ berylStacks then (d.stack n).zeroed else d.stack n := by
  have kept := (foldl_keeps (fun d : Dev => d.stack n) (fun (d : Dev) c => d.modCluster c Cluster.zeroed) (fun _ _ => rfl) clusters _).trans
    (foldl_keeps (fun d : Dev => d.stack n) (fun (d : Dev) c => d.modCore c Core.zeroed) (fun _ _ => rfl) cores d)
  refine (foldl_zeroed (get := fun d => d.stack n) (upd := fun (d : Dev) c => d.modStack c Stack.zeroed) (f := Stack.zeroed)
    (fun d => stack_modStack d n _) (fun d _ e => stack_modStack_ne d _ e) (fun _ => rfl) berylStacks _).trans ?_
  rw [kept]

/-- What zeroing some dies leaves of a unit on one die. -/
theorem zeroDies_read {κ : Type} {get : Dev → κ} {f : κ → κ} {die : Nat} (idem : ∀ k, f (f k) = f k)
    (each : ∀ (d : Dev) (i : Nat), get (d.zeroUnits (dieUnits 64 i) (dieUnits 8 i) (dieUnits 4 i)) = if i = die then f (get d) else get d)
    (dies : List Nat) (d : Dev) : get (d.zeroDies dies) = if die ∈ dies then f (get d) else get d := by
  have all := foldl_touch (get := get) (upd := fun (d : Dev) i => d.zeroUnits (dieUnits 64 i) (dieUnits 8 i) (dieUnits 4 i)) (f := f)
    (hits := (· = die)) (fun d i e => (each d i).trans (if_pos e)) (fun d i e => (each d i).trans (if_neg e)) idem dies d
  rw [zeroDies_eq, all]
  simp

theorem zeroDies_core (d : Dev) (dies : List Nat) (n : Nat) :
    (d.zeroDies dies).core n = if n / 64 ∈ dies then (d.core n).zeroed else d.core n :=
  zeroDies_read (get := fun d => d.core n) (f := Core.zeroed) (fun _ => rfl) (fun d i => (zeroUnits_core d _ _ _ n).trans
    (if_congr ((mem_dieUnits (by decide)).trans eq_comm) rfl rfl)) dies d

theorem zeroDies_cluster (d : Dev) (dies : List Nat) (n : Nat) :
    (d.zeroDies dies).cluster n = if n / 8 ∈ dies then (d.cluster n).zeroed else d.cluster n :=
  zeroDies_read (get := fun d => d.cluster n) (f := Cluster.zeroed) (fun _ => rfl) (fun d i => (zeroUnits_cluster d _ _ _ n).trans
    (if_congr ((mem_dieUnits (by decide)).trans eq_comm) rfl rfl)) dies d

theorem zeroDies_stack (d : Dev) (dies : List Nat) (n : Nat) :
    (d.zeroDies dies).stack n = if n / 4 ∈ dies then (d.stack n).zeroed else d.stack n :=
  zeroDies_read (get := fun d => d.stack n) (f := Stack.zeroed) (fun _ => rfl) (fun d i => (zeroUnits_stack d _ _ _ n).trans
    (if_congr ((mem_dieUnits (by decide)).trans eq_comm) rfl rfl)) dies d

theorem zeroUnits_parts (d : Dev) (cores clusters berylStacks : List Nat) : (d.zeroUnits cores clusters berylStacks).parts = d.parts :=
  (foldl_keeps Dev.parts (fun (d : Dev) t => d.modStack t Stack.zeroed) (fun _ _ => rfl) _ _).trans
    ((foldl_keeps Dev.parts (fun (d : Dev) t => d.modCluster t Cluster.zeroed) (fun _ _ => rfl) _ _).trans
      (foldl_keeps Dev.parts (fun (d : Dev) t => d.modCore t Core.zeroed) (fun _ _ => rfl) _ _))

theorem zeroDies_parts (d : Dev) (dies : List Nat) : (d.zeroDies dies).parts = d.parts := by
  rw [zeroDies_eq]
  exact foldl_keeps Dev.parts _ (fun d _ => zeroUnits_parts d _ _ _) dies d

/-- What a scrub leaves of the partition, where no command is live. -/
theorem scrub_part {d : Dev} (quiet : d.host.live = []) (ep p : Nat) (h : Option Nat) (del : Bool) :
    ∃ key, (d.scrub ep p h del).part p = { (d.part p).scrubbed key with state := .scrubbing h del } := by
  unfold Dev.scrub
  simp only [quiet, List.filter_nil, List.foldl_nil, Dev.prefixKey, Dev.draw]
  rw [part_modPart]
  refine ⟨_, congrArg (fun x : Part => { x.scrubbed _ with state := .scrubbing h del }) (congrArg (fun t => Tab.getD t p Part.reset) ?_)⟩
  exact (foldl_keeps Dev.parts (fun (d : Dev) f => d.modFn f (fun x => { x with bar2Wait := [] })) (fun _ _ => rfl) _ _).trans (zeroDies_parts _ _)

/-- What an EVENT queued for a function leaves: of the partitions all but a count of lost entries, of the functions all but their
entries. -/
theorem queueEvent_frame (d : Dev) (f code d0 d1 : Nat) :
    (∀ p, ∃ counters, (d.queueEvent f code d0 d1).part p = { d.part p with counters := counters }) ∧
    (∀ g, ((d.queueEvent f code d0 d1).fn g).awaiting = (d.fn g).awaiting) := by
  have fns (k : Fn → Fn) (keeps : ∀ x, (k x).awaiting = x.awaiting) (g : Nat) : ((d.modFn f k).fn g).awaiting = (d.fn g).awaiting := by
    by_cases e : g = f
    · rw [e, fn_modFn, keeps]
    · rw [fn_modFn_ne _ _ e]
  unfold Dev.queueEvent
  dsimp only
  split
  · exact ⟨fun p => ⟨(d.part p).counters, rfl⟩, fns _ (fun _ => rfl)⟩
  · split
    · next q _ =>
      refine ⟨fun p => ?_, fun g => Eq.trans ?_ (fns (fun x => { x with lost := x.lost + 1 }) (fun _ => rfl) g)⟩
      · by_cases e : p = q
        · exact ⟨_, by rw [e, Dev.count, if_neg Nat.one_ne_zero, part_modPart]; rfl⟩
        · exact ⟨(d.part p).counters, by rw [Dev.count, if_neg Nat.one_ne_zero, part_modPart_ne _ _ e]; rfl⟩
      · rw [Dev.count, if_neg Nat.one_ne_zero]
        rfl
    · exact ⟨fun p => ⟨(d.part p).counters, rfl⟩, fns _ (fun _ => rfl)⟩

/-- A partition that is attached again, no host of it having attached. -/
def Part.attachedAgain (x : Part) : Part := { x with state := .attached, everAttached := false }

/-- A partition that stays, at the end of its scrub and before its hosts attach: the event is reported. -/
def Dev.scrubbed (d : Dev) (p : Nat) : Dev :=
  ((d.modPart p Part.attachedAgain).modEvent
    { EventRec.blank 0x000A 4 8 with partition := p, d0 := p }).queueEvent adminFn 0x000A p 0

theorem scrubbed_frame (d : Dev) (p : Nat) :
    (∃ counters, (d.scrubbed p).part p = { d.part p with state := .attached, everAttached := false, counters := counters }) ∧
    ∀ g, ((d.scrubbed p).fn g).awaiting = (d.fn g).awaiting := by
  obtain ⟨parts, fns⟩ := queueEvent_frame ((d.modPart p Part.attachedAgain).modEvent
    { EventRec.blank 0x000A 4 8 with partition := p, d0 := p }) adminFn 0x000A p 0
  obtain ⟨counters, eq⟩ := parts p
  have here : ((d.modPart p Part.attachedAgain).modEvent
    { EventRec.blank 0x000A 4 8 with partition := p, d0 := p }).part p = (d.part p).attachedAgain := part_modPart d p Part.attachedAgain
  rw [here] at eq
  exact ⟨⟨counters, eq⟩, fns⟩

/-- A scrub that no command asked for ends, with no host waiting for it. -/
theorem scrubEnds_stays {d : Dev} {p : Nat} (scrubs : (d.part p).state = .scrubbing none false)
    (none_ : ∀ f ∈ (d.part p).fnList, (d.fn f).awaiting = false) : d.scrubEnds p = d.scrubbed p := by
  obtain ⟨⟨counters, eq⟩, fns⟩ := scrubbed_frame d p
  have quiet : ((d.scrubbed p).part p).fnList.filter (fun f => ((d.scrubbed p).fn f).awaiting) = [] := by
    rw [List.filter_eq_nil_iff, eq]
    intro f hf waits
    rw [fns f, none_ f hf] at waits
    nomatch waits
  unfold Dev.scrubEnds
  simp only [scrubs, Bool.false_eq_true, if_false]
  exact (congrArg (fun l => List.foldl (fun (d : Dev) f => d.arriveFn f) (d.scrubbed p) l) quiet)

/-- Settles O46. -/
theorem partitionsAreScrubbed : Obligations.PartitionsAreScrubbed := by
  refine ⟨fun d dies n => ⟨fun h => (zeroDies_core d dies n).trans (if_pos h), fun h => (zeroDies_core d dies n).trans (if_neg h),
    fun h => (zeroDies_cluster d dies n).trans (if_pos h), fun h => (zeroDies_cluster d dies n).trans (if_neg h),
    fun h => (zeroDies_stack d dies n).trans (if_pos h), fun h => (zeroDies_stack d dies n).trans (if_neg h), rfl, rfl, rfl⟩, ?_, ?_⟩
  · intro s p at_ y i ⟨up, unit⟩ hi
    refine ⟨fun stays => ?_, fun departed there quiet => ?_⟩
    · obtain rfl | rfl := hi
      · refine onUnit_acts (e := s.dev) up (decide_eq_true unit) ?_
        cases st : (s.dev.part p).state with
        | departed t => rw [st] at stays; nomatch stays
        | _ => rfl
      · exact onUnit_acts (e := s.dev) up (decide_eq_true unit) (if_neg (by rw [stays]; decide))
    · have starts (d : Dev) (same : d.part p = s.dev.part p) (live : d.host.live = []) :
          ((d.scrub s.plat.fuseEpoch p none false).part p).state = .scrubbing none false ∧
          ((d.scrub s.plat.fuseEpoch p none false).part p).inst = (s.dev.part p).inst + 1 ∧
          ((d.scrub s.plat.fuseEpoch p none false).part p).gen = ((s.dev.part p).gen + 1) % 256 ∧
          ((d.scrub s.plat.fuseEpoch p none false).part p).layout = some y ∧ ((d.scrub s.plat.fuseEpoch p none false).part p).programs = [] ∧
          ((d.scrub s.plat.fuseEpoch p none false).part p).seqs = [] ∧ ((d.scrub s.plat.fuseEpoch p none false).part p).regions = [] ∧
          ((d.scrub s.plat.fuseEpoch p none false).part p).sectors = [] ∧
          ∀ e ∈ ((d.scrub s.plat.fuseEpoch p none false).part p).keys, e.2.live = false := by
        obtain ⟨key, eq⟩ := scrub_part live s.plat.fuseEpoch p none false
        rw [eq, same]
        refine ⟨rfl, rfl, rfl, there, rfl, rfl, rfl, rfl, fun e he => ?_⟩
        obtain ⟨k, -, rfl⟩ := List.mem_map.mp he
        rfl
      obtain rfl | rfl := hi
      · refine ⟨_, onUnit_acts (e := (s.dev.reach (s.dev.now + (at_ + y.graceS * 10 ^ 9 - s.dev.tc p))).scrub s.plat.fuseEpoch p none false) up
          (decide_eq_true unit) ?_, starts _ rfl quiet⟩
        simp only [departed, there]
      · exact ⟨_, onUnit_acts up (decide_eq_true unit) (if_pos (by rw [departed]; rfl)), starts s.dev rfl quiet⟩
  · rintro s p x ⟨up, unit⟩ rfl
    have ends : exec (.scrubComplete p) s =
        .next { s with dev := s.dev.scrubEnds p, plat := { s.plat with layouts := (s.dev.scrubEnds p).layouts } } := by
      refine (congrArg (fun b => onUnit b _) (decide_eq_true unit)).trans (congrArg Host.Outcome.next ?_)
      simp only [whenUp, up, if_true, State.onDev, State.storeLayouts]
    refine ⟨fun other => ?_, fun scrubs none_ => ⟨_, ends, ?_⟩, fun scrubs none_ => ⟨_, ends, ?_⟩⟩
    · have still : s.dev.scrubEnds p = s.dev := by
        unfold Dev.scrubEnds
        split
        · next h d e => exact absurd e (other h d)
        · rfl
      rw [ends, still]
    · obtain ⟨counters, eq⟩ := (scrubbed_frame s.dev p).1
      rw [scrubEnds_stays scrubs none_]
      exact ⟨by rw [eq], by rw [eq], by rw [eq], rfl⟩
    · have gone : s.dev.scrubEnds p = s.dev.modPart p Part.removed := by
        unfold Dev.scrubEnds
        simp only [scrubs, if_true, none_, Dev.moving, List.filter_nil, List.foldl_nil]
      rw [gone]
      refine ⟨?_, ?_, rfl⟩ <;> rw [part_modPart] <;> rfl

end Sys2Proof.Machine

namespace Sys2Proof.Machine

/-! ## ATTEST and SESSION_OPEN -/

theorem withCarnelian_serves {d : Dev} {h : Nat} {act : Dev → Dev} (serves : d.carnelian = true) : d.withCarnelian h act = act d :=
  if_pos serves

theorem withCarnelian_gone {d : Dev} {h : Nat} {act : Dev → Dev} (gone : d.carnelian = false) :
    d.withCarnelian h act = d.complete h stDeviceFault 0 0 := if_neg (by rw [gone]; decide)

/-- Settles O47. -/
theorem attestationAndSessions : Obligations.AttestationAndSessions := by
  refine ⟨?_, ?_⟩
  · rintro s h p n c d body rfl rfl starts pass some_
    refine ⟨fun gone => runCmd_acts starts rfl ((checked_ok pass).trans ((if_neg some_).trans (withCarnelian_gone gone))),
      fun serves host short => runCmd_acts starts rfl ((checked_ok pass).trans ((if_neg some_).trans ((withCarnelian_serves serves).trans
        ((withOut_host host).trans (if_pos short))))), fun serves host fits hd hbody => ?_⟩
    refine runCmd_acts starts rfl ((checked_ok pass).trans ((if_neg some_).trans ((withCarnelian_serves serves).trans
        ((withOut_host host).trans ((if_neg (Nat.not_lt.mpr fits)).trans ?_)))))
    dsimp only
    rw [← hd, ← hbody]
  · rintro s h n m c data b rfl rfl starts pass some_ area serves host out
    refine ⟨fun short => ?_, fun fits hb => ?_⟩
    · exact runCmd_acts starts rfl ((checked_ok pass).trans ((if_neg (not_or.mpr ⟨some_, area⟩)).trans ((withCarnelian_serves serves).trans
        ((withObject_host host).trans ((withOut_host out).trans (if_pos short))))))
    · refine runCmd_acts starts rfl ((checked_ok pass).trans ((if_neg (not_or.mpr ⟨some_, area⟩)).trans ((withCarnelian_serves serves).trans
        ((withObject_host host).trans ((withOut_host out).trans ((if_neg (Nat.not_lt.mpr fits)).trans ?_))))))
      dsimp only
      rw [← hb]

/-! ## SPDM -/

/-- A change of a partition keeps what it does not touch, of every partition. -/
theorem modPart_reads {κ : Type} (m : Part → κ) {f : Part → Part} (keeps : ∀ x, m (f x) = m x) (d : Dev) (q p : Nat) :
    m ((d.modPart q f).part p) = m (d.part p) := by
  by_cases same : p = q
  · rw [same, part_modPart, keeps]
  · rw [part_modPart_ne _ _ same]

/-- An SPDM request that reaches Carnelian has the effect of its row. -/
theorem onSpdm_acts {s : State} {src : SpdmSrc} {act : Dev → Dev} {e : Dev} (r : SpdmUp s src) (eq : act s.dev = e) :
    onSpdm src s act = .next { s with dev := e } := (onSpdm_up r).trans (next_dev eq)

/-- The sessions of a transport that belongs to a partition. -/
theorem sessionsOf_part {d : Dev} {src : SpdmSrc} {p : Nat} (h : d.spdmPart src = some p) : d.sessionsOf src = (d.part p).sessions := by
  cases src <;> simp_all [Dev.sessionsOf, Dev.spdmPart, spdmFn]

theorem setSessions_part {d : Dev} {src : SpdmSrc} {p : Nat} (h : d.spdmPart src = some p) (l : List Spdm) :
    d.setSessions src l = d.modPart p (fun x => { x with sessions := l }) := by
  cases src <;> simp_all [Dev.setSessions, Dev.spdmPart, spdmFn]

theorem setSessions_sessions {d : Dev} {src : SpdmSrc} {p : Nat} (h : d.spdmPart src = some p) (l : List Spdm) :
    ((d.setSessions src l).part p).sessions = l := by
  rw [setSessions_part h, part_modPart]

theorem hasSessions_part {d : Dev} {src : SpdmSrc} {p : Nat} (h : d.spdmPart src = some p) : d.hasSessions src = true := by
  simp [Dev.hasSessions, h]

/-- What making a session secure leaves of its partition's sessions. -/
theorem secureSession_sessions {d : Dev} {src : SpdmSrc} {p : Nat} (h : d.spdmPart src = some p) (v : Spdm) :
    ((d.secureSession src v).2.part p).sessions =
      (d.part p).sessions.erase v ++ [{ v with tag := (d.secureSession src v).1, secure := true, resuming := false }] := by
  unfold Dev.secureSession
  dsimp only
  generalize new : (d.draw.2.freeBytes 64).2.setSessions src _ = e
  have sessions : (e.part p).sessions = (d.part p).sessions.erase v ++ [{ v with tag := d.draw.1 % 2 ^ 64, secure := true, resuming := false }] := by
    rw [← new, sessionsOf_part h]
    exact setSessions_sessions (d := (d.draw.2.freeBytes 64).2) h _
  rw [← sessions]
  split
  · refine modPart_reads Part.sessions (fun _ => ?_) _ _ _
    rfl
  · rfl

/-- A request that begins, ends or resumes a session, by its part of the state. -/
theorem keyExchange_sessions {s : State} {src : SpdmSrc} {ek : Bytes} {p : Nat} (up : SpdmUp s src) (part : s.dev.spdmPart src = some p) :
    ∃ t : State, exec (.keyExchange src ek) s = .next t ∧ (∃ a b, t.dev.spdmReply = some (.keyExchange a b)) ∧
      ∃ k, (t.dev.part p).sessions =
        (s.dev.part p).sessions.drop ((s.dev.part p).sessions.length - 7) ++ [⟨0, (spdmFn src).getD noFn, false, k, false⟩] := by
  refine ⟨_, onSpdm_acts up (if_neg (by rw [hasSessions_part part]; decide)), ⟨_, _, rfl⟩, (Config.mlKemEncaps ek s.dev.draw.1).2, ?_⟩
  have drawn : s.dev.draw.2.spdmPart src = some p := part
  refine (setSessions_sessions drawn _).trans ?_
  rw [sessionsOf_part part]
  rfl

/-- A function one of whose streams is secure. -/
def Fn.secured (x : Fn) (stream : Nat) : Fn := { x with ide := if x.ide.contains stream then x.ide else x.ide ++ [stream] }
/-- A function one of whose streams is secure no more. -/
def Fn.plain (x : Fn) (stream : Nat) : Fn := { x with ide := x.ide.filter (· != stream) }

/-- A port whose link stream is secure or not. -/
def Port.linked (x : Port) (secure : Bool) : Port := { x with linkIde := secure }

/-- Settles O48. -/
theorem spdmSessionsAreSetUp : Obligations.SpdmSessionsAreSetUp := by
  refine ⟨fun s src algs nonce up => ⟨onSpdm_acts up rfl, onSpdm_acts up rfl, onSpdm_acts up rfl, onSpdm_acts up rfl, onSpdm_acts up rfl,
    onSpdm_acts up rfl, ?_⟩, ?_, ?_⟩
  · simp [Dev.measurements, Plat.digests]
  · intro s src ek psk p tag v e up
    refine ⟨fun part => keyExchange_sessions up part, fun other gone => onSpdm_acts up (if_pos ?_), onSpdm_acts up ?_, fun part opening => ?_,
      fun part record => ⟨fun secret open_ => ?_, fun bad => onSpdm_acts up ?_⟩, fun part opening open_ record => ?_, fun part opening => ?_⟩
    · simp [Dev.hasSessions, other, gone]
    · cases s.dev.opening src false <;> rfl
    · refine ⟨_, _, onSpdm_acts (e := (s.dev.secureSession src v).2.answer (.finished (s.dev.secureSession src v).1)) up ?_, rfl,
        secureSession_sessions part v⟩
      simp only [opening]
    · refine ⟨_, onSpdm_acts (e := (s.dev.setSessions src (addSession (s.dev.sessionsOf src)
        ⟨tag, (spdmFn src).getD noFn, false, psk, true⟩)).answer .pskExchange) up ?_, rfl⟩
      simp only [part, record]
      exact if_pos ⟨secret, open_⟩
    · simp only [part, record]
      exact if_neg (fun ⟨secret, open_⟩ => bad.elim (fun no => no secret) (fun no => by rw [open_] at no; nomatch no))
    · refine ⟨_, (s.dev.secureSession src v).1, onSpdm_acts (e := (if ((s.dev.secureSession src v).2.fn ((spdmFn src).getD noFn)).awaiting then
        (s.dev.secureSession src v).2.reattach ((spdmFn src).getD noFn) else (s.dev.secureSession src v).2).answer
          (.finished (s.dev.secureSession src v).1)) up ?_, rfl⟩
      simp only [opening, part]
      exact if_pos ⟨trivial, open_, record⟩
    · refine ⟨_, onSpdm_acts (e := (s.dev.setSessions src ((s.dev.sessionsOf src).erase v)).answer .error) up ?_, rfl, ?_⟩
      · simp only [opening, part]
        exact if_neg (fun ⟨no, _⟩ => nomatch no)
      · refine (setSessions_sessions part _).trans ?_
        rw [sessionsOf_part part]
  · intro s f stream port
    refine ⟨fun up secure present small => ?_, fun up secure present link => ?_, fun up plain => ?_, fun up unit link => ?_, fun up unit other here => ?_⟩
    · have goes : ¬ ((SpdmSrc.doe (portOf f)) ≠ .doe (portOf f) ∨ (!s.dev.secureOf (.doe (portOf f))) = true ∨ (!(s.dev.fn f).present) = true ∨
          linkStream < stream) := by
        have : ¬ linkStream < stream := by unfold linkStream; omega
        simp [secure, present, this]
      refine ⟨_, onSpdm_acts up ((if_neg goes).trans (if_neg (Nat.ne_of_lt small))), ?_, rfl⟩
      refine (congrArg (fun x : Fn => stream ∈ x.ide) (fn_modFn (s.dev.touchSession (.doe (portOf f))) f (·.secured stream))).mpr ?_
      dsimp only [Fn.secured]
      split
      · next there => exact List.contains_iff_mem.mp there
      · exact List.mem_append_right _ List.mem_cons_self
    · have goes : ¬ ((SpdmSrc.doe (portOf f)) ≠ .doe (portOf f) ∨ (!s.dev.secureOf (.doe (portOf f))) = true ∨ (!(s.dev.fn f).present) = true ∨
          linkStream < stream) := by
        have : ¬ linkStream < stream := by unfold linkStream; omega
        simp [secure, present, this]
      exact ⟨_, onSpdm_acts up ((if_neg goes).trans (if_pos link)),
        congrArg Port.linkIde (port_modPort (s.dev.touchSession (.doe (portOf f))) (portOf f) (·.linked true)), rfl⟩
    · exact onSpdm_acts up (if_pos (.inr (.inl (by rw [plain]; rfl))))
    · exact ⟨_, onUnit_acts up (decide_eq_true unit) (if_pos link), congrArg Port.linkIde (port_modPort s.dev port (·.linked false))⟩
    · have left := foldl_touch (get := fun d => d.fn f) (upd := fun (d : Dev) g => d.modFn g (·.plain stream)) (f := (·.plain stream))
        (hits := fun g => f = g) (fun d g e => by subst e; exact fn_modFn d f _) (fun d g e => fn_modFn_ne d _ e)
        (fun x => by simp only [Fn.plain, List.filter_filter, Bool.and_self]) (s.dev.presentOn port) s.dev
      rw [if_pos ⟨f, here, rfl⟩] at left
      refine ⟨_, onUnit_acts (e := (s.dev.presentOn port).foldl (fun (d : Dev) g => d.modFn g (·.plain stream)) s.dev) up (decide_eq_true unit)
        (if_neg other), ?_⟩
      dsimp only
      rw [left]
      exact fun stays => absurd rfl (bne_iff_ne.mp (List.mem_filter.mp stays).2)

end Sys2Proof.Machine

namespace Sys2Proof.Machine

/-! ## KEY_IMPORT -/

/-- KEY_IMPORT's IMPORT, with its object. -/
def Dev.importKey (d : Dev) (h : Nat) (c : Cmd) (n : Nat) (o : Bytes) : Dev :=
  if n ≠ 1664 then d.failAt h stBounds 24
  else match firstFail (importChecks o) with
    | some f => d.failObj h f.1 f.2
    | none => match (d.part c.part).unwrap c.part o with
      | none => d.failObj h stAuth 4
      | some key => match (d.part c.part).freeKey with
        | none => d.complete h stCount 0 0
        | some i =>
          let reuse := (Tab.find (d.part c.part).keys i).elim 0 (fun k => (k.reuse + 1) % 2 ^ 24)
          (d.modPart c.part (fun x => { x with keys := Tab.put x.keys i ⟨key, bitOf (fieldOf o 2 1) 0, reuse, true⟩ })).complete
            h stOK (i + 256 * reuse) 0

/-- The checks of ERASE: whether the key is gone, whether a weight region uses it. -/
def eraseChecks (o : Bytes) (n : Nat) (gone used : Bool) : List (Nat × Nat × Bool) :=
  [(0, stUnsupported, fieldOf o 0 1 != 1), (2, stInvalid, decide (2 ≤ fieldOf o 2 1)), (3, stInvalid, fieldOf o 3 1 != 0),
    (4, stInvalid, gone), (4, stAuth, used)] ++ (List.range (n - 16)).map (fun i => (16 + i, stInvalid, fieldOf o (16 + i) 1 != 0))

/-- A partition one of whose key slots is erased. -/
def Part.erased (x : Part) (k : Nat) : Part :=
  { x with keys := x.keys.map (fun e => (e.1, if e.1 = k % 256 then { e.2 with live := false, sealKey := false, key := [] } else e.2)) }

/-- KEY_IMPORT's ERASE, with its object. -/
def Dev.eraseKey (d : Dev) (h : Nat) (c : Cmd) (n : Nat) (o : Bytes) : Dev :=
  if n < 16 ∨ 1664 < n then d.failAt h stBounds 24
  else match firstFail (eraseChecks o n ((d.part c.part).keyOf (fieldOf o 4 4)).isNone
      ((d.part c.part).regions.any (fun e => e.2.key == some (fieldOf o 4 4)))) with
    | some f => d.failObj h f.1 f.2
    | none => (d.modPart c.part (·.erased (fieldOf o 4 4))).complete h stOK 0 0

/-- KEY_IMPORT with an object of its row in host memory. -/
theorem keyCmd_acts {s : State} {h : Nat} {c : Cmd} {data : Bytes} {mine : Nat → Bool} {act : Cmd → Nat → Bytes → Dev → Dev} {f : Dev → Dev}
    (starts : Starts s h 0x82 c) (pass : firstFail (rsvBytes c [(28, 36)]) = none) (some_ : c.field 24 4 ≠ 0) (serves : s.dev.carnelian = true)
    (host : HostObject c (c.field 24 4)) (row : mine (fieldOf (objectOf data (c.field 24 4)) 1 1) = true)
    (eq : act c (c.field 24 4) (objectOf data (c.field 24 4)) s.dev = f s.dev) : keyCmd h data s mine act = .next (s.onDev f) :=
  runCmd_acts starts rfl ((checked_ok pass).trans ((if_neg some_).trans ((withCarnelian_serves serves).trans ((withObject_host host).trans
    ((if_pos row).trans eq)))))

theorem keyImport_acts {s : State} {h : Nat} {c : Cmd} {data o : Bytes} {f : Dev → Dev} (starts : Starts s h 0x82 c)
    (pass : firstFail (rsvBytes c [(28, 36)]) = none) (some_ : c.field 24 4 ≠ 0) (serves : s.dev.carnelian = true)
    (host : HostObject c (c.field 24 4)) (ho : o = objectOf data (c.field 24 4)) (row : fieldOf o 1 1 ≠ 1)
    (eq : s.dev.importKey h c (c.field 24 4) o = f s.dev) : exec (.keyImport h data) s = .next (s.onDev f) := by
  subst ho
  exact (keyCmd_acts starts pass some_ serves host (bne_iff_ne.mpr row) eq : execKeyImport h data s = _)

theorem keyImportErase_acts {s : State} {h : Nat} {c : Cmd} {data o : Bytes} {f : Dev → Dev} (starts : Starts s h 0x82 c)
    (pass : firstFail (rsvBytes c [(28, 36)]) = none) (some_ : c.field 24 4 ≠ 0) (serves : s.dev.carnelian = true)
    (host : HostObject c (c.field 24 4)) (ho : o = objectOf data (c.field 24 4)) (row : fieldOf o 1 1 = 1)
    (eq : s.dev.eraseKey h c (c.field 24 4) o = f s.dev) : exec (.keyImportErase h data) s = .next (s.onDev f) := by
  subst ho
  exact (keyCmd_acts starts pass some_ serves host (beq_iff_eq.mpr row) eq : execKeyImportErase h data s = _)

/-- The checks of the import form pass only for an import. -/
theorem importChecks_op {o : Bytes} (pass : firstFail (importChecks o) = none) : fieldOf o 1 1 = 0 := by
  have op := firstFail_none.mp pass (1, stInvalid, fieldOf o 1 1 != 0) (by simp [importChecks])
  simpa using op

/-- The key handle of a slot that has been erased names no key. -/
theorem keyOf_erased (x : Part) (k : Nat) : (x.erased k).keyOf k = none := by
  have found : ∀ s ∈ Tab.find (x.erased k).keys (k % 256), s.live = false := by
    intro s hs
    obtain ⟨e, he, rfl⟩ := Option.map_eq_some_iff.mp hs
    obtain ⟨a, -, rfl⟩ := List.mem_map.mp (List.mem_of_find?_eq_some he)
    have at_ := List.find?_some (p := fun e : Nat × KeySlot => e.1 == k % 256) he
    dsimp only at at_ ⊢
    rw [if_pos (beq_iff_eq.mp at_)]
  unfold Part.keyOf
  cases slot : Tab.find (x.erased k).keys (k % 256) with
  | none => rfl
  | some s =>
    rw [Option.bind_some, found s slot]
    rfl

/-- The checks of ERASE, once everything but its weight regions is right. -/
theorem eraseChecks_eq {o : Bytes} {n : Nat} (version : fieldOf o 0 1 = 1) (flags : fieldOf o 2 1 < 2) (rsv : fieldOf o 3 1 = 0)
    (zero : ∀ i, i < n - 16 → fieldOf o (16 + i) 1 = 0) (used : Bool) :
    firstFail (eraseChecks o n false used) = if used then some (stAuth, 4) else none := by
  have rest : firstFail ((List.range (n - 16)).map (fun i => (16 + i, stInvalid, fieldOf o (16 + i) 1 != 0))) = none := by
    rw [firstFail_none]
    intro c hc
    obtain ⟨i, hi, rfl⟩ := List.mem_map.mp hc
    simp [zero i (List.mem_range.mp hi)]
  unfold eraseChecks
  rw [version, rsv, decide_eq_false (Nat.not_le.mpr flags)]
  cases used with
  | false => exact rest
  | true =>
    refine firstFail_cons_true (fun c hc => ?_)
    obtain ⟨i, -, rfl⟩ := List.mem_map.mp hc
    exact Nat.le_trans (by decide : 4 ≤ 16) (Nat.le_add_right 16 i)

/-! ## WEIGHTS_BIND -/

/-- WEIGHTS_BIND_COMPLETE of a command that runs. -/
def Dev.bound (d : Dev) (h : Nat) (c : Cmd) : Dev :=
  match Tab.find (d.part c.part).regions (c.field 32 4) with
  | none => d.complete h stInvalid 0 (locus 0 0 32)
  | some r => match (d.part c.part).decrypt c with
    | none => (d.zeroExtent c.part r.addr r.bytes).complete h stAuth 0 0
    | some text => d.bindRegion c.part h (c.field 32 4) r (text.take r.bytes) (c.field 36 4)

/-- A partition once its sweep is over. -/
def Part.swept (x : Part) (t : Tier) (seed old : Nat) : Part :=
  { x with
    oldGen := none
    sectors := sweptSectors t seed old x.gen x.sectors
    storeSectors := sweptSectors t (seed + 1) old x.gen x.storeSectors
    seqs := x.seqs.map (fun e => (e.1, { e.2 with entries := e.2.entries.map (fun z => (z.1, { z.2 with keyGen := x.gen })) })) }

/-- Settles O49. -/
theorem keysWeightsAndGenerations : Obligations.KeysWeightsAndGenerations := by
  refine ⟨?_, ?_, ?_⟩
  · rintro s h p n k c data o rfl rfl starts pass serves host rfl
    refine ⟨fun some_ long op => keyImport_acts starts pass some_ serves host rfl op (if_pos long), fun whole op f fails => ?_,
      fun whole good => ?_, fun lo hi hk version op flags rsv zero there => ?_⟩
    · refine keyImport_acts starts pass (by rw [whole]; decide) serves host rfl op ((if_neg (not_not_intro whole)).trans ?_)
      simp only [fails]
    · have some_ : c.field 24 4 ≠ 0 := by rw [whole]; decide
      have row : fieldOf (objectOf data (c.field 24 4)) 1 1 ≠ 1 := by rw [importChecks_op good]; decide
      refine ⟨fun bad => ?_, fun key unwraps full => ?_, fun key i unwraps free reuse hreuse => ?_⟩
      all_goals refine keyImport_acts starts pass some_ serves host rfl row ((if_neg (not_not_intro whole)).trans ?_)
      · simp only [good, bad]
      · simp only [good, unwraps, full]
      · have same : (Tab.find (s.dev.part c.part).keys i).elim 0 (fun k => (k.reuse + 1) % 2 ^ 24) = reuse := by
          rw [hreuse]
          cases Tab.find (s.dev.part c.part).keys i <;> rfl
        simp only [good, unwraps, free, same]
    · subst hk
      have some_ : c.field 24 4 ≠ 0 := by omega
      have long : ¬ (c.field 24 4 < 16 ∨ 1664 < c.field 24 4) := by omega
      have checks := eraseChecks_eq version flags rsv zero
      refine ⟨fun used => ?_, fun free => ⟨s.dev.modPart c.part (·.erased (fieldOf (objectOf data (c.field 24 4)) 4 4)), ?_, ?_⟩⟩
      · refine keyImportErase_acts starts pass some_ serves host rfl op ((if_neg long).trans ?_)
        rw [Option.isNone_eq_false_iff.mpr there, used, checks]
        rfl
      · refine keyImportErase_acts starts pass some_ serves host rfl op ((if_neg long).trans ?_)
        rw [Option.isNone_eq_false_iff.mpr there, free, checks]
        rfl
      · rw [part_modPart]
        exact keyOf_erased _ _
  · rintro s h p n i c data text r rfl rfl rfl
    refine ⟨fun starts there pass lo fits key serves host => ?_, fun up live op runs => ?_⟩
    · have pass' : firstFail ([(24, stBounds, c.field 24 8 != 0 && decide (c.field 24 8 < 16)),
          (24, stBounds, (Tab.find (s.dev.part c.part).regions (c.field 32 4)).elim false (fun r => decide (r.bytes + 16 < c.field 24 8))),
          (32, stInvalid, (Tab.find (s.dev.part c.part).regions (c.field 32 4)).isNone),
          (36, stAuth, ((s.dev.part c.part).keyOf (c.field 36 4)).isNone)] ++ rsvBytes c [(52, 12)]) = none := by
        rw [there, Option.isNone_eq_false_iff.mpr key, decide_eq_false (Nat.not_lt.mpr lo), Bool.and_false, Option.elim_some,
          decide_eq_false (Nat.not_lt.mpr fits)]
        exact pass
      have live := starts.2.1
      refine runCmd_acts starts rfl ((checked_ok pass').trans ((if_neg (by omega)).trans ((withCarnelian_serves serves).trans
        ((withObject_host host).trans ?_))))
      simp only [Dev.modCmd, live]
    · have acts {e : Dev} (eq : s.dev.bound h c = e) : exec (.weightsBindComplete h) s = .next { s with dev := e } := by
        refine (congrArg Host.Outcome.next (whenUp_up up) : execWeightsBindComplete h s = _).trans (next_dev ?_)
        dsimp only
        rw [live]
        exact (if_neg (by simp [op, runs])).trans eq
      refine ⟨fun gone => acts ?_, fun there bad => acts ?_, fun there good b n cold hb hn hcold => ?_⟩
      · simp only [Dev.bound, gone]
        rfl
      · simp only [Dev.bound, there, bad]
      · have binds : s.dev.bound h c = s.dev.bindRegion c.part h (c.field 32 4) r b (c.field 36 4) := by
          simp only [Dev.bound, there, good, hb]
        subst hn
        refine ⟨fun lack die hdie => acts ?_, fun warm some_ gone => acts ?_, fun warm way t ht => ?_⟩
        · subst hdie hcold
          exact binds.trans (if_pos (by simpa using lack))
        · subst hcold
          exact binds.trans ((if_neg (by simp [warm])).trans (if_pos ⟨some_, gone⟩))
        · subst hcold
          have no1 : ¬ (b.length ≠ 0 ∧ s.dev.ioWay c.part r.addr b.length = 2) := fun ⟨some_, two⟩ =>
            way.elim some_ (fun ⟨zero, _⟩ => by rw [zero] at two; nomatch two)
          have no2 : ¬ (b.length ≠ 0 ∧ (s.dev.ioWay c.part r.addr b.length = 1 ∨ s.dev.extentHeld c.part r.addr b.length = true ∨
              s.dev.staleExtent c.part r.addr b.length = true)) := fun ⟨some_, waits⟩ =>
            way.elim some_ (fun ⟨zero, free, fresh⟩ => by simp [zero, free, fresh] at waits)
          refine (acts (e := if s.dev.affords t then t else s.dev) ?_).trans (by split <;> rfl)
          rw [binds, ht]
          exact (if_neg (by simp [warm])).trans ((if_neg no1).trans (if_neg no2))
  · rintro s h p c rfl
    refine ⟨fun starts pass serves => ⟨fun sweeps => ?_, fun idle => ?_⟩, fun ⟨up, unit⟩ idle => ?_, fun ⟨up, unit⟩ sweeps steady => ?_⟩
    · exact runCmd_acts starts rfl ((checked_ok pass).trans ((withCarnelian_serves serves).trans (if_pos sweeps)))
    · exact runCmd_acts starts rfl ((checked_ok pass).trans ((withCarnelian_serves serves).trans (if_neg (by rw [idle]; decide))))
    · exact onUnit_acts up (decide_eq_true unit) (if_pos (.inl (by rw [idle]; rfl)))
    · have goes : ¬ ((s.dev.part c.part).oldGen.isNone = true ∨ (((s.dev.part c.part).dieList.flatMap (fun i => (List.range 4).map (· + 4 * i))).any
          (fun t => !(s.dev.stack t).conv.isEmpty)) = true) := by simp [steady, Option.isNone_eq_false_iff.mpr sweeps]
      generalize hd : ((List.flatMap (fun i => (List.range 4).map (· + 4 * i)) (s.dev.part c.part).dieList).foldl
        (fun (d : Dev) t => d.modStack t (fun st => { st with tags := [] }))
        (s.dev.program ((s.dev.part c.part).sweepWrites ((s.dev.part c.part).oldGen.elim 0 (·.1)))).draw.2) = d
      have parts : d.part c.part = s.dev.part c.part := by
        subst hd
        exact congrArg (fun t => Tab.getD t c.part Part.reset) 
          (foldl_keeps Dev.parts (fun (d : Dev) t => d.modStack t (fun st => { st with tags := [] })) (fun _ _ => rfl) _ _)
      generalize hq : (s.dev.program ((s.dev.part c.part).sweepWrites ((s.dev.part c.part).oldGen.elim 0 (·.1)))).draw.1 = seed
      have eq : (d.modPart c.part (·.swept d.tier seed ((s.dev.part c.part).oldGen.elim 0 (·.1)))).part c.part =
          (s.dev.part c.part).swept d.tier seed ((s.dev.part c.part).oldGen.elim 0 (·.1)) := by rw [part_modPart, parts]
      refine ⟨_, onUnit_acts (e := d.modPart c.part (·.swept d.tier seed ((s.dev.part c.part).oldGen.elim 0 (·.1))))
        up (decide_eq_true unit) ((if_neg goes).trans ?_), ?_⟩
      · subst hd hq
        rfl
      · dsimp only
        rw [eq]
        refine ⟨rfl, fun e he => ?_, fun e he => ?_, rfl⟩
        all_goals
          obtain ⟨a, -, rfl⟩ := List.mem_map.mp he
          rfl

end Sys2Proof.Machine

namespace Sys2Proof.Machine

/-! ## Queue pairs -/

/-- A row of a queue pair, by what it does. -/
theorem onQp_acts {s : State} {f q : Nat} {act : Dev → Dev} {e : Dev} (h : QpUp s f q) (eq : act s.dev = e) :
    onQp f q s act = .next { s with dev := e } := (onQp_up h).trans (next_dev eq)

theorem fnQp_modQp (d : Dev) (f q : Nat) (g : Qp → Qp) : ((d.modQp f q g).fn f).qp q = g ((d.fn f).qp q) := by
  rw [Dev.modQp, fn_modFn, qp_modQp]

/-- A row that changes a queue pair leaves it as the change has it. -/
theorem onQp_modQp {s : State} {f q : Nat} {act : Dev → Dev} {g : Qp → Qp} {y : Qp} (h : QpUp s f q) (eq : act s.dev = s.dev.modQp f q g)
    (hy : g ((s.dev.fn f).qp q) = y) : ∃ t : State, onQp f q s act = .next t ∧ (t.dev.fn f).qp q = y :=
  ⟨_, onQp_acts h eq, (fnQp_modQp _ _ _ _).trans hy⟩

/-- Settles O53. -/
theorem queuePairsAreServed : Obligations.QueuePairsAreServed := by
  refine ⟨?_, ?_⟩
  · rintro s f q v x up rfl
    refine ⟨fun off en good => ?_, fun off en bad => onQp_modQp up rfl ?_, fun on => onQp_modQp up rfl ?_, fun on dis => onQp_modQp up rfl ?_,
      fun off dis => onQp_modQp up rfl ?_, fun drains quiet => ?_, fun other => ?_, fun stopped re attached awake => ?_, fun other => ?_⟩
    · obtain ⟨t, run, eq⟩ := onQp_modQp (act := fun d => d.modQp f q (fun x => if x.state ≠ 0 ∨ !bitOf v 31 then x
        else if (x.withCfg v).valid then (x.withCfg v).fresh else { x.withCfg v with enable := false, cfgError := true }))
        (y := (((s.dev.fn f).qp q).withCfg v).fresh) up rfl (by simp [off, en, good])
      exact ⟨t, run, eq, congrArg Qp.sqHead eq, congrArg Qp.cqWrite eq, congrArg Qp.phase eq, congrArg Qp.state eq⟩
    · simp [off, en, bad]
    · simp [on]
    · simp [on, dis]
    · simp [off, dis]
    · exact ⟨_, onUnit_acts up.1.1 (decide_eq_true up.1.2.1) (if_pos ⟨drains, by rw [quiet]; rfl⟩), fnQp_modQp s.dev f q (fun x => { x with state := 0 })⟩
    · refine onUnit_acts (e := s.dev) up.1.1 (decide_eq_true up.1.2.1) (if_neg (fun ⟨drains, quiet⟩ => ?_))
      obtain no | busy := other
      · exact no drains
      · rw [busy] at quiet
        nomatch quiet
    · exact ⟨_, onQp_acts up (if_pos ⟨stopped, re, attached, by rw [awake]; rfl⟩), fnQp_modQp s.dev f q Qp.fresh⟩
    · refine onQp_acts (e := s.dev) up (if_neg (fun ⟨stopped, re, attached, awake⟩ => ?_))
      obtain no | no | no | no := other
      · exact no stopped
      all_goals simp_all
  · rintro s f q v x up rfl
    refine ⟨fun on open_ small => ?_, fun on open_ big => ?_, fun shut => onQp_acts (e := s.dev) up (if_pos ?_), fun on open_ small back => ?_, fun on open_ big => ?_,
      fun shut => onQp_acts (e := s.dev) up (if_pos ?_), fun on open_ small beyond => ?_, fun on host free some_ => ?_, fun other => ?_, fun asked unmasked => ?_, fun other => ?_⟩
    · exact ⟨_, onQp_acts up ((if_neg (by simp [on, open_])).trans (if_neg (Nat.not_le.mpr small))),
        fnQp_modQp s.dev f q (fun x => { x with sqTail := v % 2 ^ 16, stalled := false })⟩
    · exact onQp_acts up ((if_neg (by simp [on, open_])).trans (if_pos big))
    · exact shut
    · exact ⟨_, onQp_acts up ((if_neg (by simp [on, open_])).trans ((if_neg (Nat.not_le.mpr small)).trans (if_neg (Nat.not_lt.mpr back)))),
        fnQp_modQp s.dev f q (fun x => { x with cqHead := v % 2 ^ 16 })⟩
    · exact onQp_acts up ((if_neg (by simp [on, open_])).trans (if_pos big))
    · simpa using shut
    · exact onQp_acts up ((if_neg (by simp [on, open_])).trans ((if_neg (Nat.not_le.mpr small)).trans (if_pos beyond)))
    · exact onUnit_acts up.1.1 (decide_eq_true up.1.2.1) (if_neg (by simp [on, host, free, some_]))
    · exact onUnit_acts (e := s.dev) up.1.1 (decide_eq_true up.1.2.1) (if_pos other)
    · have sent : (((s.dev.modQp f q (fun x => { x with uncovered := 0 })).modFn f (fun y => { y with sent := Tab.add y.sent ((s.dev.fn f).qp q).vector 1 })).fn f) =
          { (s.dev.fn f).modQp q (fun x => { x with uncovered := 0 }) with sent := Tab.add (s.dev.fn f).sent ((s.dev.fn f).qp q).vector 1 } := by
        rw [fn_modFn, Dev.modQp, fn_modFn]
        rfl
      refine ⟨_, onUnit_acts up.1.1 (decide_eq_true up.1.2.1) (if_neg (by simp [asked, unmasked])), ?_, ?_⟩
      · exact (congrArg (fun y : Fn => (y.qp q).uncovered) sent).trans (congrArg Qp.uncovered (qp_modQp (s.dev.fn f) q (fun x => { x with uncovered := 0 })))
      · exact (congrArg (fun y : Fn => Tab.getD y.sent ((s.dev.fn f).qp q).vector 0) sent).trans (Tab.getD_put_self _ _ _ _)
    · exact onUnit_acts (e := s.dev) up.1.1 (decide_eq_true up.1.2.1) (if_pos other)

end Sys2Proof.Machine

namespace Sys2Proof.Machine

/-! ## What writes of device memory, counts and events leave as it was -/

/-- What is read of a device that depends on no partition and no function record. -/
structure Unnoted {κ : Type} (m : Dev → κ) : Prop where
  parts : ∀ d t, m { d with parts := t } = m d
  fns : ∀ d t, m { d with host := { d.host with fns := t } } = m d

/-- Nor on a stack, a link or a report. -/
structure Apart {κ : Type} (m : Dev → κ) : Prop extends Unnoted m where
  beryl : ∀ d t, m { d with beryl := t } = m d
  links : ∀ d t, m { d with links := t } = m d
  reports : ∀ d t, m { d with reports := t } = m d

section
variable {κ : Type} {m : Dev → κ} (unnoted : Unnoted m)
include unnoted

theorem Unnoted.count (d : Dev) (p i n : Nat) : m (d.count p i n) = m d := by
  unfold Dev.count
  split
  · rfl
  · exact unnoted.parts _ _

theorem Unnoted.partEvent (d : Dev) (p : Nat) (e : EventRec) : m (d.partEvent p e) = m d :=
  (unnoted.count _ _ _ _).trans (unnoted.parts _ _)

theorem Unnoted.queueEvent (d : Dev) (f code d0 d1 : Nat) : m (d.queueEvent f code d0 d1) = m d := by
  unfold Dev.queueEvent
  dsimp only
  split
  · exact unnoted.fns _ _
  · split
    · exact (unnoted.count _ _ _ _).trans (unnoted.fns _ _)
    · exact unnoted.fns _ _

theorem Unnoted.queueEvents (d : Dev) (p code d0 d1 : Nat) : m (d.queueEvents p code d0 d1) = m d :=
  foldl_keeps m _ (fun _ _ => unnoted.queueEvent _ _ _ _ _) _ d

end

section
variable {κ : Type} {m : Dev → κ} (apart : Apart m)
include apart

theorem Apart.endSvc (d : Dev) (s p : Nat) (v : Svc) : m (d.endSvc s p v) = m d := by
  unfold Dev.endSvc
  dsimp only
  refine (foldl_keeps m _ (fun d a => apart.partEvent _ _ _) _ _).trans ?_
  refine (foldl_keeps m _ (fun d a => (apart.queueEvents _ _ _ _ _).trans (apart.partEvent _ _ _)) _ _).trans ?_
  exact (apart.count _ _ _ _).trans ((apart.count _ _ _ _).trans ((apart.count _ _ _ _).trans ((apart.count _ _ _ _).trans
    ((apart.reports _ _).trans (apart.beryl _ _)))))

theorem Apart.spanRead (d : Dev) (p : Nat) (loc : Nat → Nat × Nat) (a n hint : Nat) : m (d.spanRead p loc a n hint).2 = m d :=
  foldl_keeps (fun x : PBytes × Dev => m x.2) _ (fun _ _ => apart.endSvc _ _ _ _) _ _

theorem Apart.spanWrite (d : Dev) (p : Nat) (loc : Nat → Nat × Nat) (a : Nat) (bs : PBytes) (hint : Nat) :
    m (d.spanWrite p loc a bs hint) = m d :=
  foldl_keeps m _ (fun _ _ => apart.endSvc _ _ _ _) _ d

theorem Apart.tagFrame (d : Dev) (p die f : Nat) : m (d.tagFrame p die f) = m d := by
  unfold Dev.tagFrame
  split
  · rfl
  · split
    · rfl
    · exact (apart.parts _ _).trans (foldl_keeps m _ (fun _ _ => apart.beryl _ _) _ _)

theorem Apart.frameWrite (d : Dev) (p die f off : Nat) (bs : PBytes) (hint : Nat) : m (d.frameWrite p die f off bs hint) = m d := by
  unfold Dev.frameWrite
  split
  · exact (apart.spanWrite _ _ _ _ _ _).trans (apart.tagFrame _ _ _ _)
  · rfl

theorem Apart.pageWrite (d : Dev) (p g off : Nat) (bs : PBytes) (hint : Nat) : m (d.pageWrite p g off bs hint) = m d := by
  unfold Dev.pageWrite
  dsimp only
  split
  · exact (apart.frameWrite _ _ _ _ _ _ _).trans (apart.parts _ _)
  · split
    · exact apart.parts _ _
    · rfl

theorem Apart.devWrite (d : Dev) (p a : Nat) (bs : PBytes) (hint : Nat) : m (d.devWrite p a bs hint) = m d := by
  unfold Dev.devWrite
  split
  · rfl
  · split
    · rfl
    · exact apart.spanWrite _ _ _ _ _ _
    · exact foldl_keeps m _ (fun _ _ => apart.pageWrite _ _ _ _ _ _) _ d

theorem Apart.ioCarried (d : Dev) (p a n : Nat) (toIo : Bool) : m (d.ioCarried p a n toIo) = m d := by
  refine foldl_keeps m _ (fun d e => ?_) _ d
  unfold Dev.carriedIo
  split
  · rfl
  · exact apart.links _ _

end

end Sys2Proof.Machine

namespace Sys2Proof.Machine

/-! ## COMMAND_FETCH and completion -/

theorem Tab.find_del_ne {α : Type} (t : Tab α) {k j : Nat} (h : j ≠ k) : Tab.find (Tab.del t k) j = Tab.find t j := by
  rw [Tab.find, Tab.find, Tab.del, List.find?_filter]
  refine congrArg (Option.map _) (congrArg (fun p => List.find? p t) (funext fun e => ?_))
  by_cases hit : e.1 = j
  · simp [hit, h]
  · simp [hit]

/-- The bytes of a completion entry with its phase bit. -/
def phased (x : Qp) (entry : Bytes) : Bytes := BitVec.ofNat 8 ((entry.headD 0).toNat + (if x.phase then 0x80 else 0)) :: entry.drop 1

/-- An entry for a completion ring in host memory. -/
theorem cqPut_host {d : Dev} {f q : Nat} {x : Qp} (hx : (d.fn f).qp q = x) (host : x.cqInDev = false) (entry : Bytes) (irq : Bool) :
    (d.cqPut f q entry irq) = (d.hostWrite f (x.cqBase + 32 * x.cqWrite) (phased x entry)).modQp f q (·.wrote irq) := by
  subst hx
  unfold Dev.cqPut Dev.writeOut
  dsimp only
  rw [if_neg (by rw [host]; decide)]
  rfl

theorem tookTurn_host (d : Dev) (own : Option Nat) : (d.tookTurn own).host = d.host := by
  unfold Dev.tookTurn
  split
  · split <;> rfl
  · rfl

/-- A turn taken, and the peak of live handles noted, change of every partition only what they are about. -/
theorem tookTurn_reads {κ : Type} {m : Part → κ} (keeps : ∀ x a b, m { x with fetchTurn := a, fetchLeft := b } = m x) (d : Dev) (own : Option Nat) (p : Nat) :
    m ((d.tookTurn own).part p) = m (d.part p) := by
  unfold Dev.tookTurn
  split
  · split
    · refine modPart_reads m (fun x => ?_) _ _ _
      exact keeps x _ _
    · rfl
  · rfl

theorem notePeak_reads {κ : Type} {m : Part → κ} (keeps : ∀ x c, m { x with counters := c } = m x) (d : Dev) (q p : Nat) :
    m ((d.notePeak q).part p) = m (d.part p) := by
  unfold Dev.notePeak
  dsimp only
  refine modPart_reads m (fun x => ?_) _ _ _
  split
  · exact keeps x _
  · rfl

/-- The command of a fetch. -/
def Dev.commandOf (d : Dev) (f q slot : Nat) (b : Bytes) : Cmd :=
  ⟨d.host.gen slot, (d.ownerOfFn f).getD 0, (d.ownerOfFn f).isSome, f, q, d.host.order, b, d.fnStamp f, (d.part ((d.ownerOfFn f).getD 0)).tick.index,
    d.now, (timeoutMs b).map (fun ms => d.now + ms * 1000000), none, .fetched, [], [], 0, false⟩

/-- The queue pair with its new head and two entries held for the command. -/
def Qp.took (x : Qp) (head : Nat) : Qp := { x with sqHead := head, held := x.held + 2 }
/-- The queue pair that holds one entry less. -/
def Qp.gaveBack (x : Qp) : Qp := { x with held := x.held - 1 }

/-- A fetch before its ACK is written. -/
def Dev.fetching (d : Dev) (f q slot : Nat) (b : Bytes) : Dev :=
  let e := (d.tookTurn (d.ownerOfFn f)).modQp f q (·.took ((((d.fn f).qp q).sqHead + 1) % ((d.fn f).qp q).sqSize))
  let e := { e with host := { e.host with live := Tab.put e.host.live slot (d.commandOf f q slot b), order := e.host.order + 1 } }
  let e := if (d.ownerOfFn f).isSome then e.notePeak ((d.ownerOfFn f).getD 0) else e
  e.modQp f q Qp.gaveBack

theorem fetching_reads {κ : Type} {m : Part → κ} (turn : ∀ x a b, m { x with fetchTurn := a, fetchLeft := b } = m x)
    (peak : ∀ x c, m { x with counters := c } = m x) (d : Dev) (f q slot : Nat) (b : Bytes) (p : Nat) :
    m ((d.fetching f q slot b).part p) = m (d.part p) := by
  unfold Dev.fetching
  dsimp only
  split
  · exact (notePeak_reads peak _ _ _).trans (tookTurn_reads turn d _ p)
  · exact tookTurn_reads turn d _ p

theorem fetching_host (d : Dev) (f q slot : Nat) (b : Bytes) :
    (d.fetching f q slot b).host.live = Tab.put d.host.live slot (d.commandOf f q slot b) ∧ (d.fetching f q slot b).host.order = d.host.order + 1 ∧
    (d.fetching f q slot b).host.mem = d.host.mem ∧ ((d.fetching f q slot b).fn f).qp q = (((d.fn f).qp q).took ((((d.fn f).qp q).sqHead + 1) % ((d.fn f).qp q).sqSize)).gaveBack := by
  have host := tookTurn_host d (d.ownerOfFn f)
  have live : (d.tookTurn (d.ownerOfFn f)).host.live = d.host.live := congrArg HostSide.live host
  have order : (d.tookTurn (d.ownerOfFn f)).host.order = d.host.order := congrArg HostSide.order host
  have mem : (d.tookTurn (d.ownerOfFn f)).host.mem = d.host.mem := congrArg HostSide.mem host
  have qp : ((d.tookTurn (d.ownerOfFn f)).fn f).qp q = (d.fn f).qp q := congrArg (fun h : HostSide => (Tab.getD h.fns f Fn.reset).qp q) host
  unfold Dev.fetching
  dsimp only
  split
  all_goals
    refine ⟨congrArg (fun t => Tab.put t slot (d.commandOf f q slot b)) live, congrArg (· + 1) order, mem, (fnQp_modQp _ f q Qp.gaveBack).trans (congrArg Qp.gaveBack
        ((fnQp_modQp (d.tookTurn (d.ownerOfFn f)) f q (·.took ((((d.fn f).qp q).sqHead + 1) % ((d.fn f).qp q).sqSize))).trans ?_))⟩
  all_goals exact congrArg (Qp.took · ((((d.fn f).qp q).sqHead + 1) % ((d.fn f).qp q).sqSize)) qp

/-- A fetch whose command passes the header checks. -/
theorem fetch_passes {d : Dev} {f q slot : Nat} {b : Bytes} (free : firstGap (Tab.keys d.host.live) 0 maxHandles = some slot)
    (host : ((d.fn f).qp q).cqInDev = false) (pass : headerFail (d.part ((d.ownerOfFn f).getD 0)) (d.ownerOfFn f) f b = none) :
    d.fetch f q b = ((d.fetching f q slot b).hostWrite f (((d.fn f).qp q).cqBase + 32 * ((d.fn f).qp q).cqWrite)
      (phased ((d.fn f).qp q) (ackEntry ((((d.fn f).qp q).sqHead + 1) % ((d.fn f).qp q).sqSize)
        (handleOf slot (d.host.gen slot) ((d.ownerOfFn f).getD 0)) (fieldOf b 8 8)))).modQp f q (·.wrote (!bitOf (fieldOf b 2 1) 3)) := by
  obtain ⟨-, -, -, qp⟩ := fetching_host d f q slot b
  have put := cqPut_host (d := d.fetching f q slot b) (f := f) (q := q) qp host (ackEntry ((((d.fn f).qp q).sqHead + 1) % ((d.fn f).qp q).sqSize)
    (handleOf slot (d.host.gen slot) ((d.ownerOfFn f).getD 0)) (fieldOf b 8 8)) (!bitOf (fieldOf b 2 1) 3)
  unfold Dev.fetch
  rw [free]
  dsimp only
  change (match headerFail (((d.fetching f q slot b).cqPut f q _ _).part _) _ f b with
    | some e => Dev.failAt ((d.fetching f q slot b).cqPut f q _ _) slot e.1 e.2
    | none => (d.fetching f q slot b).cqPut f q _ _) = _
  rw [put]
  have kept (e : Dev) (same : e.parts = (d.fetching f q slot b).parts) :
      headerFail (e.part ((d.ownerOfFn f).getD 0)) (d.ownerOfFn f) f b = none := by
    rw [Dev.part, same]
    exact (fetching_reads (m := fun x => headerFail x (d.ownerOfFn f) f b) (fun _ _ _ => rfl) (fun _ _ => rfl) d f q slot b _).trans pass
  rw [kept]
  · rfl
  · rfl

/-- The queue pair of a fetch whose ACK has been written. -/
theorem acked_qp (d : Dev) (f q slot a : Nat) (b bs : Bytes) (irq : Bool) :
    ((((d.fetching f q slot b).hostWrite f a bs).modQp f q (·.wrote irq)).fn f).qp q =
      (((d.fn f).qp q).took ((((d.fn f).qp q).sqHead + 1) % ((d.fn f).qp q).sqSize)).gaveBack.wrote irq :=
  (fnQp_modQp ((d.fetching f q slot b).hostWrite f a bs) f q (·.wrote irq)).trans
    (congrArg (Qp.wrote · irq) (fetching_host d f q slot b).2.2.2)

/-- The turn that a fetch takes. -/
theorem fetching_turn {d : Dev} {f q slot p : Nat} {b : Bytes} {e : Nat × Nat} (own : d.ownerOfFn f = some p) (next : d.nextFetch p = some e) :
    ((d.fetching f q slot b).part p).fetchTurn = e.1 ∧ ((d.fetching f q slot b).part p).fetchLeft = e.2 := by
  have took : ((d.tookTurn (some p)).part p).fetchTurn = e.1 ∧ ((d.tookTurn (some p)).part p).fetchLeft = e.2 := by
    unfold Dev.tookTurn
    dsimp only
    rw [next]
    dsimp only
    rw [part_modPart]
    exact ⟨rfl, rfl⟩
  unfold Dev.fetching
  simp only [own, Option.isSome_some, if_true, Option.getD_some]
  exact ⟨(notePeak_reads (m := Part.fetchTurn) (fun _ _ => rfl) _ p p).trans took.1,
    (notePeak_reads (m := Part.fetchLeft) (fun _ _ => rfl) _ p p).trans took.2⟩

/-- The end of a handle that no ABORT waits for. -/
theorem complete_alone {d : Dev} {h status r0 r1 : Nat} {c : Cmd} (live : d.cmd h = some c) (alone : d.aborters h c.gen = []) :
    d.complete h status r0 r1 = d.endHandle h c false status 0 0 r0 r1 := by
  unfold Dev.complete Dev.completeFuel
  simp only [live, alone, List.foldl_nil]

theorem cqPut_handles (d : Dev) (f q : Nat) (entry : Bytes) (irq : Bool) :
    (d.cqPut f q entry irq).host.live = d.host.live ∧ (d.cqPut f q entry irq).host.gens = d.host.gens := by
  have live : Apart (fun d : Dev => d.host.live) := ⟨⟨fun _ _ => rfl, fun _ _ => rfl⟩, fun _ _ => rfl, fun _ _ => rfl, fun _ _ => rfl⟩
  have gens : Apart (fun d : Dev => d.host.gens) := ⟨⟨fun _ _ => rfl, fun _ _ => rfl⟩, fun _ _ => rfl, fun _ _ => rfl, fun _ _ => rfl⟩
  unfold Dev.cqPut Dev.writeOut
  dsimp only
  split
  · exact ⟨(live.ioCarried _ _ _ _ _).trans (live.devWrite _ _ _ _ _), (gens.ioCarried _ _ _ _ _).trans (gens.devWrite _ _ _ _ _)⟩
  · exact ⟨rfl, rfl⟩

/-- The handle that ends leaves its slot, under the next generation. -/
theorem endHandle_handles (d : Dev) (h : Nat) (c : Cmd) (fault : Bool) (status word dbg r0 r1 : Nat) :
    (d.endHandle h c fault status word dbg r0 r1).host.live = Tab.del d.host.live h ∧
    (d.endHandle h c fault status word dbg r0 r1).host.gens = Tab.put d.host.gens h (nextGen c.gen) := by
  unfold Dev.endHandle
  dsimp only
  have held : (if c.lost then d else d.modQp c.fn c.q (fun x => { x with held := x.held - 1 })).host.live = d.host.live ∧
      (if c.lost then d else d.modQp c.fn c.q (fun x => { x with held := x.held - 1 })).host.gens = d.host.gens := by
    split <;> exact ⟨rfl, rfl⟩
  generalize (if c.lost then d else d.modQp c.fn c.q (fun x => { x with held := x.held - 1 })) = e at held ⊢
  split
  · exact ⟨congrArg (Tab.del · h) ((cqPut_handles e _ _ _ _).1.trans held.1),
      congrArg (fun t => Tab.put t h (nextGen c.gen)) ((cqPut_handles e _ _ _ _).2.trans held.2)⟩
  · exact ⟨congrArg (Tab.del · h) held.1, congrArg (fun t => Tab.put t h (nextGen c.gen)) held.2⟩

/-- The DONE of a handle whose queue is open, in host memory. -/
theorem endHandle_writes {d : Dev} {h : Nat} {c : Cmd} {fault : Bool} {status word dbg r0 r1 : Nat} (kept : c.lost = false)
    (open_ : ((d.fn c.fn).qp c.q).open_ = true) (host : ((d.fn c.fn).qp c.q).cqInDev = false) :
    d.endHandle h c fault status word dbg r0 r1 =
      let e := ((d.modQp c.fn c.q Qp.gaveBack).hostWrite c.fn (((d.fn c.fn).qp c.q).cqBase + 32 * ((d.fn c.fn).qp c.q).cqWrite)
        (phased ((d.fn c.fn).qp c.q) (doneEntry fault status word dbg (handleOf h c.gen c.part) r0 r1))).modQp c.fn c.q (·.wrote true)
      { e with host := { e.host with live := Tab.del e.host.live h, gens := Tab.put e.host.gens h (nextGen c.gen) } } := by
  have put := cqPut_host (d := d.modQp c.fn c.q Qp.gaveBack) (fnQp_modQp d c.fn c.q Qp.gaveBack) host
    (doneEntry fault status word dbg (handleOf h c.gen c.part) r0 r1) true
  unfold Dev.endHandle
  simp only [kept, open_, Bool.false_eq_true, if_false, Bool.not_false, Bool.and_self, if_true]
  exact congrArg (fun e : Dev => { e with host := { e.host with live := Tab.del e.host.live h, gens := Tab.put e.host.gens h (nextGen c.gen) } }) put

/-- A DONE that is dropped. -/
def Fn.withDrop (x : Fn) (handle : Nat) : Fn := { x with dropped := x.dropped + 1, lastHandle := handle }

/-- The DONE of a handle whose queue is gone or closed is dropped and counted. -/
theorem endHandle_drops {d : Dev} {h : Nat} {c : Cmd} {fault : Bool} {status word dbg r0 r1 : Nat}
    (gone : c.lost = true ∨ ((d.fn c.fn).qp c.q).open_ = false) :
    d.endHandle h c fault status word dbg r0 r1 =
      let e := (if c.lost then d else d.modQp c.fn c.q Qp.gaveBack).modFn c.fn (·.withDrop (handleOf h c.gen c.part))
      { e with host := { e.host with live := Tab.del e.host.live h, gens := Tab.put e.host.gens h (nextGen c.gen) } } := by
  have shut : ¬ ((((d.fn c.fn).qp c.q).open_ && !c.lost) = true) := by
    obtain lost | closed := gone
    · simp [lost]
    · simp [closed]
  unfold Dev.endHandle
  dsimp only
  rw [if_neg shut]
  rfl

/-- Settles O51. -/
theorem handlesLiveFromFetchToDone : Obligations.HandlesLiveFromFetchToDone := by
  refine ⟨?_, ?_⟩
  · rintro s f q slot cmd b x own up unit rfl rfl rfl
    refine ⟨fun attached may awake waits => ?_, fun attached may awake room turn host hostCq free pass => ?_,
      fun attached may awake room turn ring p a hp ha => ?_, fun idle => ?_⟩
    · exact onUnit_acts (e := s.dev) up (decide_eq_true unit) ((if_neg (by simp [attached, may, awake])).trans (if_pos (by simpa using waits)))
    · have eq := fetch_passes free hostCq pass
      have goes : exec (.commandFetch f q cmd) s = .next { s with dev := s.dev.fetch f q (cmd.take 64 ++ List.replicate (64 - cmd.length) 0) } :=
        onUnit_acts up (decide_eq_true unit) ((if_neg (by simp [attached, may, awake])).trans ((if_neg (by simp [room, turn])).trans
          (if_neg (by simp [host]))))
      obtain ⟨live, order, mem, -⟩ := fetching_host s.dev f q slot (cmd.take 64 ++ List.replicate (64 - cmd.length) 0)
      rw [eq] at goes
      refine ⟨_, s.dev.commandOf f q slot (cmd.take 64 ++ List.replicate (64 - cmd.length) 0), goes, ?_, rfl, rfl, rfl, rfl, rfl, rfl, rfl, rfl, order, ?_, ?_, ?_,
        fun p e owned next => ?_, fun h other => ?_⟩
      · exact (congrArg (fun t => Tab.find t slot) live).trans (Tab.find_put_self _ _ _)
      · exact congrArg Qp.sqHead (acked_qp s.dev f q slot _ _ _ _)
      · exact congrArg Qp.held (acked_qp s.dev f q slot _ _ _ _)
      · exact congrArg (fun m => Mem.write m _ _) mem
      · have turned := fetching_turn (q := q) (slot := slot) (b := cmd.take 64 ++ List.replicate (64 - cmd.length) 0) owned next
        refine ⟨turned.1.trans ?_, turned.2⟩
        simpa [Dev.fetchTurnOf, owned, next] using turn
      · exact (congrArg (fun t => Tab.find t h) live).trans (Tab.find_put_ne _ _ other)
    · replace hp : p = s.dev.fnPart f := hp
      subst hp ha
      have goes {e : Dev} (eq : s.dev.fetchRing f q ((s.dev.fn f).qp q) = e) : exec (.commandFetch f q cmd) s = .next { s with dev := e } :=
        onUnit_acts up (decide_eq_true unit) ((if_neg (by simp [attached, may, awake])).trans ((if_neg (by simp [room, turn])).trans
          ((if_pos ring).trans eq)))
      refine ⟨fun outside => goes (if_pos (bne_iff_ne.mpr outside)), fun inside => ⟨fun waits => goes (e := s.dev) ?_, fun down => goes ?_,
        fun way free r e hr he t ht => ?_⟩⟩
      · refine (if_neg (by rw [inside]; decide)).trans ?_
        obtain way | ⟨way, held⟩ := waits
        · simp only [way]
        · simp only [way]
          exact if_pos held
      · refine (if_neg (by rw [inside]; decide)).trans ?_
        split
        · next way => rw [way] at down; nomatch down
        · next way => rw [way] at down; exact absurd down (by decide)
        · rfl
      · have fetched : s.dev.fetchRing f q ((s.dev.fn f).qp q) = s.dev.ifAffords t := by
          refine (if_neg (by rw [inside]; decide)).trans ?_
          simp only [way]
          refine (if_neg (by rw [free]; decide)).trans (congrArg s.dev.ifAffords ?_)
          rw [ht, he, hr]
          unfold Dev.ringCommand
          by_cases bad : poisoned (s.dev.devRead (s.dev.fnPart f) (((s.dev.fn f).qp q).sqBase + 64 * ((s.dev.fn f).qp q).sqHead) 64 0).1 = true
          · simp only [if_pos bad]
          · simp only [if_neg bad]
        refine (goes fetched).trans ?_
        unfold Dev.ifAffords
        split <;> rfl
    · exact onUnit_acts (e := s.dev) up (decide_eq_true unit) (if_pos (by simpa [or_assoc] using idle))
  · rintro d e h status r0 r1 c x live alone rfl rfl
    rw [complete_alone live alone]
    obtain ⟨live, gens⟩ := endHandle_handles d h c false status 0 0 r0 r1
    refine ⟨⟨(congrArg (fun t => Tab.find t h) live).trans (find_del_self _ _),
      (congrArg (fun t => Tab.getD t h 1) gens).trans (Tab.getD_put_self _ _ _ _),
      fun j other => (congrArg (fun t => Tab.find t j) live).trans (Tab.find_del_ne _ other)⟩, fun kept open_ host => ?_, fun gone => ?_⟩
    · rw [endHandle_writes kept open_ host]
      have qp := fnQp_modQp ((d.modQp c.fn c.q Qp.gaveBack).hostWrite c.fn (((d.fn c.fn).qp c.q).cqBase + 32 * ((d.fn c.fn).qp c.q).cqWrite)
        (phased ((d.fn c.fn).qp c.q) (doneEntry false status 0 0 (handleOf h c.gen c.part) r0 r1))) c.fn c.q (·.wrote true)
      have before : (((d.modQp c.fn c.q Qp.gaveBack)).fn c.fn).qp c.q = ((d.fn c.fn).qp c.q).gaveBack := fnQp_modQp d c.fn c.q Qp.gaveBack
      have after := qp.trans (congrArg (Qp.wrote · true) before)
      exact ⟨rfl, congrArg Qp.cqWrite after, congrArg Qp.phase after⟩
    · rw [endHandle_drops gone]
      have dropped := fn_modFn (if c.lost then d else d.modQp c.fn c.q Qp.gaveBack) c.fn (·.withDrop (handleOf h c.gen c.part))
      refine ⟨by split <;> rfl, ?_, ?_⟩
      · refine (congrArg Fn.dropped dropped).trans ?_
        split
        · rfl
        · rw [Dev.modQp, fn_modFn]
          rfl
      · exact congrArg Fn.lastHandle dropped

end Sys2Proof.Machine

namespace Sys2Proof.Machine

/-! ## What counts, events and ledger records leave of a partition -/

/-- What is read of a partition that depends on none of its counters, its event ring and its ledger. -/
structure Unlogged {κ : Type} (m : Part → κ) : Prop where
  counters : ∀ x t, m { x with counters := t } = m x
  events : ∀ x t, m { x with events := t } = m x
  ledger : ∀ x t, m { x with ledger := t } = m x

section
variable {κ : Type} {m : Part → κ} (unlogged : Unlogged m)
include unlogged

theorem Unlogged.count (d : Dev) (p i n q : Nat) : m ((d.count p i n).part q) = m (d.part q) := by
  unfold Dev.count
  split
  · rfl
  · exact modPart_reads m (fun x => unlogged.counters x _) _ _ _

theorem Unlogged.partEvent (d : Dev) (p : Nat) (e : EventRec) (q : Nat) : m ((d.partEvent p e).part q) = m (d.part q) :=
  (unlogged.count _ _ _ _ _).trans (modPart_reads m (fun x => unlogged.events x _) _ _ _)

theorem Unlogged.queueEvent (d : Dev) (f code d0 d1 q : Nat) : m ((d.queueEvent f code d0 d1).part q) = m (d.part q) := by
  obtain ⟨counters, eq⟩ := (queueEvent_frame d f code d0 d1).1 q
  rw [eq, unlogged.counters]

theorem Unlogged.queueEvents (d : Dev) (p code d0 d1 q : Nat) : m ((d.queueEvents p code d0 d1).part q) = m (d.part q) :=
  foldl_keeps (fun d : Dev => m (d.part q)) _ (fun _ _ => unlogged.queueEvent _ _ _ _ _ _) _ d

theorem Unlogged.ledgerCount (d : Dev) (p i n q : Nat) : m ((d.ledgerCount p i n).part q) = m (d.part q) :=
  modPart_reads m (fun x => unlogged.ledger x _) _ _ _

theorem Unlogged.ledgerLevels (d : Dev) (p q : Nat) : m ((d.ledgerLevels p).part q) = m (d.part q) := by
  have event (d : Dev) (e : EventRec) (code d0 d1 : Nat) (f : Part → Part) (hf : ∀ x, m (f x) = m x) :
      m ((((d.modPart p f).partEvent p e).queueEvents p code d0 d1).part q) = m (d.part q) :=
    (unlogged.queueEvents _ _ _ _ _ _).trans ((unlogged.partEvent _ _ _ _).trans (modPart_reads m hf _ _ _))
  unfold Dev.ledgerLevels
  dsimp only
  split <;> split
  · exact (event _ _ _ _ _ _ (fun x => unlogged.ledger x _)).trans (event _ _ _ _ _ _ (fun x => unlogged.ledger x _))
  · exact event _ _ _ _ _ _ (fun x => unlogged.ledger x _)
  · exact event _ _ _ _ _ _ (fun x => unlogged.ledger x _)
  · rfl

theorem Unlogged.ledgerPut (d : Dev) (p : Nat) (r : LedgerRec) (q : Nat) : m ((d.ledgerPut p r).part q) = m (d.part q) :=
  (unlogged.ledgerLevels _ _ _).trans (modPart_reads m (fun x => unlogged.ledger x _) _ _ _)

theorem Unlogged.ledgerAdd (d : Dev) (p : Nat) (r : LedgerRec) (q : Nat) : m ((d.ledgerAdd p r).2.part q) = m (d.part q) := by
  have counted (d : Dev) : m ((if r.kind = 2 ∧ bitOf (fieldOf r.detail 1 1) 0 then d.ledgerCount p 3 1 else d).part q) = m (d.part q) := by
    split
    · exact unlogged.ledgerCount _ _ _ _ _
    · rfl
  unfold Dev.ledgerAdd
  dsimp only
  generalize hd : (if r.kind = 2 ∧ bitOf (fieldOf r.detail 1 1) 0 then (d.ledgerCount p (kindCounter r.kind) 1).ledgerCount p 3 1
    else d.ledgerCount p (kindCounter r.kind) 1) = e
  have same : m (e.part q) = m (d.part q) := by
    rw [← hd]
    exact (counted _).trans (unlogged.ledgerCount _ _ _ _ _)
  split
  · exact (unlogged.ledgerPut _ _ _ _).trans same
  · exact (unlogged.ledgerCount _ _ _ _ _).trans ((modPart_reads m (fun x => unlogged.ledger x _) _ _ _).trans same)

end

end Sys2Proof.Machine

namespace Sys2Proof.Machine

/-! ## Holds -/

theorem seq_setSeq (x : Part) (s : Nat) (q : Seq) : (x.setSeq s q).seq s = some q := Tab.find_put_self _ _ _

theorem seq_modSeq {x : Part} {s : Nat} {q : Seq} (h : x.seq s = some q) (f : Seq → Seq) : (x.modSeq s f).seq s = some (f q) := by
  unfold Part.modSeq
  rw [h]
  exact seq_setSeq _ _ _

theorem seq_dropFrame (x : Part) (die f w s : Nat) : (x.dropFrame die f w).seq s = x.seq s := by
  unfold Part.dropFrame
  dsimp only
  split <;> rfl

/-- A hold that ends. -/
theorem seq_endHold {x : Part} {slot : Nat} {q : Seq} {h : Hold} (there : x.seq slot = some q) (held : q.hold = some h) :
    (x.endHold slot).seq slot = some { q with hold := none } := by
  unfold Part.endHold
  simp only [there, held]
  split
  · exact (seq_dropFrame _ _ _ _ _).trans (seq_setSeq _ _ _)
  · exact seq_setSeq _ _ _

theorem seq_unlogged (slot : Nat) : Unlogged (·.seq slot) := ⟨fun _ _ => rfl, fun _ _ => rfl, fun _ _ => rfl⟩

theorem expireHold_stays {d : Dev} {p slot : Nat} {q : Seq} (there : (d.part p).seq slot = some q)
    (stays : ∀ h, q.hold = some h → (d.part p).holdDue h = false) : d.expireHold p slot = d := by
  unfold Dev.expireHold
  simp only [there]
  split
  · rfl
  · next h held => rw [stays h held]; rfl

theorem expireHold_seq {d : Dev} {p slot : Nat} {q : Seq} {h : Hold} (there : (d.part p).seq slot = some q) (held : q.hold = some h)
    (due : (d.part p).holdDue h = true) (none_ : d.heldAppends p (q.ident slot) = []) :
    ((d.expireHold p slot).part p).seq slot = some { q with hold := none, state := .suspended, noSpaceOnce := true } := by
  have unlogged := seq_unlogged slot
  unfold Dev.expireHold
  simp only [there, held, due, none_, Bool.not_true, Bool.false_eq_true, if_false, List.foldl_nil, Dev.pageRecord]
  refine (unlogged.queueEvents _ _ _ _ _ _).trans ((unlogged.partEvent _ _ _ _).trans ((unlogged.ledgerAdd _ _ _ _).trans ?_))
  rw [part_modPart]
  exact seq_modSeq (seq_endHold there held) _

/-! ## Edit batches -/

/-- The staged batches of a partition that their waiting time ends. -/
def Part.lateBatches (x : Part) : List Staged :=
  x.staged.filter (fun i => match i with
    | .edits _ id recs w => decide (w + x.holdLimit ≤ x.tick.index) && (match x.seqOf id with
        | some (slot, _) => x.batchLacks slot recs
        | none => false)
    | _ => false)

/-- What is read of a partition that depends on no frame, on nothing released and on no page migrated for a batch. -/
structure Unpooled {κ : Type} (m : Part → κ) : Prop where
  promoted : ∀ x t, m { x with promoted := t } = m x
  frames : ∀ x t, m { x with frames := t } = m x
  released : ∀ x t, m { x with released := t } = m x

section
variable {κ : Type} {m : Part → κ} (unpooled : Unpooled m)
include unpooled

theorem Unpooled.dropFrame (x : Part) (die f w : Nat) : m (x.dropFrame die f w) = m x := by
  have dropped := unpooled.frames x (Tab.put x.frames (frameKey die f) (x.frameRefs die f - 1))
  unfold Part.dropFrame
  dsimp only
  split
  · exact (unpooled.released { x with frames := Tab.put x.frames (frameKey die f) (x.frameRefs die f - 1) } _).trans dropped
  · exact dropped

theorem Unpooled.dropBlock (x : Part) (b w : Nat) : m (x.dropBlock b w) = m x := unpooled.released x _

theorem Unpooled.dropPromoted (x : Part) (slot : Nat) (recs : List Bytes) : m (x.dropPromoted slot recs) = m x := by
  refine foldl_keeps m _ (fun x b => ?_) _ x
  dsimp only
  split
  · exact (unpooled.dropFrame _ _ _ _).trans (unpooled.promoted x _)
  · rfl

end

/-- A partition without the late batches it had staged. -/
def Part.withoutLate (x : Part) : Part := { x with staged := x.staged.filter (fun i => !x.lateBatches.contains i) }

/-- What EDIT_BATCH_EXPIRY does for one late batch. -/
def Dev.dropLate (d : Dev) (p : Nat) (i : Staged) : Dev :=
  match i with
  | .edits h id recs _ => d.dropBatch p id h recs stNoSpace
  | _ => d

theorem expireBatches_eq (d : Dev) (p : Nat) :
    d.expireBatches p = (d.part p).lateBatches.foldl (·.dropLate p ·) (d.setPart p (d.part p).withoutLate) := rfl

/-- EDIT_BATCH_EXPIRY where no batch is late. -/
theorem expireBatches_idle {d : Dev} {p : Nat} (none_ : (d.part p).lateBatches = []) : (d.expireBatches p).part p = d.part p := by
  rw [expireBatches_eq, none_, List.foldl_nil, part_setPart, Part.withoutLate, none_]
  simp only [List.contains_nil, Bool.not_false, List.filter_true]

theorem dropLate_reads {κ : Type} {m : Part → κ} (unpooled : Unpooled m) (counts : ∀ x t, m { x with counters := t } = m x)
    (d : Dev) (p id w : Nat) (recs : List Bytes) : m ((d.dropLate p (.edits none id recs w)).part p) = m (d.part p) :=
  (modPart_reads m (fun x => counts x _) _ _ _).trans (modPart_reads m (fun x => unpooled.dropPromoted x _ _) _ _ _)

theorem dropLate_counts (d : Dev) (p id w : Nat) (recs : List Bytes) :
    Tab.getD ((d.dropLate p (.edits none id recs w)).part p).counters 14 0 = satAdd (Tab.getD (d.part p).counters 14 0) 1 := by
  have counters : Unpooled Part.counters := ⟨fun _ _ => rfl, fun _ _ => rfl, fun _ _ => rfl⟩
  simp only [Dev.dropLate, Dev.dropBatch, Dev.count, Nat.one_ne_zero, if_false, part_modPart, Tab.bump, Tab.getD_put_self,
    counters.dropPromoted]

/-- EDIT_BATCH_EXPIRY of one late batch of pg.publish. -/
theorem expireBatches_drops {d : Dev} {p id w slot : Nat} {q : Seq} {recs : List Bytes} (one : (d.part p).staged = [.edits none id recs w])
    (old : w + (d.part p).holdLimit ≤ (d.part p).tick.index) (there : (d.part p).seqOf id = some (slot, q))
    (lacks : (d.part p).batchLacks slot recs = true) : ((d.expireBatches p).part p).staged = [] ∧
    Tab.getD ((d.expireBatches p).part p).counters 14 0 = satAdd (Tab.getD (d.part p).counters 14 0) 1 := by
  have late : (d.part p).lateBatches = [.edits none id recs w] := by
    simp only [Part.lateBatches, one, List.filter_cons, old, there, lacks, decide_true, Bool.and_self, if_true, List.filter_nil]
  have none_ : (d.part p).withoutLate.staged = [] := by simp [Part.withoutLate, one, late]
  rw [expireBatches_eq, late, List.foldl_cons, List.foldl_nil]
  refine ⟨(dropLate_reads ⟨fun _ _ => rfl, fun _ _ => rfl, fun _ _ => rfl⟩ (fun _ _ => rfl) _ _ _ _ _).trans ?_,
    (dropLate_counts _ _ _ _ _).trans ?_⟩
  · rw [part_setPart, none_]
  · rw [part_setPart]; rfl

/-! ## Parks and resumes -/

/-- The state of the sequence at a slot, where one is. -/
def Part.seqState (x : Part) (slot : Nat) : Option SeqState := (x.seq slot).map (·.state)

theorem seqState_dropFrame (x : Part) (die f w slot : Nat) : (x.dropFrame die f w).seqState slot = x.seqState slot := by
  rw [Part.seqState, seq_dropFrame, Part.seqState]

theorem seqState_toStore (x : Part) (slot g w : Nat) : (x.toStore slot g w).seqState slot = x.seqState slot := by
  unfold Part.toStore
  split
  · rfl
  · next q there =>
    split
    · rfl
    · dsimp only
      split
      · rw [seqState_dropFrame]
        simp only [Part.seqState, seq_setSeq, there, Option.map_some]
      · rfl

theorem seqState_toStores (slot w : Nat) (pages : List Nat) (x : Part) :
    (pages.foldl (fun x g => x.toStore slot g w) x).seqState slot = x.seqState slot :=
  foldl_keeps (·.seqState slot) _ (fun x g => seqState_toStore x slot g w) pages x

theorem seqState_dropBlocks (slot w : Nat) (leaves : List (Nat × Nat)) (x : Part) :
    (leaves.foldl (fun (x : Part) e => x.dropBlock e.2 w) x).seqState slot = x.seqState slot :=
  foldl_keeps (·.seqState slot) (fun (x : Part) (e : Nat × Nat) => x.dropBlock e.2 w) (fun _ _ => rfl) leaves x

/-- What is read of a sequence of one state after a change. -/
theorem map_modSeq {κ : Type} {x : Part} {slot : Nat} {st : SeqState} {f : Seq → Seq} {k : Seq → κ} {v : κ}
    (state : x.seqState slot = some st) (reads : ∀ q, q.state = st → k (f q) = v) : ((x.modSeq slot f).seq slot).map k = some v := by
  obtain ⟨q, there, is⟩ := Option.map_eq_some_iff.mp state
  rw [seq_modSeq there, Option.map_some, reads q is]

theorem expireResume_parks {d : Dev} {p slot : Nat} {q : Seq} (there : (d.part p).seq slot = some q) (resumes : q.state = .resuming)
    (due : q.resumeBy ≤ (d.part p).tick.index) (none_ : q.parkHandle = none)
    (lacks : ∃ e ∈ q.entries, e.2.tier = 1 ∧ Tab.has (d.part p).storeMigr (pageKey slot e.1) = false) :
    (((d.expireResume p slot).part p).seq slot).map (fun q => (q.state, q.pending, q.leaves)) = some (.parked, [], []) := by
  obtain ⟨e, mem, cold, missing⟩ := lacks
  have lacking : (((q.entries.filter (fun e => e.2.tier == 1)).map (·.1)).any
      (fun g => !Tab.has (d.part p).storeMigr (pageKey slot g))) = true := by
    simp only [List.any_eq_true, List.mem_map, List.mem_filter]
    exact ⟨e.1, ⟨e, ⟨mem, by simp [cold]⟩, rfl⟩, by simp [missing]⟩
  unfold Dev.expireResume
  simp only [there, none_, lacking]
  rw [if_neg (by simp [resumes, due]), part_setPart]
  refine map_modSeq (st := .resuming) ?_ (fun _ _ => rfl)
  rw [seqState_dropBlocks, seqState_toStores]
  refine (foldl_keeps (fun x : Part => x.seqState slot) _ (fun x g => ?_) _ _).trans ?_
  · split
    · split
      · exact seqState_dropFrame _ _ _ _ _
      · rfl
    · rfl
  · simp only [Part.seqState, there, Option.map_some, resumes]

theorem parkWritten_parks {d : Dev} {p slot : Nat} {q : Seq} (there : (d.part p).seq slot = some q) (parks : q.state = .parking)
    (some_ : q.pending ≠ []) (plain : q.durable = false) :
    (((d.parkWritten p slot).part p).seq slot).map (fun q => (q.state, q.pending, q.leaves)) = some (.parking, [], []) := by
  unfold Dev.parkWritten
  simp only [there, plain, Bool.false_and, Bool.false_eq_true, if_false]
  rw [if_neg (by simp [parks, some_])]
  simp only [part_modPart]
  refine map_modSeq (st := .parking) ?_ (fun _ is => Prod.ext is rfl)
  rw [seqState_dropBlocks]
  refine (foldl_keeps (fun d => (Dev.part d p).seqState slot) _
    (fun d g => modPart_reads (·.seqState slot) (fun x => seqState_toStore x slot g _) d p p) _ _).trans ?_
  simp only [Part.seqState, there, Option.map_some, parks]

theorem resumeLanded_warm {d : Dev} {p slot : Nat} {q : Seq} (there : (d.part p).seq slot = some q) (resumes : q.state = .resuming)
    (warm : ∀ e ∈ q.entries, e.2.tier ≠ 1) :
    d.resumeLanded p slot = d.modPart p (fun x => x.setSeq slot { q with pending := [] }) := by
  have cold : q.entries.filter (fun e => e.2.tier == 1) = [] := List.filter_eq_nil_iff.mpr fun e mem => by simpa using warm e mem
  unfold Dev.resumeLanded
  simp only [there, cold, List.map_nil, List.any_nil, List.foldl_nil]
  rw [if_neg (by simp [resumes])]
  simp only [Dev.modPart, Part.modSeq, there]

/-- Settles O36. -/
theorem sequencesMoveAndExpire : Obligations.SequencesMoveAndExpire := by
  refine ⟨fun s p slot q h ⟨up, unit⟩ there => ⟨fun none_ => ?_, fun held early => ?_, fun held due none_ => ?_⟩,
    fun s p id w slot recs q ⟨up, unit⟩ => ⟨fun none_ => ?_, fun one old there lacks => ?_⟩,
    fun s p slot q ⟨up, unit⟩ there => ⟨fun early => ?_, fun other => ?_, fun resumes due none_ lacks => ?_⟩,
    fun s p slot q ⟨up, unit⟩ there => ⟨fun other => ?_, fun other => ?_, fun parks some_ plain => ?_, fun resumes warm => ?_⟩,
    fun s p slot page ⟨up, unit⟩ => ⟨fun none_ => ?_, fun some_ gone => ?_⟩⟩
  · exact onUnit_acts (e := s.dev) up (decide_eq_true unit) (expireHold_stays there (fun h e => by rw [none_] at e; nomatch e))
  · exact onUnit_acts (e := s.dev) up (decide_eq_true unit) (expireHold_stays there (fun g e => by rw [held] at e; cases e; exact early))
  · exact ⟨_, onUnit_acts up (decide_eq_true unit) rfl, expireHold_seq there held due none_⟩
  · refine ⟨_, onUnit_acts up (decide_eq_true unit) rfl, expireBatches_idle (List.filter_eq_nil_iff.mpr fun i mem late => ?_)⟩
    cases i
    case edits h id recs w => exact none_ _ mem h id recs w rfl
    all_goals exact Bool.false_ne_true late
  · exact ⟨_, onUnit_acts up (decide_eq_true unit) rfl, expireBatches_drops one old there lacks⟩
  · refine onUnit_acts (e := s.dev) up (decide_eq_true unit) ?_
    simp only [Dev.expireResume, there]
    exact if_pos (.inr (.inl early))
  · refine onUnit_acts (e := s.dev) up (decide_eq_true unit) ?_
    simp only [Dev.expireResume, there]
    exact if_pos (.inl other)
  · exact ⟨_, onUnit_acts up (decide_eq_true unit) rfl, expireResume_parks there resumes due none_ lacks⟩
  · refine onUnit_acts (e := s.dev) up (decide_eq_true unit) ?_
    simp only [Dev.parkWritten, there]
    exact if_pos (.inl other)
  · refine onUnit_acts (e := s.dev) up (decide_eq_true unit) ?_
    simp only [Dev.resumeLanded, there]
    exact if_pos (.inl other)
  · exact ⟨_, onUnit_acts up (decide_eq_true unit) rfl, parkWritten_parks there parks some_ plain⟩
  · exact onUnit_acts up (decide_eq_true unit) (resumeLanded_warm there resumes warm)
  · refine onUnit_acts (e := s.dev) up (decide_eq_true unit) ?_
    simp only [none_]
  · obtain ⟨y, hy⟩ := Option.ne_none_iff_exists'.mp some_
    refine ⟨_, onUnit_acts (e := s.dev.modPart p (fun x => { x with demoting := x.demoting.filter (fun z => !(z.1 == slot && z.2.1 == page)) })) up
      (decide_eq_true unit) ?_, ?_⟩
    · simp only [hy, gone, Option.elim_none, Bool.false_eq_true, if_false]
      have same : ((s.dev.modPart p (fun x => { x with demoting := x.demoting.filter (fun z => !(z.1 == slot && z.2.1 == page)) })).part p).entryOf
        slot page = none := by rw [part_modPart]; exact gone
      simp only [same]
    · dsimp only
      rw [part_modPart]

end Sys2Proof.Machine

namespace Sys2Proof.Machine

/-! ## BAR0 -/

/-- A row of a function of a module that runs, by the state it makes. -/
theorem onFn_acts {s t : State} {f : Nat} {act : State → State} (h : FnUp s f) (eq : act s = t) : onFn f s act = .next t :=
  (onFn_up h).trans (congrArg Host.Outcome.next eq)

theorem serves_of_up {x : Plat} (up : x.up = true) : x.serves = true := by
  have powered := powered_of_up up
  simp_all [Plat.up, Plat.serves]

/-- A dword at a byte offset of a memory holds what was last put there. -/
theorem nat_putNat (m : Mem) (a n v : Nat) : Mem.nat (Mem.putNat m a n v) a n = v % 256 ^ n := by
  have read := read_write_self m a (natLE n v)
  rw [length_natLE] at read
  rw [Mem.nat, Mem.putNat, read, leNat_natLE]

theorem setTherm_legal {x : Plat} {v : Nat}
    (legal : 85 ≤ bitsOf v 15 8 ∧ bitsOf v 15 8 ≤ 100 ∧ 2 ≤ bitsOf v 23 16 ∧ bitsOf v 23 16 ≤ 10) :
    x.setTherm v = { x with throttleC := bitsOf v 15 8, hysteresisC := bitsOf v 23 16 } := if_pos legal

theorem setTherm_illegal {x : Plat} {v : Nat}
    (illegal : bitsOf v 15 8 < 85 ∨ 100 < bitsOf v 15 8 ∨ bitsOf v 23 16 < 2 ∨ 10 < bitsOf v 23 16) : x.setTherm v = x :=
  if_neg (by omega)

/-- A management write of BERYL_THERM_CFG on a module that runs. -/
theorem pldmThermCfgWrite_up {s : State} (up : s.plat.up = true) (v : Nat) :
    exec (.pldmThermCfgWrite v) s = .next { s with plat := s.plat.setTherm v } :=
  congrArg Host.Outcome.next (if_pos (powered_of_up up))

/-- HOST_PORT_CFG of the admin function with bit 8 clear. -/
def State.portCfgWrite (s : State) (f v : Nat) : State :=
  if v % 4 = s.plat.portNext then s
  else if s.plat.committing.isSome then s.onDev (fun d => d.modFn f (fun x => { x with writeRefused := true }))
  else { s with plat := { s.plat with portNext := v % 4 } }

theorem hostPortCfgWrite_keeps {s : State} {f v : Nat} (up : FnUp s f) (admin : f = adminFn) (keep : bitOf v 8 = false) :
    exec (.hostPortCfgWrite f v) s = .next (s.portCfgWrite f v) := by
  refine (onFn_acts up ?_ : execHostPortCfgWrite f v s = _)
  rw [if_neg (not_not.mpr admin)]
  simp only [keep, Bool.false_eq_true, if_false]
  rfl

theorem hostPortCfgWrite_foreign {s : State} {f v : Nat} (up : FnUp s f) (foreign : f ≠ adminFn) :
    exec (.hostPortCfgWrite f v) s = .next s :=
  (onFn_acts up (if_pos foreign) : execHostPortCfgWrite f v s = _)

theorem reg32_unserved {s : State} {f off : Nat} (starts : s.plat.boot = .stage 3) (other : off ≠ 0) : s.reg32 f off = 0 := by
  have serves : s.plat.serves = false := by simp [Plat.serves, starts]
  unfold State.reg32
  simp [other, starts, serves]

theorem barRead_unserved {s : State} {f off : Nat} (starts : s.plat.boot = .stage 3) (other : off ≠ 0) : s.barRead f off = 0 := by
  have serves : s.plat.serves = false := by simp [Plat.serves, starts]
  unfold State.barRead
  split
  · rw [serves]; rfl
  · split
    · rw [serves]; rfl
    · exact reg32_unserved starts other

theorem reg64_none {d : Dev} {f off : Nat} (low : off < 0x100000) (a : off ≠ 0x10) (b : off ≠ 0x100) (c : off ≠ 0x108) (e : off ≠ 0x110) :
    d.reg64 f off = none := by
  unfold Dev.reg64
  rw [if_neg a, if_neg b, if_neg c, if_neg e, if_neg (by omega)]

theorem reg64_beyond {d : Dev} {f off : Nat} (high : 0x100000 + 32 * d.qpCount f ≤ off) (a : 0x110 < off) : d.reg64 f off = none := by
  unfold Dev.reg64
  rw [if_neg (by omega), if_neg (by omega), if_neg (by omega), if_neg (by omega), if_neg (by omega)]

/-- A dword that no 64-bit register covers. -/
theorem barRead_single {s : State} {f off : Nat} (low : s.dev.reg64 f off = none) (high : s.dev.reg64 f (off - 4) = none) :
    s.barRead f off = s.reg32 f off := by
  unfold State.barRead
  rw [low, high]

theorem writeBase_disabled {x : Qp} {v : Nat} (disabled : x.state = 0) :
    (x.writeBase 0 v).sqBase % 2 ^ 32 = v / 4096 * 4096 % 2 ^ 32 ∧ (x.writeBase 0 v).sqInDev = bitOf v 0 := by
  unfold Qp.writeBase
  rw [if_neg (by omega)]
  exact ⟨Nat.mul_add_mod_self_right _ _ _, rfl⟩

/-- A dword of the pending-bit array: no register below 0x400000 stands there. -/
theorem reg32_pending {s : State} {f off : Nat} (serves : s.plat.serves = true) (count : s.dev.qpCount f ≤ 65536) (first : 0x408000 ≤ off)
    (last : off < 0x408100) : s.reg32 f off = (s.dev.fn f).pendingDword ((off - 0x408000) / 4) := by
  have other (n : Nat) (low : n < 0x408000) : ¬ off = n := by omega
  have below (m n : Nat) (low : n < 0x408000) : ¬ (m ≤ off ∧ off < n) := by omega
  unfold State.reg32
  dsimp only
  rw [if_neg (other _ (by omega)), if_neg (by omega), if_neg (by omega), if_neg (by simp [serves]), if_neg (other _ (by omega)),
    if_neg (other _ (by omega)), if_neg (other _ (by omega)), if_neg (other _ (by omega)), if_neg (other _ (by omega)),
    if_neg (other _ (by omega)), if_neg (other _ (by omega)), if_neg (other _ (by omega)), if_neg (other _ (by omega)),
    if_neg (below _ _ (by omega)), if_neg (below _ _ (by omega)), if_neg (below _ _ (by omega)), if_neg (below _ _ (by omega)),
    if_neg (by omega), if_pos ⟨first, last⟩]

/-- What the registers read while BAR0 is served whole. -/
theorem barRead_serves {s : State} {f off : Nat} (serves : s.plat.serves = true) :
    s.barRead f 0x100 = (((s.dev.ownerOfFn f).map s.dev.tc).getD 0) % 2 ^ 32 ∧
    s.barRead f 0x104 = Tab.getD (s.dev.fn f).latches 0x100 0 ∧ s.barRead f 0x18 = s.dev.portStatus f ∧
    s.barRead f 0x20 = s.dev.tier.status ∧ (s.dev.qpCount f ≤ 65536 → 0x408000 ≤ off → off < 0x408100 →
      s.barRead f off = (s.dev.fn f).pendingDword ((off - 0x408000) / 4)) := by
  have stamp : s.dev.reg64 f 0x100 = some (((s.dev.ownerOfFn f).map s.dev.tc).getD 0) := by simp [Dev.reg64]
  have one (o : Nat) (low : o < 0x10) : s.dev.reg64 f (o + 0x14) = none :=
    reg64_none (by omega) (by omega) (by omega) (by omega) (by omega)
  refine ⟨?_, ?_, ?_, ?_, fun count from_ to_ => ?_⟩
  · unfold State.barRead
    rw [stamp]
    exact if_pos serves
  · unfold State.barRead
    rw [reg64_none (by omega) (by omega) (by omega) (by omega) (by omega), show 0x104 - 4 = 0x100 from rfl, stamp]
    exact if_pos (by rw [serves]; rfl)
  · rw [barRead_single (one 4 (by omega)) (one 0 (by omega))]
    simp [State.reg32, serves]
  · rw [barRead_single (one 12 (by omega)) (one 8 (by omega))]
    simp [State.reg32, serves]
  · rw [barRead_single (reg64_beyond (by omega) (by omega)) (reg64_beyond (by omega) (by omega))]
    exact reg32_pending serves count from_ to_

/-! ## REGISTER_WRITE -/

theorem not_recovery_of_up {x : Plat} (up : x.up = true) : x.boot ≠ .recovery := by
  intro recovery
  simp [Plat.up, recovery] at up

theorem registerWrite_up {s : State} {f off v : Nat} (up : FnUp s f) (dword : off % 4 = 0) :
    exec (.registerWrite f off v) s = .next (s.onDev (fun d => d.writeReg f off (v % 2 ^ 32))) := by
  show execRegisterWrite f off v s = _
  unfold execRegisterWrite
  rw [decide_eq_true up.2.1, onUnit_true, if_neg (fun h => not_recovery_of_up up.1 h.1), if_pos (by simp [up.1, up.2.2, dword])]

theorem registerWrite_odd {s : State} {f off v : Nat} (up : FnUp s f) (odd : off % 4 ≠ 0) : exec (.registerWrite f off v) s = .next s := by
  show execRegisterWrite f off v s = _
  unfold execRegisterWrite
  rw [decide_eq_true up.2.1, onUnit_true, if_neg (fun h => not_recovery_of_up up.1 h.1), if_neg (by simp [odd])]

/-- A dword of the image buffer, with which the admin function fills it in ROM recovery. -/
theorem registerWrite_recovery {s : State} {f off v : Nat} (recovery : s.plat.boot = .recovery) (powered : s.plat.powered = true)
    (admin : f = adminFn) (first : 0x810000 ≤ off) (last : off < 0x820000) : exec (.registerWrite f off v) s =
    .next { s with plat := { s.plat with rom := { s.plat.rom with
      buffer := Mem.putNat s.plat.rom.buffer ((off - 0x810000) / 4 * 4) 4 (v % 2 ^ 32) } } } := by
  show execRegisterWrite f off v s = _
  unfold execRegisterWrite
  rw [admin, show decide (adminFn < fnCount) = true from rfl, onUnit_true, if_pos ⟨recovery, powered⟩, if_pos ⟨rfl, first, last⟩]

/-! ## BAR2 -/

/-- A function that notes one more rejected BAR2 request. -/
def Fn.aborted (x : Fn) : Fn := { x with bar2Abort := x.bar2Abort + 1 }

theorem bar2Reject_counts (d : Dev) (f p : Nat) (req : Bar2Req) : ((d.bar2Reject f p req).fn f).bar2Abort = (d.fn f).bar2Abort + 1 ∧
    (req.write = none → ((d.bar2Reject f p req).fn f).reply = some .completerAbort) := by
  have counted : ((d.modFn f Fn.aborted).count p 3 1).fn f = (d.fn f).aborted := fn_modFn d f Fn.aborted
  cases write : req.write with
  | none =>
    have is : d.bar2Reject f p req = ((d.modFn f Fn.aborted).count p 3 1).modFn f (fun x =>
      { x with reply := some .completerAbort, rejects := x.rejects + 1 }) := if_pos (by rw [write]; rfl)
    rw [is, fn_modFn, counted]
    exact ⟨rfl, fun _ => rfl⟩
  | some bs =>
    have is : d.bar2Reject f p req = (d.modFn f Fn.aborted).count p 3 1 := if_neg (by rw [write]; exact Bool.false_ne_true)
    rw [is, counted]
    exact ⟨rfl, nofun⟩

/-- What a BAR2 request within the window comes to. -/
def Dev.bar2Answer (d : Dev) (f a : Nat) (req : Bar2Req) : Dev :=
  match d.bar2Part f with
  | none => d.bar2Refuse f req .unsupportedRequest
  | some p =>
    if req.atomic || (d.part p).extent a req.len == .outside || (d.part p).hitsWeights a req.len then d.bar2Reject f p req
    else d.bar2Serve f p a req

theorem bar2Request_answers {s : State} {f off : Nat} {req : Bar2Req} (up : FnUp s f) (within : off < 2 ^ (s.dev.fn f).bar2Log2)
    (some_ : req.len ≠ 0) : exec (.bar2Request f off req) s = .next (s.onDev (·.bar2Answer f ((s.dev.fn f).bar2Base + off) req)) :=
  (onFn_acts up (congrArg (fun d => { s with dev := d }) (if_neg (by omega))) : execBar2Request f off req s = _)

theorem bar2Request_ignored {s : State} {f off : Nat} {req : Bar2Req} (up : FnUp s f)
    (beyond : 2 ^ (s.dev.fn f).bar2Log2 ≤ off ∨ req.len = 0) : exec (.bar2Request f off req) s = .next s :=
  (onFn_acts up (congrArg (fun d => { s with dev := d }) (if_pos beyond)) : execBar2Request f off req s = _)

theorem bar2Answer_unsupported {d : Dev} {f a : Nat} {req : Bar2Req} (none_ : d.bar2Part f = none) (read : req.write = none) :
    ((d.bar2Answer f a req).fn f).reply = some .unsupportedRequest ∧ ((d.bar2Answer f a req).fn f).rejects = (d.fn f).rejects + 1 := by
  simp only [Dev.bar2Answer, none_, Dev.bar2Refuse, read, Option.isNone_none, if_true, fn_modFn, and_self]

theorem bar2Answer_discards {d : Dev} {f a : Nat} {req : Bar2Req} (none_ : d.bar2Part f = none) (write : req.write.isSome = true) :
    d.bar2Answer f a req = d := by
  simp only [Dev.bar2Answer, none_, Dev.bar2Refuse]
  exact if_neg (by simpa using Option.isSome_iff_ne_none.mp write)

theorem bar2Answer_rejects {d : Dev} {f p a : Nat} {req : Bar2Req} (some_ : d.bar2Part f = some p)
    (bad : req.atomic = true ∨ (d.part p).extent a req.len = .outside ∨ (d.part p).hitsWeights a req.len = true) :
    d.bar2Answer f a req = d.bar2Reject f p req := by
  simp only [Dev.bar2Answer, some_]
  exact if_pos (by simpa [or_assoc] using bad)

theorem bar2Answer_serves {d : Dev} {f p a : Nat} {req : Bar2Req} (some_ : d.bar2Part f = some p) (plain : req.atomic = false)
    (inside : (d.part p).extent a req.len ≠ .outside) (open_ : (d.part p).hitsWeights a req.len = false) :
    d.bar2Answer f a req = d.bar2Serve f p a req := by
  simp only [Dev.bar2Answer, some_]
  exact if_neg (by simp [plain, inside, open_])

/-- Settles O54. -/
theorem registersAndWindowsAreChecked : Obligations.RegistersAndWindowsAreChecked := by
  refine ⟨fun s f v up => ⟨fun fits => ?_, fun fits => ?_, fun foreign => ⟨hostPortCfgWrite_foreign up foreign, ?_⟩,
      fun admin keep new => ⟨fun idle => ?_, fun commits => ?_⟩, fun admin keep same => ?_, fun admin clears same => ?_,
      fun x y hx hy => ⟨fun legal => ⟨fun admin => ?_, ?_⟩, fun illegal => ⟨?_, ?_⟩⟩, fun idle code => ?_, fun refused => ?_,
      fun off w is => ?_, fun off none_ => ?_⟩,
    fun s f off v unit => ⟨fun up dword => ?_, fun up odd => ?_, fun d p own => ?_, fun d => ?_, fun x => ⟨fun on => if_pos on, writeBase_disabled⟩,
      fun recovery powered admin from_ to_ => ?_, barRead_serves, fun starts other => barRead_unserved starts other⟩,
    fun s f off p a req up ha => ⟨bar2Request_ignored up, fun within some_ => ?_, fun legal => ?_, fun illegal => ?_⟩⟩
  · exact ⟨_, (onFn_acts up rfl : execHostBar2WindowWrite f v s = _), by simp only [State.onDev, fn_modFn]; exact if_pos fits⟩
  · exact ⟨_, (onFn_acts up rfl : execHostBar2WindowWrite f v s = _), by simp only [State.onDev, fn_modFn]; exact if_neg fits⟩
  · exact (onFn_acts up (if_neg foreign) : execBerylThermCfgWrite f v s = _)
  · rw [hostPortCfgWrite_keeps up admin keep, State.portCfgWrite, if_neg new, idle]; rfl
  · refine ⟨_, hostPortCfgWrite_keeps up admin keep, ?_⟩
    rw [State.portCfgWrite, if_neg new, if_pos commits]
    exact ⟨by simp only [State.onDev, fn_modFn], rfl⟩
  · rw [hostPortCfgWrite_keeps up admin keep, State.portCfgWrite, if_pos same]
  · refine ⟨_, (onFn_acts (t := s.onDev (fun d => d.modFn f (fun x => { x with writeRefused := false }))) up ?_ :
      execHostPortCfgWrite f v s = _), ?_⟩
    · simp only [clears, if_true, admin, ne_eq, not_true, if_false]
      exact if_pos same
    · exact ⟨by simp only [State.onDev, fn_modFn], rfl⟩
  · subst hx hy
    refine (onFn_acts up ((if_pos admin).trans ?_) : execBerylThermCfgWrite f v s = _)
    rw [setTherm_legal legal]
  · subst hx hy
    rw [pldmThermCfgWrite_up up.1, setTherm_legal legal]
  · subst hx hy
    refine (onFn_acts up ?_ : execBerylThermCfgWrite f v s = _)
    rw [setTherm_illegal illegal]
    exact ite_self _
  · subst hx hy
    rw [pldmThermCfgWrite_up up.1, setTherm_illegal illegal]
  · exact congrArg Host.Outcome.next (if_pos ⟨powered_of_up up.1, by rw [idle]; rfl, code⟩)
  · refine congrArg Host.Outcome.next (if_neg ?_)
    rintro ⟨-, idle, code⟩
    rcases refused with commits | high
    · rw [Option.isNone_iff_eq_none] at idle
      rw [idle] at commits
      exact Bool.false_ne_true commits
    · omega
  · refine ⟨s.onDev (fun d => d.modFn f (fun x => { x with latches := Tab.put x.latches off (w / 2 ^ 32) })), ?_, ?_⟩
    · show onUnit _ _ = _
      simp only [serves_of_up up.1, up.2.2, is, Bool.and_self, decide_eq_true up.2.1, onUnit_true]
    · simp only [State.onDev, fn_modFn, Tab.getD_put_self]
  · show onUnit _ _ = _
    simp only [none_, serves_of_up up.1, up.2.2, Bool.and_self, decide_eq_true up.2.1, onUnit_true]
  · exact registerWrite_up up dword
  · exact registerWrite_odd up odd
  · simp only [Dev.writeReg, own, Dev.modTick, if_true, part_modPart]
    exact ⟨rfl, rfl⟩
  · have bit : d.writeReg f 0x20 v = { d with tier := { d.tier with poisonSeen := w1c d.tier.poisonSeen v 2 } } := rfl
    rw [bit]
    rfl
  · refine ⟨_, registerWrite_recovery recovery powered admin from_ to_, ?_, rfl⟩
    rw [nat_putNat]
    exact Nat.mod_mod _ _
  · subst ha
    rw [bar2Request_answers up within some_]
    refine ⟨fun none_ read => ⟨_, rfl, bar2Answer_unsupported none_ read⟩, fun none_ write => ?_, fun own bad => ⟨_, rfl, ?_⟩,
      fun own plain inside open_ => ?_⟩
    · exact congrArg (fun d => Host.Outcome.next { s with dev := d }) (bar2Answer_discards none_ write)
    · simp only [State.onDev, bar2Answer_rejects own bad]
      exact bar2Reject_counts _ _ _ _
    · exact congrArg (fun d => Host.Outcome.next { s with dev := d }) (bar2Answer_serves own plain inside open_)
  · exact ⟨_, (onFn_acts up (if_pos legal) : execBar2Resize f off s = _), by simp only [State.onDev, fn_modFn]; rfl⟩
  · exact (onFn_acts up (if_neg (by omega)) : execBar2Resize f off s = _)

end Sys2Proof.Machine

namespace Sys2Proof.Machine

/-! ## Ports -/

/-- A row of a port of the configuration, by the state it makes. -/
theorem onPort_acts {s t : State} {n : Nat} {act : State → State} (h : PortUp s n) (eq : act s = t) : onPort n s act = .next t :=
  (onPort_up h).trans (congrArg Host.Outcome.next eq)

theorem perstRelease_acts {s : State} {n : Nat} (unit : n < 4) (powered : s.plat.powered = true) (reset : (s.dev.port n).perst = true) :
    exec (.perstRelease n) s = .next (if s.plat.boot = .held ∧ n = Config.adminPort
      then (s.onDev (fun d => d.modPort n (fun x => { x with perst := false }))).startBoot
      else s.onDev (fun d => d.modPort n (fun x => { x with perst := false }))) := by
  show execPerstRelease n s = _
  unfold execPerstRelease
  rw [decide_eq_true unit, onUnit_true, if_pos (by rw [powered, reset]; rfl)]
  rfl

theorem functionLevelReset_acts {s : State} {f : Nat} (unit : f < fnCount) (answers : s.plat.answers = true)
    (there : (s.dev.fn f).present = true) : exec (.functionLevelReset f) s =
      .next (s.onDev (fun d => if f % 65 = 0 then d.resetPort (f / 65) 3 else (d.departFn f 3).resetFn f)) := by
  show execFunctionLevelReset f s = _
  unfold execFunctionLevelReset
  rw [decide_eq_true unit, onUnit_true, if_pos (by rw [answers, there]; rfl)]

/-! ## VFs -/

/-- The device with the first VFs of a port in being. -/
def Dev.withVfs (d : Dev) (n count : Nat) : Dev :=
  (((portFns n).drop 1).take count).foldl (fun (d : Dev) f => d.modFn f (fun x => { x with present := true }))
    (d.modPort n (fun x => { x with vfs := count }))

theorem mem_vfs {n count v : Nat} (low : 1 ≤ v) (most : v ≤ count) (few : count ≤ 64) : 65 * n + v ∈ ((portFns n).drop 1).take count := by
  refine List.mem_of_getElem? (i := v - 1) ?_
  rw [List.getElem?_take_of_lt (by omega), List.getElem?_drop, portFns, List.getElem?_map, List.getElem?_range (by omega), Option.map_some]
  congr 1
  omega

theorem present_withVfs (d : Dev) {n count v : Nat} (low : 1 ≤ v) (most : v ≤ count) (few : count ≤ 64) :
    ((d.withVfs n count).fn (65 * n + v)).present = true := by
  have fold := foldl_touch (get := fun d => (Dev.fn d (65 * n + v)).present) (f := fun _ => true) (hits := (· = 65 * n + v))
    (upd := fun (d : Dev) f => d.modFn f (fun x => { x with present := true }))
    (fun d i here => by simp only [here, fn_modFn]) (fun d i other => by simp only [fn_modFn_ne _ _ (Ne.symm other)]) (fun _ => rfl)
    (((portFns n).drop 1).take count) (d.modPort n (fun x => { x with vfs := count }))
  exact fold.trans (if_pos ⟨_, mem_vfs low most few, rfl⟩)

theorem port_withVfs (d : Dev) (n count : Nat) : ((d.withVfs n count).port n).vfs = count := by
  unfold Dev.withVfs
  refine (foldl_keeps (fun d => (Dev.port d n).vfs) _ (fun d f => ?_) _ _).trans ?_
  · exact rfl
  · simp only [port_modPort]

/-- What a function attaching leaves of ports and of the functions that are there. -/
theorem attachFn_keeps (n g : Nat) (d : Dev) (f : Nat) :
    ((d.attachFn f).port n, ((d.attachFn f).fn g).present) = (d.port n, (d.fn g).present) := by
  have kept (h : Fn → Fn) (same : ∀ x, (h x).present = x.present) : ((d.modFn f h).fn g).present = (d.fn g).present := by
    by_cases is : g = f
    · rw [is, fn_modFn, same]
    · rw [fn_modFn_ne _ _ is]
  unfold Dev.attachFn
  split
  · rfl
  · split
    · exact Prod.ext rfl (kept (fun x => { x with attached := true }) (fun _ => rfl))
    · split
      · exact Prod.ext rfl (kept (fun x => { x with attached := true }) (fun _ => rfl))
      · exact Prod.ext rfl (kept (fun x => { x with awaiting := true }) (fun _ => rfl))

theorem attachPort_keeps (d : Dev) (m n g : Nat) :
    ((d.attachPort m).port n, ((d.attachPort m).fn g).present) = (d.port n, (d.fn g).present) :=
  foldl_keeps (fun d => (Dev.port d n, (Dev.fn d g).present)) Dev.attachFn (attachFn_keeps n g) _ _

theorem dropVfs_port (d : Dev) (n : Nat) : ((d.dropVfs n).port n).vfs = 0 := by
  refine (foldl_keeps (fun d => (Dev.port d n).vfs) _ (fun d f => ?_) _ _).trans ?_
  · split <;> rfl
  · simp only [port_modPort]

/-! ## Departures -/

/-- A function that has departed. -/
def Fn.departed (cause t : Nat) (x : Fn) : Fn :=
  { x with attached := false, awaiting := false, cause := cause, dropped := 0, departAt := t, lastHandle := 0, ide := [], bar2Wait := [] }

/-- A partition without the sessions and requests of a function. -/
def Part.without (f : Nat) (x : Part) : Part := { x.unask (bar2Asker f) with sessions := x.sessions.filter (fun v => v.fn != f) }

/-- A function departs, its commands still to end. -/
def Dev.departing (d : Dev) (f cause : Nat) : Dev :=
  (d.ownerOfFn f).elim (d.modFn f (Fn.departed cause (d.fnStamp f)))
    (fun p => (d.modFn f (Fn.departed cause (d.fnStamp f))).modPart p (Part.without f))

theorem departFn_eq {d : Dev} {f : Nat} (attached : (d.fn f).attached = true) (cause : Nat) :
    d.departFn f cause = ((d.departing f cause).endFunction f).partDeparts f := by
  unfold Dev.departFn
  rw [if_neg (by simp [attached])]
  unfold Dev.departing
  dsimp only
  split
  · next p own => rw [show d.ownerOfFn f = some p from own]; rfl
  · next own => rw [show d.ownerOfFn f = none from own]; rfl

/-- What a partition's departure reads of it. -/
def Part.standing (x : Part) : Option Layout × Tick × PartState × Bool := (x.layout, x.tick, x.state, x.everAttached)

theorem standing_without (f : Nat) (x : Part) : (x.without f).standing = x.standing := by
  have lent (x : Part) (k : Asker) : (x.unlend k.page 1).standing = x.standing := by unfold Part.unlend; split <;> rfl
  exact foldl_keeps Part.standing (fun (x : Part) (k : Asker) => x.unlend k.page 1) lent _ _

theorem departing_standing (d : Dev) (f cause p : Nat) : ((d.departing f cause).part p).standing = (d.part p).standing := by
  unfold Dev.departing
  cases d.ownerOfFn f with
  | none => rfl
  | some q => exact modPart_reads Part.standing (standing_without f) _ q p

theorem departing_fn (d : Dev) (f cause : Nat) : (d.departing f cause).fn f = (d.fn f).departed cause (d.fnStamp f) := by
  unfold Dev.departing
  cases d.ownerOfFn f with
  | none => exact fn_modFn _ _ _
  | some q => exact fn_modFn _ _ _

theorem departing_fn_ne (d : Dev) {f g : Nat} (cause : Nat) (other : g ≠ f) : (d.departing f cause).fn g = d.fn g := by
  unfold Dev.departing
  cases d.ownerOfFn f with
  | none => exact fn_modFn_ne _ _ other
  | some q => exact fn_modFn_ne _ _ other

theorem departing_live (d : Dev) (f cause : Nat) : (d.departing f cause).host.live = d.host.live := by
  unfold Dev.departing
  cases d.ownerOfFn f <;> rfl

/-- A queue pair of a function that departs. -/
def Qp.quiesced (x : Qp) : Qp := if x.state = 0 then x else { x with state := 2, held := 0, stalled := false }

/-- A function whose queues are quiesced. -/
def Fn.quiesced (x : Fn) : Fn := { x with qps := x.qps.map (fun e => (e.1, e.2.quiesced)) }

theorem endFunction_idle {d : Dev} {f : Nat} (idle : ∀ y ∈ d.host.live, y.2.fn ≠ f) : d.endFunction f = d.quiesceFn f := by
  have none_ : d.host.live.filter (fun e => e.2.fn == f) = [] := List.filter_eq_nil_iff.mpr fun y mem => by simpa using idle y mem
  unfold Dev.endFunction
  rw [none_]
  rfl

theorem quiesceFn_fn (d : Dev) (f : Nat) : (d.quiesceFn f).fn f = (d.fn f).quiesced := fn_modFn d f Fn.quiesced

theorem quiesceFn_fn_ne (d : Dev) {f g : Nat} (other : g ≠ f) : (d.quiesceFn f).fn g = d.fn g := fn_modFn_ne d Fn.quiesced other

theorem partDeparts_fn (d : Dev) (f g : Nat) : (d.partDeparts f).fn g = d.fn g := by
  unfold Dev.partDeparts
  split
  · rfl
  · dsimp only
    split <;> rfl

theorem ownerOfFn_congr {d e : Dev} (same : ∀ p, (d.part p).layout = (e.part p).layout) (f : Nat) : d.ownerOfFn f = e.ownerOfFn f := by
  unfold Dev.ownerOfFn
  simp only [same]

/-- The last attached function of a partition departs, and so does the partition. -/
theorem partDeparts_state {d : Dev} {f p : Nat} (own : d.ownerOfFn f = some p) (attached : (d.part p).state = .attached)
    (ever : (d.part p).everAttached = true) (gone : ∀ g ∈ (d.part p).fnList, (d.fn g).attached = false) :
    ((d.partDeparts f).part p).state = .departed (d.tc p) := by
  unfold Dev.partDeparts
  simp only [own]
  rw [if_pos ⟨attached, ever, List.all_eq_true.mpr fun g mem => by rw [gone g mem]; rfl⟩, part_modPart]

/-- The functions after one of them departs with no command live. -/
theorem departFn_fn {d : Dev} {f : Nat} (cause : Nat) (attached : (d.fn f).attached = true) (idle : ∀ y ∈ d.host.live, y.2.fn ≠ f) :
    (d.departFn f cause).fn f = ((d.fn f).departed cause (d.fnStamp f)).quiesced ∧ ∀ g, g ≠ f → (d.departFn f cause).fn g = d.fn g := by
  rw [departFn_eq attached, endFunction_idle (by rw [departing_live]; exact idle)]
  refine ⟨?_, fun g other => ?_⟩
  · rw [partDeparts_fn, quiesceFn_fn, departing_fn]
  · rw [partDeparts_fn, quiesceFn_fn_ne _ other, departing_fn_ne _ _ other]

theorem qp_quiesced {x : Fn} {q : Nat} {y : Qp} (there : Tab.find x.qps q = some y) :
    (x.quiesced.qp q).state = if y.state = 0 then 0 else 2 := by
  have found := find_map_keyed (fun _ z => Qp.quiesced z) x.qps q
  rw [there] at found
  have is : x.quiesced.qp q = y.quiesced := Option.getD_eq_iff.mpr (.inl found)
  rw [is, Qp.quiesced]
  split
  · assumption
  · rfl

theorem departFn_part {d : Dev} {f p : Nat} (cause : Nat) (attached : (d.fn f).attached = true) (idle : ∀ y ∈ d.host.live, y.2.fn ≠ f)
    (own : d.ownerOfFn f = some p) (state : (d.part p).state = .attached) (ever : (d.part p).everAttached = true)
    (last : ∀ g ∈ (d.part p).fnList, g ≠ f → (d.fn g).attached = false) : ((d.departFn f cause).part p).state = .departed (d.tc p) := by
  have stands (q : Nat) := departing_standing d f cause q
  simp only [Part.standing, Prod.mk.injEq] at stands
  obtain ⟨layout, tick, state', ever'⟩ := stands p
  have stamp : ((d.departing f cause).quiesceFn f).tc p = d.tc p := by
    have now : (d.departing f cause).now = d.now := by unfold Dev.departing; cases d.ownerOfFn f <;> rfl
    show Dev.tc (d.departing f cause) p = _
    unfold Dev.tc
    rw [tick, now]
  have same : ((d.departing f cause).quiesceFn f).ownerOfFn f = some p := (ownerOfFn_congr (fun q => (stands q).1) f).trans own
  rw [departFn_eq attached, endFunction_idle (by rw [departing_live]; exact idle)]
  refine (partDeparts_state same (state'.trans state) (ever'.trans ever) (fun g mem => ?_)).trans (by rw [stamp])
  by_cases is : g = f
  · rw [is, quiesceFn_fn, departing_fn]; rfl
  · rw [quiesceFn_fn_ne _ is, departing_fn_ne _ _ is]
    refine last g ?_ is
    have listed : ((d.departing f cause).part p).fnList = (d.part p).fnList := by unfold Part.fnList; rw [layout]
    rw [← listed]
    exact mem

/-! ## Power states -/

theorem resumeTicks_idle {d : Dev} (none_ : ∀ p, (d.part p).tick.held = none) : d.resumeTicks = d :=
  foldl_idle fun p _ => by simp only [none_ p]

/-- Settles O55. -/
theorem portsAndFunctionsComeAndGo : Obligations.PortsAndFunctionsComeAndGo := by
  refine ⟨fun s n width speed f count flit => ⟨fun admin unit powered held reset => ?_, fun up => ⟨fun d hd free => ?_, fun reset => ?_, ?_, fun plain => ?_,
      fun admin faulted => ?_, fun runs reset => ?_, fun free => ?_, ?_, fun unit there => ⟨fun pf => ?_, fun vf => ?_⟩, fun bad => ?_,
      fun few none_ => ?_, ?_⟩⟩,
    fun d e f cause p attached idle he => ⟨?_, fun own state ever last => ?_⟩,
    fun s n port up => ⟨fun awake => ?_, fun asleep => ?_, fun awake => ?_, fun asleep full => ?_, fun asleep low none_ => ?_, fun all_ none_ => ?_,
      fun some_ => ?_, fun live => ?_⟩⟩
  · refine ⟨_, perstRelease_acts unit powered reset, ?_⟩
    rw [if_pos ⟨held, admin⟩]
    exact ⟨rfl, rfl⟩
  · subst hd
    refine (onPort_acts up ?_ : execHostLinkUp n width speed flit s = _)
    rw [free]
    simp only [Bool.false_eq_true, if_false, State.onDev]
    by_cases ready : s.plat.up = true
    · exact (if_pos ready).trans (by rw [if_pos ready])
    · exact (if_neg ready).trans (by rw [if_neg ready])
  · exact (onPort_acts up (if_pos reset) : execHostLinkUp n width speed flit s = _)
  · exact (onPort_acts up rfl : execHostLinkDown n s = _)
  · refine (onPort_acts up (if_neg ?_) : execPerstAssert n s = _)
    rintro ⟨admin, faulted⟩
    rcases plain with other | ⟨sound, boot⟩
    · exact other admin
    · simp [sound, boot] at faulted
  · refine ⟨_, (onPort_acts up (if_pos ⟨admin, faulted⟩) : execPerstAssert n s = _), rfl, rfl, ?_⟩
    simp only [State.onDev, port_modPort]
  · refine ⟨_, perstRelease_acts up.1 (powered_of_answers up.2.1) reset, ?_⟩
    rw [if_neg (fun h => runs h.1)]
    exact ⟨by simp only [State.onDev, port_modPort], rfl⟩
  · show execPerstRelease n s = _
    unfold execPerstRelease
    rw [decide_eq_true up.1, onUnit_true, if_neg (by simp [free])]
  · exact (onPort_acts up rfl : execHotReset n s = _)
  · rw [functionLevelReset_acts unit up.2.1 there]
    simp only [if_pos pf]
  · rw [functionLevelReset_acts unit up.2.1 there]
    simp only [if_neg vf]
  · exact (onPort_acts up (if_pos bad) : execVfEnable n count s = _)
  · refine ⟨_, (onPort_acts (t := if s.plat.up && ((s.dev.withVfs n count).port n).up then s.onDev (fun d => (d.withVfs n count).attachPort n)
      else s.onDev (·.withVfs n count)) up (if_neg (by omega)) : execVfEnable n count s = _), ?_⟩
    split
    · have kept (g : Nat) := attachPort_keeps (s.dev.withVfs n count) n n g
      simp only [Prod.mk.injEq] at kept
      refine ⟨?_, fun v low most => ?_⟩
      · simp only [State.onDev, (kept 0).1, port_withVfs]
      · simp only [State.onDev, (kept _).2, present_withVfs _ low most few]
    · exact ⟨port_withVfs _ _ _, fun v low most => present_withVfs _ low most few⟩
  · refine ⟨_, (onPort_acts up rfl : execVfDisable n s = _), ?_⟩
    simp only [State.onDev, dropVfs_port]
  · subst he
    obtain ⟨here, elsewhere⟩ := departFn_fn cause attached idle
    rw [here]
    exact ⟨rfl, rfl, rfl, rfl, fun q x there => qp_quiesced there, elsewhere⟩
  · subst he
    exact departFn_part cause attached idle own state ever last
  · exact (onPort_acts port (if_pos (by rw [up, awake]; rfl)) : execD3hotEntry n s = _)
  · exact (onPort_acts port (if_neg (by simp [asleep])) : execD3hotEntry n s = _)
  · exact (onPort_acts port (if_neg (by simp [awake])) : execD0Return n s = _)
  · refine ⟨_, (onPort_acts port ((if_pos (by rw [up, asleep]; rfl)).trans (if_neg (by simp [full, State.onDev]))) : execD0Return n s = _), ?_, rfl⟩
    simp only [State.onDev, port_modPort]
  · refine ⟨_, (onPort_acts port ((if_pos (by rw [up, asleep]; rfl)).trans (if_pos low)) : execD0Return n s = _), ?_, rfl⟩
    simp only [State.onDev]
    rw [resumeTicks_idle (d := s.dev.modPort n _) none_, port_modPort]
  · refine congrArg Host.Outcome.next (if_pos ?_)
    simp only [up, none_, Bool.true_and, List.isEmpty_nil, Bool.and_true, List.all_eq_true, List.mem_range]
    exact all_
  · obtain ⟨m, unit, awake⟩ := some_
    refine congrArg Host.Outcome.next (if_neg fun all_ => ?_)
    simp only [Bool.and_eq_true, List.all_eq_true, List.mem_range] at all_
    exact Bool.false_ne_true (awake.symm.trans (all_.1.2 m unit))
  · refine congrArg Host.Outcome.next (if_neg fun all_ => ?_)
    simp only [Bool.and_eq_true, List.isEmpty_iff] at all_
    exact live all_.2

end Sys2Proof.Machine

namespace Sys2Proof.Machine

/-! ## Temperature -/

theorem count_stack (d : Dev) (p i n j : Nat) : (d.count p i n).stack j = d.stack j := by
  unfold Dev.count
  split <;> rfl

/-- What a sample reads of a stack and keeps: everything but the stamp of its step. -/
theorem countThrottle_stack (d : Dev) (i : Nat) : (d.countThrottle i).stack i = { d.stack i with stepSince := d.now } := by
  have stamped : (d.modStack i (fun st => { st with stepSince := d.now })).stack i = { d.stack i with stepSince := d.now } := stack_modStack _ _ _
  unfold Dev.countThrottle
  dsimp only
  split
  · exact (count_stack _ _ _ _ _).trans stamped
  · exact stamped

theorem stackSample_stack (d : Dev) (t hyst i temp : Nat) : ((d.stackSample t hyst i temp).stack i).temp = temp ∧
    ((d.stackSample t hyst i temp).stack i).step = nextStep t hyst (d.stack i).step temp ∧
    ((d.stackSample t hyst i temp).stack i).hot = (if 105 ≤ temp then (d.stack i).hot + 1 else 0) ∧
    ((d.stackSample t hyst i temp).stack i).waiting = (d.stack i).waiting ∧
    (((d.stackSample t hyst i temp).stack i).tripped = true ↔ (d.stack i).tripped = true ∨ 105 ≤ temp ∧ 1 ≤ (d.stack i).hot) := by
  unfold Dev.stackSample
  rw [stack_modStack, countThrottle_stack]
  refine ⟨rfl, rfl, rfl, rfl, ?_⟩
  simp only [Bool.or_eq_true, decide_eq_true_eq]
  by_cases hot : 105 ≤ temp
  · simp [hot]
  · simp [hot]

/-- What a thermal sample comes to where no trip is due. -/
def Dev.sampled (d : Dev) (i : Nat) : Dev :=
  if (d.stack i).step = 0 then
    match d.stackOwner i with
    | some p => d.resumeStacks p [i]
    | none => d
  else d

/-- The state after a thermal sample. -/
def State.afterSample (s : State) (d : Dev) (i temp : Nat) : State :=
  if (d.stack i).tripped then ({ s with dev := (d.sampled i).modEvent { EventRec.blank 0x0109 3 4 with unit := i * 128, d0 := i, d1 := temp } } :
    State).latchDown .thermal
  else { s with dev := d.sampled i }

theorem thermalSample_acts {s : State} {i temp : Nat} (up : s.plat.up = true) (unit : i < 16) : exec (.thermalSample i temp) s =
    .next (s.afterSample (s.dev.stackSample s.plat.throttleC s.plat.hysteresisC i temp) i temp) := by
  show execThermalSample i temp s = _
  unfold execThermalSample
  rw [decide_eq_true unit, onUnit_true, if_pos up]
  rfl

theorem latchDown_thermal (s : State) :
    (s.latchDown .thermal).plat.latch = some .thermal ∧ (s.latchDown .thermal).plat.thermTrip = true ∧ (s.latchDown .thermal).plat.boot = .off :=
  ⟨rfl, rfl, rfl⟩

/-! ## Dies -/

theorem dieTemperatureSample_acts {s : State} {i temp : Nat} (up : s.plat.up = true) (unit : i < 4) :
    exec (.dieTemperatureSample i temp) s = .next (s.dieSample i temp) := by
  show execDieTemperatureSample i temp s = _
  unfold execDieTemperatureSample
  rw [decide_eq_true unit, onUnit_true, if_pos up]

theorem dieSample_cool {s : State} {i temp : Nat} (cool : temp < 100) :
    s.dieSample i temp = { s with plat := { s.plat with dies := Tab.put s.plat.dies i ⟨temp, 0, false⟩ } } := by
  unfold State.dieSample
  simp only [show ¬ 105 ≤ temp by omega, show ¬ 100 ≤ temp by omega, if_false, false_and, decide_false, Bool.or_false]
  rfl

theorem dieSample_warm {s : State} {i temp : Nat} (warm : 100 ≤ temp) (once : temp < 105 ∨ (Tab.getD s.plat.dies i ⟨0, 0, false⟩).hot = 0) :
    (s.dieSample i temp).plat.alert = true ∧ (s.dieSample i temp).plat.mgmt = s.plat.mgmt ++ [⟨5, i⟩] ∧
    (s.dieSample i temp).plat.latch = s.plat.latch ∧ (Tab.getD (s.dieSample i temp).plat.dies i ⟨0, 0, false⟩).temp = temp := by
  have cold : ¬ 2 ≤ (if 105 ≤ temp then (Tab.getD s.plat.dies i ⟨0, 0, false⟩).hot + 1 else 0) := by split <;> omega
  unfold State.dieSample
  simp only [cold, warm, if_false, if_true, decide_true, Bool.or_true, Tab.getD_put_self, and_self]

theorem dieSample_trips {s : State} {i temp : Nat} (hot : 105 ≤ temp) (again : 1 ≤ (Tab.getD s.plat.dies i ⟨0, 0, false⟩).hot) :
    (s.dieSample i temp).plat.latch = some .thermal ∧ (s.dieSample i temp).plat.thermTrip = true ∧ (s.dieSample i temp).plat.boot = .off := by
  unfold State.dieSample
  simp only [if_pos hot]
  rw [if_pos (by omega)]
  exact latchDown_thermal _

/-! ## Boot -/

theorem bootStageComplete_acts {s : State} {n : Nat} (r : BootResult) (powered : s.plat.powered = true) (stage : s.plat.boot = .stage n) :
    exec (.bootStageComplete r) s = .next (s.bootStage n r) := by
  refine congrArg Host.Outcome.next ?_
  simp only [stage, powered, if_true]

theorem bootStage_unsigned {s : State} {n : Nat} {r : BootResult} (low : 1 ≤ n) (high : n ≤ 2) (unsigned : r.signed = false) :
    s.bootStage n r = s.toRecovery := by
  obtain rfl | rfl : n = 1 ∨ n = 2 := by omega
  · exact if_pos (by rw [unsigned]; rfl)
  · exact if_pos (by rw [unsigned]; rfl)

theorem bootStage_fails {s : State} {n : Nat} {r : BootResult} (bad : r.ok = false) (signed : n ≠ 1 ∧ n ≠ 2 ∨ r.signed = true)
    (stored : n = 1 → s.plat.fwStored.isSome = true) : s.bootStage n r = s.bootFailed n := by
  have notOk : ¬ r.ok = true := by rw [bad]; exact Bool.false_ne_true
  match n with
  | 0 => exact if_neg notOk
  | 1 =>
    have sig : r.signed = true := signed.resolve_left (fun h => h.1 rfl)
    have some_ := stored rfl
    refine (if_neg ?_).trans (if_neg notOk)
    cases is : s.plat.fwStored with
    | none => rw [is] at some_; exact absurd some_ Bool.false_ne_true
    | some v => simp [sig]
  | 2 => exact (if_neg (by simp [signed.resolve_left (fun h => h.2 rfl)])).trans (if_neg notOk)
  | 3 => exact if_neg (by simp [bootEnough, bad])
  | 4 => exact if_neg notOk
  | 5 => exact if_neg notOk
  | n + 6 => exact if_neg notOk

theorem bootStage_passes {s : State} {n : Nat} {r : BootResult} (ok : r.ok = true) (signed : r.signed = true)
    (stored : s.plat.fwStored.isSome = true) (early : n < 6) (enough : n = 3 → bootEnough r = true) :
    (s.bootStage n r).plat.boot = .stage (n + 1) := by
  have kept : ¬ (!r.signed || s.plat.fwStored.isNone) = true := by
    cases is : s.plat.fwStored with
    | none => rw [is] at stored; exact absurd stored Bool.false_ne_true
    | some v => simp [signed]
  match n with
  | 0 => exact congrArg (fun t : State => t.plat.boot) (if_pos ok)
  | 1 => exact congrArg (fun t : State => t.plat.boot) ((if_neg kept).trans (if_pos ok))
  | 2 => exact congrArg (fun t : State => t.plat.boot) ((if_neg (by simp [signed])).trans (if_pos ok))
  | 3 => exact congrArg (fun t : State => t.plat.boot) (if_pos (enough rfl))
  | 4 => exact congrArg (fun t : State => t.plat.boot) (if_pos ok)
  | 5 => exact congrArg (fun t : State => t.plat.boot) (if_pos ok)
  | n + 6 => omega

theorem bootStage_last {s : State} {n : Nat} {r : BootResult} (ok : r.ok = true) (late : 6 ≤ n) :
    s.bootStage n r = { s with dev := s.dev.ready, plat := { s.plat with boot := .ready } } := by
  match n with
  | 0 | 1 | 2 | 3 | 4 | 5 => omega
  | n + 6 => exact if_pos ok

/-- Settles O56. -/
theorem powerBootAndTemperature : Obligations.PowerBootAndTemperature := by
  refine ⟨fun s mv us => ⟨fun high off free => ?_, fun bad => ?_, fun low on free => ?_, fun low on latched => ?_, fun fine => ?_,
      fun high long powered => ?_, fun fine => ?_, fun high long powered => ?_, fun fine => ?_, fun low long latched => ?_, fun fine => ?_⟩,
    fun s us n r => ⟨fun long powered => ?_, fun fine => ?_, fun powered held => ?_, fun fine => ?_, fun other => ?_,
      fun powered stage => ⟨fun low high unsigned => ?_, fun bad signed stored => ?_, fun ok signed stored early enough => ?_, fun ok late => ?_⟩,
      fun powered => ?_, fun off => ?_⟩,
    fun s i temp x y up hx hy => ⟨fun unit cool => ?_, fun unit warm once => ?_, fun unit hot again => ?_,
      fun unit d hd => ⟨?_, fun fine still => ?_, fun p fine free own => ?_⟩, fun unit trips => ?_⟩⟩
  · exact ⟨_, congrArg Host.Outcome.next (if_pos ⟨high, by rw [off]; rfl, by rw [free]; rfl⟩), rfl, rfl, rfl, rfl⟩
  · refine congrArg Host.Outcome.next (if_neg ?_)
    rintro ⟨high, off, free⟩
    rcases bad with low | on | latched
    · omega
    · simp [on] at off
    · simp [Option.isNone_iff_eq_none.mp free] at latched
  · exact ⟨_, congrArg Host.Outcome.next ((if_pos ⟨low, on⟩).trans (if_neg (by simp [free]))), rfl, rfl, rfl, rfl, rfl, rfl, rfl, rfl, rfl⟩
  · exact congrArg Host.Outcome.next ((if_pos ⟨low, on⟩).trans (if_pos latched))
  · exact congrArg Host.Outcome.next (if_neg (by rintro ⟨low, on⟩; rcases fine with h | h; omega; simp [h] at on))
  · exact ⟨_, congrArg Host.Outcome.next (if_pos ⟨high, long, powered⟩), rfl, rfl, rfl⟩
  · exact congrArg Host.Outcome.next (if_neg (by rintro ⟨high, long, on⟩; rcases fine with h | h | h; omega; omega; simp [h] at on))
  · exact ⟨_, congrArg Host.Outcome.next (if_pos ⟨high, long, powered⟩), rfl, rfl, rfl⟩
  · exact congrArg Host.Outcome.next (if_neg (by rintro ⟨high, long, on⟩; rcases fine with h | h | h; omega; omega; simp [h] at on))
  · exact congrArg Host.Outcome.next (if_pos ⟨low, long, latched⟩)
  · exact congrArg Host.Outcome.next (if_neg (by rintro ⟨low, long, on⟩; rcases fine with h | h | h; omega; omega; simp [h] at on))
  · exact ⟨_, congrArg Host.Outcome.next (if_pos ⟨long, powered⟩), rfl, rfl, rfl, rfl⟩
  · exact congrArg Host.Outcome.next (if_neg (by rintro ⟨long, on⟩; rcases fine with h | h; omega; simp [h] at on))
  · exact ⟨_, congrArg Host.Outcome.next (if_pos ⟨powered, held⟩), rfl, rfl, rfl⟩
  · exact congrArg Host.Outcome.next (if_neg (by rintro ⟨on, held⟩; rcases fine with h | h; simp [h] at on; exact h held))
  · refine congrArg Host.Outcome.next ?_
    split
    · next n stage => exact absurd stage (other n)
    · rfl
  · exact ⟨_, bootStageComplete_acts r powered stage, by rw [bootStage_unsigned low high unsigned]; rfl⟩
  · rw [bootStageComplete_acts r powered stage, bootStage_fails bad signed stored]; rfl
  · exact ⟨_, bootStageComplete_acts r powered stage, bootStage_passes ok signed stored early enough⟩
  · rw [bootStageComplete_acts r powered stage, bootStage_last ok late]
  · exact congrArg Host.Outcome.next (if_pos powered)
  · exact congrArg Host.Outcome.next (if_neg (by simp [off]))
  · rw [dieTemperatureSample_acts up unit, dieSample_cool cool]
  · subst hx
    exact ⟨_, dieTemperatureSample_acts up unit, dieSample_warm warm once⟩
  · subst hx
    exact ⟨_, dieTemperatureSample_acts up unit, dieSample_trips hot again⟩
  · subst hd hy
    exact stackSample_stack _ _ _ _ _
  · rw [thermalSample_acts up unit, ← hd, State.afterSample, if_neg (by simp [fine]), Dev.sampled]
    rcases still with steps | alone
    · rw [if_neg steps]
    · simp only [alone, ite_self]
  · rw [thermalSample_acts up unit, ← hd, State.afterSample, if_neg (by simp [fine]), Dev.sampled, if_pos free]
    simp only [own]
  · subst hy
    obtain ⟨-, -, -, -, tripped⟩ := stackSample_stack s.dev s.plat.throttleC s.plat.hysteresisC i temp
    refine ⟨_, thermalSample_acts up unit, ?_⟩
    rw [State.afterSample, if_pos (tripped.mpr trips)]
    exact latchDown_thermal _

end Sys2Proof.Machine

namespace Sys2Proof.Machine

/-! ## Requests at a stack -/

theorem onStack_acts {s : State} {i : Nat} {f : Dev → Dev} {e : Dev} (up : s.plat.up = true) (unit : i < 16) (eq : f s.dev = e) :
    onUnit (decide (i < 16)) (whenUp s f) = .next { s with dev := e } := onUnit_acts up (decide_eq_true unit) eq

/-- A stack that holds one request more. -/
def Stack.holding (r : StackReq) (x : Stack) : Stack := { x with waiting := x.waiting ++ [r] }

/-- A stack at whose port one request more waits. -/
def Stack.atPort (r : StackReq) (x : Stack) : Stack := { x with port := x.port ++ [r] }

/-- A stack that has been asked for the conversion of a tag unit. -/
def Stack.converting (u : Nat) (x : Stack) : Stack := { x with conv := if x.conv.contains u then x.conv else x.conv ++ [u] }

theorem arrive_crowded {d : Dev} {i p : Nat} {r : StackReq} (own : d.stackOwner i = some p)
    (full : (d.stack i).port ≠ [] ∨ 8192 ≤ (d.stack i).waiting.length) : d.arrive i r = d.modStack i (Stack.atPort r) := by
  unfold Dev.arrive
  simp only [own]
  refine if_neg fun room => ?_
  obtain ⟨port, few⟩ := Bool.and_eq_true_iff.mp room
  rcases full with waits | many
  · exact waits (List.isEmpty_iff.mp port)
  · exact absurd (of_decide_eq_true few) (Nat.not_lt.mpr many)

theorem arrive_room {d : Dev} {i p : Nat} {r : StackReq} (own : d.stackOwner i = some p) (port : (d.stack i).port = [])
    (few : (d.stack i).waiting.length < 8192) : d.arrive i r = d.accept i p r := by
  unfold Dev.arrive
  simp only [own]
  exact if_pos (Bool.and_eq_true_iff.mpr ⟨List.isEmpty_iff.mpr port, decide_eq_true few⟩)

theorem accept_behind {d : Dev} {i p : Nat} {r : StackReq} (late : behind (d.stack i).waiting r = true) :
    d.accept i p r = d.modStack i (Stack.holding r) := by
  unfold Dev.accept
  rw [if_pos late]
  rfl

theorem accept_first {d e : Dev} {i p : Nat} {r : StackReq} {done : Bool} (first : behind (d.stack i).waiting r = false)
    (tried : d.tryReq i p r = (done, e)) : d.accept i p r = if done then e else e.modStack i (Stack.holding r) := by
  unfold Dev.accept
  have tries : (if behind (d.stack i).waiting r then (false, d) else d.tryReq i p r) = (done, e) :=
    (if_neg (by simp [first])).trans tried
  simp only [tries]
  rfl

theorem tryReq_stale {d : Dev} {i p u : Nat} {r : StackReq} (stale : staleUnit (d.part p) (d.stack i) r = some u) :
    (d.tryReq i p r).1 = false ∧ (d.tryReq i p r).2.stack i = (d.stack i).converting u := by
  unfold Dev.tryReq Stack.converting
  simp only [stale]
  refine ⟨trivial, ?_⟩
  split
  · rfl
  · rw [stack_modStack]

theorem tryReq_serves {d e : Dev} {i p : Nat} {r : StackReq} {q : PBytes × Svc} (fresh : staleUnit (d.part p) (d.stack i) r = none)
    (hq : q = (d.svc i).serve r (d.part p).quota (d.part p).gen) (he : e = d.endSvc i p { q.2 with st := { q.2.st with
      reply := if r.write.isNone then some (plain q.1, poisoned q.1) else q.2.st.reply } }) :
    d.tryReq i p r = if d.affords e then (true, e) else (false, d) := by
  unfold Dev.tryReq
  simp only [fresh, ← hq, ← he]

/-! ## Tag conversion -/

theorem frameUnit_add (y : Layout) (s f : Nat) : y.frameUnit s f = y.frameUnit s 0 + f := by
  unfold Layout.frameUnit
  omega

theorem frameUnit_unitFrame {y : Layout} {s unit f : Nat} (pool : y.unitFrame s unit = some f) : y.frameUnit s f = unit := by
  unfold Layout.unitFrame at pool
  dsimp only at pool
  split at pool
  · next inside =>
    cases pool
    rw [frameUnit_add]
    omega
  · nomatch pool

theorem frameGen_congr {d e : Dev} {p die : Nat} (part : d.part p = e.part p) (tags : (d.stack (4 * die)).tags = (e.stack (4 * die)).tags) (f : Nat) :
    d.frameGen p die f = e.frameGen p die f := by
  unfold Dev.frameGen tagOf
  rw [part, tags]

/-- The four tags of a frame at the write generation. -/
def Dev.framesTagged (d : Dev) (p die f : Nat) (y : Layout) : Dev :=
  (List.range 4).foldl (fun (d' : Dev) i => d'.modStack (4 * die + i) (fun st =>
    { st with tags := Tab.put st.tags (y.frameUnit (4 * die + i) f) (d.part p).gen })) d

theorem framesTagged_tag (d : Dev) (p die f : Nat) (y : Layout) :
    Tab.find ((d.framesTagged p die f y).stack (4 * die)).tags (y.frameUnit (4 * die) f) = some (d.part p).gen := by
  unfold Dev.framesTagged
  simp only [show List.range 4 = [0, 1, 2, 3] from rfl, List.foldl_cons, List.foldl_nil]
  rw [stack_modStack_ne _ _ (by omega), stack_modStack_ne _ _ (by omega), stack_modStack_ne _ _ (by omega), Nat.add_zero, stack_modStack,
    Tab.find_put_self]

/-- What a change of one stack leaves of what is read of another, or of itself. -/
theorem modStack_reads {κ : Type} (m : Stack → κ) {f : Stack → Stack} (keeps : ∀ x, m (f x) = m x) (d : Dev) (j i : Nat) :
    m ((d.modStack j f).stack i) = m (d.stack i) := by
  by_cases same : i = j
  · rw [same, stack_modStack, keeps]
  · rw [stack_modStack_ne _ _ same]

theorem tagFrame_reads {κ : Type} (m : Stack → κ) (keeps : ∀ x t, m { x with tags := t } = m x) (d : Dev) (p die f i : Nat) :
    m ((d.tagFrame p die f).stack i) = m (d.stack i) := by
  unfold Dev.tagFrame
  split
  · rfl
  · split
    · rfl
    · exact foldl_keeps (fun d => m (Dev.stack d i)) _ (fun d k => modStack_reads m (fun x => keeps x _) _ _ _) _ _

theorem tagFrame_gen {d : Dev} {p die f : Nat} {y : Layout} (laid : (d.part p).layout = some y) :
    (d.tagFrame p die f).frameGen p die f = (d.part p).gen := by
  unfold Dev.tagFrame
  simp only [laid]
  split
  · assumption
  · have tagged := framesTagged_tag d p die f y
    have parts : (d.framesTagged p die f y).part p = d.part p :=
      foldl_keeps (fun d => Dev.part d p) (fun (d' : Dev) i => d'.modStack (4 * die + i) (fun st =>
        { st with tags := Tab.put st.tags (y.frameUnit (4 * die + i) f) (d.part p).gen })) (fun _ _ => rfl) _ _
    show ((d.framesTagged p die f y).modPart p (·.regen die f)).frameGen p die f = _
    have laid' : ((d.part p).regen die f).layout = some y := laid
    unfold Dev.frameGen tagOf
    rw [part_modPart, parts]
    simp only [laid', modPart_at_stack, Tab.getD, tagged, Option.getD_some]

/-- A device whose conversions of a frame have ended. -/
def Dev.unconverted (d : Dev) (s f : Nat) (y : Layout) : Dev :=
  (List.range 4).foldl (fun (d : Dev) i =>
    d.modStack (s / 4 * 4 + i) (fun st => { st with conv := st.conv.filter (· != y.frameUnit (s / 4 * 4 + i) f) })) d

theorem converted_frame {s unit f : Nat} {y : Layout} (pool : y.unitFrame s unit = some f) (d : Dev) (p : Nat) :
    d.converted s p unit y = (d.tagFrame p (s / 4) f).unconverted s f y := by
  unfold Dev.converted
  simp only [pool]
  rfl

theorem unconverted_reads {κ : Type} (m : Stack → κ) (keeps : ∀ x t, m { x with conv := t } = m x) (d : Dev) (s f : Nat) (y : Layout) (i : Nat) :
    m ((d.unconverted s f y).stack i) = m (d.stack i) := by
  unfold Dev.unconverted
  exact foldl_keeps (fun d => m (Dev.stack d i)) _ (fun d k => modStack_reads m (fun x => keeps x _) _ _ _) _ _

theorem unconverted_part (d : Dev) (s f : Nat) (y : Layout) (p : Nat) : (d.unconverted s f y).part p = d.part p := by
  unfold Dev.unconverted
  refine foldl_keeps (fun d => Dev.part d p) _ (fun d k => ?_) _ _
  rfl

theorem unconverted_conv (d : Dev) (s f : Nat) (y : Layout) :
    ((d.unconverted s f y).stack s).conv = (d.stack s).conv.filter (· != y.frameUnit s f) := by
  have fold := foldl_touch (get := fun d => (Dev.stack d s).conv) (f := List.filter (· != y.frameUnit s f)) (hits := fun i => s / 4 * 4 + i = s)
    (upd := fun (d : Dev) i =>
      d.modStack (s / 4 * 4 + i) (fun st => { st with conv := st.conv.filter (· != y.frameUnit (s / 4 * 4 + i) f) }))
    (fun d i here => by simp only [here, stack_modStack]) (fun d i other => by simp only [stack_modStack_ne _ _ (Ne.symm other)])
    (fun l => by rw [List.filter_filter]; simp) (List.range 4) d
  exact fold.trans (if_pos ⟨s % 4, List.mem_range.mpr (Nat.mod_lt _ (by omega)), by omega⟩)

/-- What a conversion that ends has done to its tag unit. -/
theorem converted_unit {d : Dev} {s p unit : Nat} {y : Layout} (laid : (d.part p).layout = some y) :
    ((d.converted s p unit y).stack s).dram = (d.stack s).dram ∧ unit ∉ ((d.converted s p unit y).stack s).conv ∧
    (y.unitFrame s unit = none → Tab.find ((d.converted s p unit y).stack s).tags unit = some (d.part p).gen) ∧
    (∀ f, y.unitFrame s unit = some f → (d.converted s p unit y).frameGen p (s / 4) f = (d.part p).gen) := by
  cases pool : y.unitFrame s unit with
  | none =>
    have is : (d.converted s p unit y).stack s =
        { d.stack s with tags := Tab.put (d.stack s).tags unit (d.part p).gen, conv := (d.stack s).conv.filter (· != unit) } := by
      unfold Dev.converted
      simp only [pool]
      exact stack_modStack _ _ _
    rw [is]
    exact ⟨rfl, by simp [List.mem_filter], fun _ => Tab.find_put_self _ _ _, nofun⟩
  | some f =>
    rw [converted_frame pool]
    refine ⟨?_, ?_, nofun, fun g same => ?_⟩
    · exact (unconverted_reads Stack.dram (fun _ _ => rfl) _ _ _ _ _).trans (tagFrame_reads Stack.dram (fun _ _ => rfl) _ _ _ _ _)
    · rw [unconverted_conv, frameUnit_unitFrame pool]
      simp [List.mem_filter]
    · cases same
      refine (frameGen_congr (unconverted_part _ _ _ _ _) (unconverted_reads Stack.tags (fun _ _ => rfl) _ _ _ _ _) _).trans ?_
      exact tagFrame_gen laid

/-! ## The rows of a stack -/

section
variable {s : State} {i : Nat} {r : StackReq} (up : s.plat.up = true) (unit : i < 16)
include up unit

theorem baseDieRequest_acts (whole : wholeReq r = true) : exec (.baseDieRequest i r) s = .next { s with dev := s.dev.arrive i r } :=
  onStack_acts up unit (if_pos whole)

theorem baseDieRequest_none (none_ : wholeReq r = false ∨ s.dev.stackOwner i = none) : exec (.baseDieRequest i r) s = .next s := by
  refine onStack_acts (e := s.dev) up unit ?_
  rcases none_ with broken | alone
  · exact if_neg (by simp [broken])
  · unfold Dev.arrive
    simp only [alone, ite_self]

theorem throttleRelease_acts (n : Nat) : exec (.throttleRelease i n) s = .next (s.onDev (fun d =>
    (d.stackOwner i).elim (d.modStack i (fun x => { x with tokens := min 4096 (x.tokens + n) }))
      (fun p => (d.modStack i (fun x => { x with tokens := min 4096 (x.tokens + n) })).resumeStacks p [i]))) := by
  refine onStack_acts up unit ?_
  have own : (s.dev.modStack i (fun x => { x with tokens := min 4096 (x.tokens + n) })).stackOwner i = s.dev.stackOwner i := rfl
  dsimp only
  rw [own]
  cases s.dev.stackOwner i <;> rfl

theorem tagConversionDone_acts {p n : Nat} {y : Layout} (own : s.dev.stackOwner i = some p) (laid : (s.dev.part p).layout = some y) :
    exec (.tagConversionDone i n) s = .next (s.onDev (fun d =>
      if (d.part p).oldGen.isNone && !(d.stack i).conv.contains n then d
      else (d.converted i p n y).resumeStacks p ((List.range 4).map (fun k => i / 4 * 4 + k)))) := by
  refine onStack_acts up unit ?_
  simp only [own, laid]

/-- What a background scrub of an atom comes to. -/
theorem backgroundAtomScrub_acts {atom : Nat} (ecc : EccOutcome) (there : atom < stackBytes / 32) {e : Dev}
    (he : e = ((s.dev.stackOwner i).elim
      (s.dev.setStack i { ((s.dev.svc i).readAtom atom ecc).2.st with
        scrubbed := ((s.dev.svc i).readAtom atom ecc).2.st.scrubbed + 1
        drawn := ((s.dev.svc i).readAtom atom ecc).2.st.drawn + ((s.dev.svc i).readAtom atom ecc).2.atoms
        tokens := if ((s.dev.svc i).readAtom atom ecc).2.st.step = 0 then ((s.dev.svc i).readAtom atom ecc).2.st.tokens
          else ((s.dev.svc i).readAtom atom ecc).2.st.tokens - ((s.dev.svc i).readAtom atom ecc).2.atoms })
      (fun p => s.dev.endSvc i p { ((s.dev.svc i).readAtom atom ecc).2 with st := { ((s.dev.svc i).readAtom atom ecc).2.st with
        scrubbed := ((s.dev.svc i).readAtom atom ecc).2.st.scrubbed + 1 } }))) :
    exec (.backgroundAtomScrub i atom ecc) s = .next (if s.dev.affords e then s.onDev (fun _ => e) else s) := by
  have row : exec (.backgroundAtomScrub i atom ecc) s = .next { s with dev := s.dev.ifAffords e } := by
    refine onStack_acts up unit ((if_neg (by omega)).trans ?_)
    rw [he]
    cases s.dev.stackOwner i <;> rfl
  rw [row, Dev.ifAffords]
  split <;> rfl

end

end Sys2Proof.Machine

namespace Sys2Proof.Machine

/-! ## What events and counts leave of links -/

theorem link_unnoted (l : Nat) : Unnoted (fun d : Dev => d.link l) := ⟨fun _ _ => rfl, fun _ _ => rfl⟩

theorem linkEvent_link (d : Dev) (k code cls l : Nat) : (d.linkEvent k code cls).link l = d.link l := by
  unfold Dev.linkEvent
  dsimp only
  split
  · exact (link_unnoted l).partEvent _ _ _
  · rfl

theorem linkNotice_link (d : Dev) (k l : Nat) : (d.linkNotice k).link l = d.link l := by
  unfold Dev.linkNotice
  split
  · exact (link_unnoted l).queueEvents _ _ _ _ _
  · rfl

theorem countHeld_keeps (d e : Dev) (k l : Nat) : ((d.countHeld e k).link l, (d.countHeld e k).now) = (e.link l, e.now) := by
  unfold Dev.countHeld
  refine foldl_keeps (fun d => (Dev.link d l, d.now)) _ (fun y c => ?_) _ _
  split <;> rfl

/-! ## A link down -/

/-- A device with a link down, what waited for it still to be tried again. -/
def Dev.downLink (d : Dev) (l : Nat) : Dev :=
  let e := (d.countHeld (d.modLink l (fun x => { x with state := 2 })) l).modLink l
    (fun x => { x with state := 2, runStart := none, runCount := 0 })
  (List.range 256).foldl (fun (d : Dev) c =>
    (d.core c).descrs.foldl (fun (d : Dev) y =>
      if y.started && d.xferWay (d.corePart c) c y.x == 2 then d.markOp c y.op stDeviceFault else d) d)
    (((e.linkEvent l 0x0103 2).linkEvent l 0x0009 1).linkNotice l)

theorem linkDown_eq (d : Dev) (l : Nat) : d.linkDown l = (d.downLink l).resumeLinks := rfl

theorem downLink_state (d : Dev) (l : Nat) : ((d.downLink l).link l).state = 2 := by
  unfold Dev.downLink
  dsimp only
  have marked (d : Dev) (c : Nat) : ((d.core c).descrs.foldl (fun (d : Dev) y =>
      if y.started && d.xferWay (d.corePart c) c y.x == 2 then d.markOp c y.op stDeviceFault else d) d).link l = d.link l :=
    foldl_keeps (fun d => Dev.link d l) (fun (d : Dev) (y : Descr) =>
      if y.started && d.xferWay (d.corePart c) c y.x == 2 then d.markOp c y.op stDeviceFault else d) (fun d y => by split <;> rfl) _ d
  exact congrArg Link.state ((foldl_keeps (fun d => Dev.link d l) _ marked _ _).trans
    ((linkNotice_link _ _ _).trans ((linkEvent_link _ _ _ _ _).trans ((linkEvent_link _ _ _ _ _).trans (link_modLink _ _ _)))))

/-! ## Replays -/

/-- A link that retrains. -/
def Link.retraining (now : Nat) (x : Link) : Link := { x with state := 1, runCount := 0, outage := now }

theorem exhaustLink_retrains {s : State} {l : Nat} (rested : s.dev.retrainedLately l = false) :
    s.exhaustLink l = { s with dev := s.dev.modLink l (Link.retraining s.dev.now) } := by
  unfold State.exhaustLink Dev.exhaust Plat.linkReport
  rw [rested]
  rfl

theorem exhaustLink_downs {s : State} {l : Nat} (lately : s.dev.retrainedLately l = true) : s.exhaustLink l =
    { s with dev := (s.dev.downLink l).resumeLinks, plat := { s.plat with mgmt := s.plat.mgmt ++ [⟨6, l⟩] } } := by
  unfold State.exhaustLink Dev.exhaust Plat.linkReport
  rw [lately, if_pos rfl, if_pos rfl, linkDown_eq]

theorem retrainedLately_iff {d : Dev} {l : Nat} : d.retrainedLately l = true ↔ ∃ t, (d.link l).lastRetrain = some t ∧ d.now < t + 100000 := by
  unfold Dev.retrainedLately
  cases (d.link l).lastRetrain <;> simp

theorem runSpent_iff {x : Link} {now : Nat} : x.runSpent now = true ↔ 16 ≤ x.runCount ∨ ∃ t, x.runStart = some t ∧ t + 3000 ≤ now := by
  unfold Link.runSpent runReplays runTc
  cases x.runStart <;> simp

section
variable {s : State} {l dir : Nat} {fresh : Bool} (up : s.plat.up = true) (unit : l < 10)
include up unit

omit up in
theorem flitCrcFailure_idle (side : dir < 2) (off : (s.dev.link l).state ≠ 0) : exec (.flitCrcFailure l dir) s = .next s := by
  show execFlitCrcFailure l dir s = _
  unfold execFlitCrcFailure
  rw [decide_eq_true unit, decide_eq_true side, Bool.true_and, onUnit_true, if_neg (by simp [off])]

theorem flitCrcFailure_first (side : dir < 2) (on : (s.dev.link l).state = 0) (none_ : (s.dev.link l).runStart = none) :
    exec (.flitCrcFailure l dir) s = .next { s with dev := s.dev.modLink l (·.replay dir s.dev.now true) } := by
  show execFlitCrcFailure l dir s = _
  unfold execFlitCrcFailure
  rw [decide_eq_true unit, decide_eq_true side, Bool.true_and, onUnit_true, if_pos (by rw [up, on]; rfl)]
  dsimp only
  rw [if_pos (by rw [none_]; rfl)]
  rfl

theorem flitCrcFailure_later (side : dir < 2) (on : (s.dev.link l).state = 0) (runs : (s.dev.link l).runStart.isNone = false) :
    exec (.flitCrcFailure l dir) s = .next (if !(s.dev.draw.1 % 2 == 0) && (s.dev.link l).runSpent s.dev.now then
        ({ s with dev := s.dev.draw.2.modLink l (fun x => { x with crc := Tab.bump x.crc dir 1 }) } : State).exhaustLink l
      else { s with dev := s.dev.draw.2.modLink l (·.replay dir s.dev.now (s.dev.draw.1 % 2 == 0)) }) := by
  show execFlitCrcFailure l dir s = _
  unfold execFlitCrcFailure
  rw [decide_eq_true unit, decide_eq_true side, Bool.true_and, onUnit_true, if_pos (by rw [up, on]; rfl)]
  dsimp only
  rw [if_neg (by simp [runs])]

/-- A replay, the first of a run or one more of it. -/
theorem flitCrcFailure_replays (side : dir < 2) (on : (s.dev.link l).state = 0)
    (is : fresh = ((s.dev.link l).runStart.isNone || s.dev.draw.1 % 2 == 0)) (left : fresh = true ∨ (s.dev.link l).runSpent s.dev.now = false) :
    ∃ t : State, exec (.flitCrcFailure l dir) s = .next t ∧ t.plat = s.plat ∧
      t.dev.link l = (s.dev.link l).replay dir s.dev.now fresh := by
  cases runs : (s.dev.link l).runStart.isNone with
  | true =>
    rw [runs, Bool.true_or] at is
    exact ⟨_, flitCrcFailure_first up unit side on (Option.isNone_iff_eq_none.mp runs), rfl, by rw [is]; exact link_modLink _ _ _⟩
  | false =>
    rw [runs, Bool.false_or] at is
    refine ⟨_, flitCrcFailure_later up unit side on runs, ?_⟩
    rw [← is, if_neg (by rcases left with h | h <;> simp [h])]
    exact ⟨rfl, link_modLink _ _ _⟩

theorem flitCrcFailure_exhausts (side : dir < 2) (on : (s.dev.link l).state = 0)
    (is : fresh = ((s.dev.link l).runStart.isNone || s.dev.draw.1 % 2 == 0)) (goes : fresh = false) (spent : (s.dev.link l).runSpent s.dev.now = true) :
    exec (.flitCrcFailure l dir) s = .next (({ s with
      dev := s.dev.draw.2.modLink l (fun x => { x with crc := Tab.bump x.crc dir 1 }) } : State).exhaustLink l) := by
  rw [goes] at is
  obtain ⟨runs, odd⟩ := Bool.or_eq_false_iff.mp is.symm
  rw [flitCrcFailure_later up unit side on runs, if_pos (by rw [odd, spent]; rfl)]

omit up in
theorem replayRunExhausted_idle (none_ : (s.dev.link l).state ≠ 0 ∨ (s.dev.link l).runStart = none) :
    exec (.replayRunExhausted l) s = .next s := by
  show execReplayRunExhausted l s = _
  unfold execReplayRunExhausted
  rw [decide_eq_true unit, onUnit_true, if_neg (by rcases none_ with h | h <;> simp [h])]

theorem replayRunExhausted_acts (on : (s.dev.link l).state = 0) (runs : (s.dev.link l).runStart.isSome = true) :
    exec (.replayRunExhausted l) s = .next ((if 16 ≤ (s.dev.link l).runCount then s
      else { s with dev := s.dev.reach ((s.dev.link l).runStart.getD 0 + 3000) }).exhaustLink l) := by
  show execReplayRunExhausted l s = _
  unfold execReplayRunExhausted
  rw [decide_eq_true unit, onUnit_true, if_pos (by rw [up, on, runs]; rfl)]
  rfl

/-! ## Retrains -/

omit up in
theorem retrainComplete_idle (mask : Nat) (other : (s.dev.link l).state ≠ 1) : exec (.retrainComplete l mask) s = .next s := by
  show execRetrainComplete l mask s = _
  unfold execRetrainComplete
  rw [decide_eq_true unit, onUnit_true, if_neg (by simp [other])]

theorem retrainComplete_acts (mask : Nat) (retrains : (s.dev.link l).state = 1) : exec (.retrainComplete l mask) s = .next { s with
    dev := s.dev.retrained l mask
    plat := s.plat.linkReport l (lanesUp (Link.reset l).lanes mask).isNone } := by
  show execRetrainComplete l mask s = _
  unfold execRetrainComplete
  rw [decide_eq_true unit, onUnit_true, if_pos (by rw [up, retrains]; rfl)]

end

/-- A link whose retrain has ended at a width. -/
def Link.trained (l m now : Nat) (x : Link) : Link :=
  { x with
    state := 0
    lanes := m
    retrains := x.retrains + 1
    retrainSeen := true
    narrowed := x.narrowed || decide (m < (Link.reset l).lanes)
    runStart := none
    lastRetrain := some now }

/-- A device whose link has retrained, what waited for it still to be tried again. -/
def Dev.trained (d : Dev) (l n : Nat) : Dev :=
  let m := min n (d.link l).lanes
  let e := d.countHeld (d.modLink l (fun x => { x with state := 0 })) l
  let e := e.modLink l (Link.trained l m e.now)
  if m < (d.link l).lanes then (e.linkEvent l 0x0009 1).linkNotice l else e

theorem retrained_eq {d : Dev} {l mask n : Nat} (lanes : lanesUp (Link.reset l).lanes mask = some n) :
    d.retrained l mask = (d.trained l n).resumeLinks := by
  unfold Dev.retrained Dev.trained
  simp only [lanes, decide_eq_true_eq]
  rfl

theorem trained_link (d : Dev) (l n : Nat) :
    (d.trained l n).link l = Link.trained l (min n (d.link l).lanes) d.now { d.link l with state := 0 } := by
  have held := countHeld_keeps d (d.modLink l (fun x => { x with state := 0 })) l l
  rw [link_modLink] at held
  obtain ⟨link, now⟩ := Prod.mk.inj held
  have trained : ((d.countHeld (d.modLink l (fun x => { x with state := 0 })) l).modLink l (Link.trained l (min n (d.link l).lanes)
      (d.countHeld (d.modLink l (fun x => { x with state := 0 })) l).now)).link l =
      Link.trained l (min n (d.link l).lanes) d.now { d.link l with state := 0 } := by
    rw [link_modLink, link, now]
    rfl
  unfold Dev.trained
  dsimp only
  split
  · exact (linkNotice_link _ _ _).trans ((linkEvent_link _ _ _ _ _).trans trained)
  · exact trained

end Sys2Proof.Machine

namespace Sys2Proof.Machine

/-! ## What the end of a command leaves -/

/-- What is read of a device that depends on nothing of its host side either. -/
structure Hostless {κ : Type} (m : Dev → κ) : Prop extends Apart m where
  host : ∀ d t, m { d with host := t } = m d

section
variable {κ : Type} {m : Dev → κ} (hostless : Hostless m)
include hostless

theorem Hostless.writeOut (d : Dev) (f : Nat) (dev : Bool) (a : Nat) (bs : Bytes) : m (d.writeOut f dev a bs) = m d := by
  unfold Dev.writeOut
  split
  · exact (hostless.ioCarried _ _ _ _ _).trans (hostless.devWrite _ _ _ _ _)
  · exact hostless.host _ _

theorem Hostless.cqPut (d : Dev) (f q : Nat) (entry : Bytes) (irq : Bool) : m (d.cqPut f q entry irq) = m d :=
  (hostless.host _ _).trans (hostless.writeOut _ _ _ _ _)

theorem Hostless.endHandle (d : Dev) (h : Nat) (c : Cmd) (fault : Bool) (status word dbg r0 r1 : Nat) :
    m (d.endHandle h c fault status word dbg r0 r1) = m d := by
  have held : m (if c.lost then d else d.modQp c.fn c.q (fun x => { x with held := x.held - 1 })) = m d := by
    split
    · rfl
    · exact hostless.host _ _
  unfold Dev.endHandle
  dsimp only
  refine (hostless.host _ _).trans ?_
  split
  · exact (hostless.cqPut _ _ _ _ _).trans held
  · exact (hostless.host _ _).trans held

theorem Hostless.completeFuel (n : Nat) (d : Dev) (h : Nat) (fault : Bool) (status word dbg r0 r1 : Nat) :
    m (d.completeFuel n h fault status word dbg r0 r1) = m d := by
  induction n generalizing d h fault status word dbg r0 r1 with
  | zero => rfl
  | succ n ih =>
    unfold Dev.completeFuel
    split
    · rfl
    · exact (foldl_keeps m _ (fun d a => ih _ _ _ _ _ _ _ _) _ _).trans (hostless.endHandle _ _ _ _ _ _ _ _ _)

theorem Hostless.complete (d : Dev) (h status r0 r1 : Nat) : m (d.complete h status r0 r1) = m d := hostless.completeFuel _ _ _ _ _ _ _ _ _

theorem Hostless.zeroExtent (d : Dev) (p a n : Nat) : m (d.zeroExtent p a n) = m d := by
  unfold Dev.zeroExtent
  split
  · exact hostless.parts _ _
  · exact hostless.devWrite _ _ _ _ _
  · rfl

theorem Hostless.unbind (d : Dev) (c : Cmd) : m (d.unbind c) = m d := by
  unfold Dev.unbind
  split
  · split
    · exact hostless.zeroExtent _ _ _ _
    · rfl
  · rfl

theorem Hostless.forget (engines : ∀ d t, m { d with engines := t } = m d) (d : Dev) (p h : Nat) : m (d.forget p h) = m d := by
  unfold Dev.forget
  dsimp only
  refine (engines _ _).trans ((hostless.parts _ _).trans ((foldl_keeps m _ (fun d q => ?_) _ _).trans (hostless.parts _ _)))
  split
  · split
    · exact hostless.parts _ _
    · rfl
  · rfl

end

/-! ## Failures -/

theorem failCarnelian_carnelian (d : Dev) (kind : Nat) : (d.failCarnelian kind).carnelian = false := by
  have carnelian : Hostless Dev.carnelian := ⟨⟨⟨fun _ _ => rfl, fun _ _ => rfl⟩, fun _ _ => rfl, fun _ _ => rfl, fun _ _ => rfl⟩, fun _ _ => rfl⟩
  unfold Dev.failCarnelian
  dsimp only
  refine foldl_keeps Dev.carnelian _ (fun d e => ?_) _ _
  exact (carnelian.complete _ _ _ _ _).trans ((carnelian.unbind _ _).trans (carnelian.forget (fun _ _ => rfl) _ _ _))

theorem failCluster_cluster {d : Dev} {cl : Nat} (none_ : d.ownerOfDie (cl / 8) = none) (i : Nat) : (d.failCluster cl).cluster i =
    (d.modCluster cl (fun x => { x with failed := true, pgQ := [], walks := [], descQ := [] })).cluster i := by
  unfold Dev.failCluster
  simp only [none_]
  refine (foldl_keeps (fun d => Dev.cluster d i) _ (fun d r => ?_) _ _).trans rfl
  rfl

theorem endGroup_hub (d : Dev) (p slot stage group k st n : Nat) : (d.endGroup p slot stage group k st).hub n = d.hub n := by
  unfold Dev.endGroup
  split
  · rfl
  · refine foldl_keeps (fun d => Dev.hub d n) _ (fun d c => ?_) _ _
    dsimp only
    split <;> rfl

theorem endHubGroups_hub (d : Dev) (level unit : Nat) (only : Option Nat) (n : Nat) : (d.endHubGroups level unit only).hub n = d.hub n := by
  refine foldl_keeps (fun d => Dev.hub d n) _ (fun d c => ?_) _ _
  split
  · rfl
  · refine foldl_keeps (fun d => Dev.hub d n) _ (fun d u => ?_) _ _
    split
    · exact endGroup_hub _ _ _ _ _ _ _ _
    · rfl

section
variable {s : State} (up : s.plat.up = true)
include up

theorem clusterControlCoreFailure_acts {cl : Nat} (unit : cl < 32) : exec (.clusterControlCoreFailure cl) s =
    .next (s.onDev (fun d => if (d.cluster cl).failed then d else d.failCluster cl)) :=
  onUnit_acts up (decide_eq_true unit) rfl

theorem usneaMessageCrcFailure_acts {level unit : Nat} (there : hopExists level unit = true) : exec (.usneaMessageCrcFailure level unit) s =
    .next { s with
      dev := s.dev.usneaCrc level unit
      plat := if s.dev.replayLeft level unit then s.plat
        else { s.plat with mgmt := s.plat.mgmt ++ [⟨1, hubKey level (if level = 2 then 0 else unit)⟩] } } := by
  show execUsneaMessageCrcFailure level unit s = _
  unfold execUsneaMessageCrcFailure
  rw [there, onUnit_true, if_pos up]

theorem peridot_acts {i : Instr} {core : Nat} (unit : core < 8) (is : i = .peridotWatchdog core ∨ i = .peridotSramError core) :
    exec i s = .next (s.peridotDown core) := by
  have acts : onUnit (decide (core < peridotCores)) (if s.plat.up then s.peridotDown core else s) = .next (s.peridotDown core) := by
    rw [show decide (core < peridotCores) = true from decide_eq_true unit, onUnit_true, if_pos up]
  rcases is with rfl | rfl
  · exact acts
  · exact acts

end

/-- Settles O57. -/
theorem stacksLinksAndFailures : Obligations.StacksLinksAndFailures := by
  refine ⟨fun s i p n bank atom r x ecc up unit hx => ⟨baseDieRequest_none up unit, fun whole own => ⟨fun full => ?_, fun port few =>
        ⟨fun late => ?_, fun first u stale => ?_, fun first fresh q e hq he => ⟨fun yes => ?_, fun no => ?_⟩⟩⟩,
      fun d hd => ⟨fun alone => ?_, fun own => ?_⟩, fun y own laid => ⟨fun old none_ => ?_, fun goes d hd => ?_⟩, fun there => ?_,
      fun beyond => ?_, fun there own v e hv he => ?_, fun there alone v e hv he => ?_⟩,
    fun s l dir mask m x fresh up unit hx => ⟨fun side on is => ⟨fun left => ?_, fun goes spent => ?_⟩, fun side off => ?_, fun none_ => ?_,
      fun on few t runs => ?_, fun on runs many rested => ?_, fun on runs many last lately => ?_, fun other => ?_, fun retrains lanes => ?_,
      fun retrains lanes => ?_⟩,
    fun s cl level unit kind core up => ⟨fun there failed => ?_, fun there works _ _ alone => ?_, fun there works => ?_, fun there => ?_,
      fun there left => ?_, fun there spent => ?_, fun gone => ?_, fun serves => ?_, fun i there is => ?_⟩⟩
  · subst hx
    refine ⟨_, baseDieRequest_acts up unit whole, ?_⟩
    simp only [arrive_crowded own full, stack_modStack, Stack.atPort]
  · subst hx
    refine ⟨_, baseDieRequest_acts up unit whole, ?_⟩
    simp only [arrive_room own port few, accept_behind late, stack_modStack, Stack.holding]
  · subst hx
    obtain ⟨waits, converts⟩ := tryReq_stale stale
    refine ⟨_, baseDieRequest_acts up unit whole, ?_⟩
    simp only [arrive_room own port few, accept_first first (Prod.ext waits rfl), Bool.false_eq_true, if_false, stack_modStack, converts,
      Stack.holding, Stack.converting]
  · subst hx
    have served : s.dev.accept i p r = e := (accept_first first ((tryReq_serves fresh hq he).trans (if_pos yes))).trans (if_pos rfl)
    rw [baseDieRequest_acts up unit whole, arrive_room own port few, served]
    rfl
  · subst hx
    have waits : s.dev.accept i p r = s.dev.modStack i (Stack.holding r) :=
      (accept_first first ((tryReq_serves fresh hq he).trans (if_neg (by simp [no])))).trans (if_neg Bool.false_ne_true)
    refine ⟨_, baseDieRequest_acts up unit whole, ?_⟩
    simp only [arrive_room own port few, waits, stack_modStack, Stack.holding]
  · rw [throttleRelease_acts up unit, hd]
    simp only [State.onDev, alone, Option.elim_none]
  · rw [throttleRelease_acts up unit, hd]
    simp only [State.onDev, own, Option.elim_some]
  · subst hx
    rw [tagConversionDone_acts up unit own laid]
    exact next_dev (if_pos (by simp [old, none_]))
  · subst hx hd
    refine ⟨?_, converted_unit laid⟩
    rw [tagConversionDone_acts up unit own laid]
    refine next_dev (if_neg ?_)
    rcases goes with old | there
    · cases is : (s.dev.part p).oldGen with
      | none => rw [is] at old; exact absurd old Bool.false_ne_true
      | some g => simp
    · simp [there]
  · subst hx
    exact ⟨_, onUnit_acts up (by simp [unit, there]) rfl, stack_modStack _ _ _⟩
  · exact onStack_acts up unit (if_pos beyond)
  · subst hv
    exact backgroundAtomScrub_acts up unit ecc there (by rw [he, own]; rfl)
  · subst hv
    exact backgroundAtomScrub_acts up unit ecc there (by rw [he, alone]; rfl)
  · subst hx
    refine flitCrcFailure_replays up unit side on is (left.imp id fun ⟨few, young⟩ => Bool.eq_false_iff.mpr fun spent => ?_)
    rcases runSpent_iff.mp spent with many | ⟨t, at_, old⟩
    · omega
    · have := young t at_
      omega
  · subst hx
    exact flitCrcFailure_exhausts up unit side on is goes (runSpent_iff.mpr spent)
  · subst hx
    exact flitCrcFailure_idle unit side off
  · subst hx
    exact replayRunExhausted_idle unit none_
  · subst hx
    rw [replayRunExhausted_acts up unit on (by rw [runs]; rfl), if_neg (by omega), runs]
    rfl
  · subst hx
    have early : s.dev.retrainedLately l = false := Bool.eq_false_iff.mpr fun lately => by
      obtain ⟨t, last, soon⟩ := retrainedLately_iff.mp lately
      have := rested t last
      omega
    refine ⟨_, replayRunExhausted_acts up unit on runs, ?_⟩
    rw [if_pos many, exhaustLink_retrains early]
    exact ⟨link_modLink _ _ _, rfl⟩
  · subst hx
    refine ⟨s.dev.downLink l, ?_, downLink_state _ _⟩
    rw [replayRunExhausted_acts up unit on runs, if_pos many, exhaustLink_downs (retrainedLately_iff.mpr ⟨m, last, lately⟩)]
  · subst hx
    exact retrainComplete_idle unit mask other
  · subst hx
    refine ⟨s.dev.downLink l, ?_, downLink_state _ _⟩
    have down : s.dev.retrained l mask = (s.dev.downLink l).resumeLinks := by
      unfold Dev.retrained
      simp only [lanes]
      exact linkDown_eq _ _
    rw [retrainComplete_acts up unit mask retrains, down, lanes]
    rfl
  · subst hx
    refine ⟨s.dev.trained l m, ?_, ?_⟩
    · rw [retrainComplete_acts up unit mask retrains, retrained_eq lanes, lanes]
      rfl
    · rw [trained_link]
      exact ⟨rfl, rfl, rfl, rfl, rfl⟩
  · rw [clusterControlCoreFailure_acts up there]
    exact next_dev (if_pos failed)
  · refine ⟨_, clusterControlCoreFailure_acts up there, ?_⟩
    simp only [State.onDev]
    rw [if_neg (by simp [works])]
    refine ⟨?_, ?_, fun i other => ?_⟩
    · rw [failCluster_cluster alone, cluster_modCluster]
    · rw [failCluster_cluster alone, cluster_modCluster]
    · rw [failCluster_cluster alone, cluster_modCluster_ne _ _ other]
  · rw [clusterControlCoreFailure_acts up there]
    exact next_dev (if_neg (by simp [works]))
  · show execUsneaHubFailure level unit s = _
    unfold execUsneaHubFailure
    rw [there, onUnit_true, if_pos up]
  · have again : s.dev.replayLeft level unit = true := decide_eq_true left
    refine ⟨_, usneaMessageCrcFailure_acts up there, ?_⟩
    simp only [again, if_true, Dev.usneaCrc, hub_modHub]
    exact ⟨trivial, rfl, trivial⟩
  · have last : s.dev.replayLeft level unit = false := decide_eq_false (by omega)
    refine ⟨_, usneaMessageCrcFailure_acts up there, ?_⟩
    simp only [last, Bool.false_eq_true, if_false, Dev.usneaCrc, endHubGroups_hub, hub_modHub, and_self]
  · refine congrArg Host.Outcome.next ?_
    rw [whenUp_up up]
    refine congrArg (fun d => { s with dev := d }) (if_neg ?_)
    rw [gone]
    exact Bool.false_ne_true
  · exact ⟨{ s with dev := s.dev.failCarnelian kind }, congrArg Host.Outcome.next ((whenUp_up up).trans
      (congrArg (fun d => { s with dev := d }) (if_pos serves))), failCarnelian_carnelian _ _, rfl⟩
  · refine ⟨_, peridot_acts up there is, rfl, rfl, rfl, ?_⟩
    simp [State.peridotDown, Plat.up]

end Sys2Proof.Machine

namespace Sys2Proof.Machine

/-! ## The translation layer -/

theorem block_modBlock (t : Tier) (b : Nat) (f : FBlock → FBlock) : (t.modBlock b f).block b = f (t.block b) := Tab.getD_put_self _ _ _ _

theorem block_modBlock_ne (t : Tier) {b i : Nat} (f : FBlock → FBlock) (other : i ≠ b) : (t.modBlock b f).block i = t.block i :=
  Tab.getD_put_ne _ _ _ other

/-- A block erased once more. -/
def FBlock.erased (x : FBlock) : FBlock := { x with erases := x.erases + 1, reads := 0 }

/-- A sector after the sectors of a block have moved. -/
def Sector.movedFrom (b : Nat) (dest : Nat → Nat) (key : Nat) (r : Sector) : Sector := if r.block = b then { r with block := dest key } else r

theorem movedSectors_find (t : Tab Sector) (b : Nat) (dest : Nat → Nat) (key : Nat) :
    Tab.find (movedSectors t b dest) key = (Tab.find t key).map (Sector.movedFrom b dest key) := by
  have keyed : movedSectors t b dest = t.map (fun e => (e.1, Sector.movedFrom b dest e.1 e.2)) := by
    refine List.map_congr_left fun e _ => ?_
    unfold Sector.movedFrom
    split <;> rfl
  rw [keyed, find_map_keyed]

/-- A partition whose sectors of a block have moved. -/
def Part.moved (b : Nat) (dest : Nat → Nat) (x : Part) : Part :=
  { x with sectors := movedSectors x.sectors b dest, storeSectors := movedSectors x.storeSectors b dest }

theorem relocate_retired {d : Dev} {b : Nat} {dest : Nat → Nat} (retired : (d.tier.block b).retired = true) : d.relocate b dest = d :=
  if_pos retired

theorem relocate_moves {d : Dev} {b : Nat} {dest : Nat → Nat} (serves : (d.tier.block b).retired = false) : d.relocate b dest = { d with
    parts := d.parts.map (fun e => (e.1, e.2.moved b dest))
    tier := { d.tier.modBlock b FBlock.erased with cycles := d.tier.cycles + 1 } } := if_neg (by simp [serves])

theorem part_moved (d : Dev) (b : Nat) (dest : Nat → Nat) (t : Tier) (p : Nat) :
    ({ d with parts := d.parts.map (fun e => (e.1, e.2.moved b dest)), tier := t } : Dev).part p = (d.part p).moved b dest := by
  have listed := find_map_keyed (fun _ => Part.moved b dest) d.parts p
  unfold Dev.part Tab.getD
  dsimp only
  rw [listed]
  cases Tab.find d.parts p <;> rfl

theorem relocate_sector {d : Dev} {b p key : Nat} {dest : Nat → Nat} {r : Sector} (serves : (d.tier.block b).retired = false)
    (there : Tab.find (d.part p).sectors key = some r) :
    Tab.find ((d.relocate b dest).part p).sectors key = some (r.movedFrom b dest key) := by
  rw [relocate_moves serves, part_moved]
  show Tab.find (movedSectors (d.part p).sectors b dest) key = _
  rw [movedSectors_find, there, Option.map_some]

theorem relocate_block {d : Dev} {b : Nat} {dest : Nat → Nat} (serves : (d.tier.block b).retired = false) :
    (d.relocate b dest).tier.block b = (d.tier.block b).erased := by
  rw [relocate_moves serves]
  exact block_modBlock _ _ _

theorem onBlock_acts {s : State} {b : Nat} {f : Dev → Dev} {e : Dev} (up : s.plat.up = true) (unit : b < rawBlocks) (eq : f s.dev = e) :
    onBlock b s f = .next { s with dev := e } := onUnit_acts up (decide_eq_true unit) eq

section
variable {s : State} {b : Nat} (up : s.plat.up = true) (unit : b < rawBlocks)
include up unit

theorem garbageCollection_acts (scarce : s.dev.tier.freeBlocks * 100 < 2 * rawBlocks) (serves : (s.dev.tier.block b).retired = false) :
    ∃ u : State, exec (.garbageCollection b) s = .next u ∧ ((u.dev.tier.block b).erases = (s.dev.tier.block b).erases + 1 ∧
      u.dev.tier.freeBlocks = s.dev.tier.freeBlocks + 1 ∧ u.dev.tier.cycles = s.dev.tier.cycles + 1 ∧
      (∀ i, i ≠ b → u.dev.tier.block i = s.dev.tier.block i)) := by
  have moved : s.dev.relocateOpen b = _ := relocate_moves (d := s.dev.draw.2) serves
  refine ⟨{ s with dev := { s.dev.relocateOpen b with tier := { (s.dev.relocateOpen b).tier with freeBlocks := (s.dev.relocateOpen b).tier.freeBlocks + 1 } } },
    onBlock_acts up unit (if_pos ⟨scarce, by simp [serves]⟩), ?_⟩
  rw [moved]
  exact ⟨congrArg FBlock.erases (block_modBlock s.dev.tier b FBlock.erased), rfl, rfl,
    fun i other => block_modBlock_ne s.dev.tier FBlock.erased other⟩

/-- A block that the patrol has checked in a period. -/
def FBlock.patrolled (period : Nat) (x : FBlock) : FBlock := { x with checked := period, reads := x.reads + 1 }

omit up unit in
theorem patrolled_relocateOpen (d : Dev) (b period : Nat) :
    ((({ d with tier := d.tier.modBlock b (FBlock.patrolled period) } : Dev).relocateOpen b).tier.block b).checked = period ∧
    ((({ d with tier := d.tier.modBlock b (FBlock.patrolled period) } : Dev).relocateOpen b).tier.block b).erases =
      (d.tier.block b).erases + (if (d.tier.block b).retired = false then 1 else 0) := by
  have patrolled : (({ d with tier := d.tier.modBlock b (FBlock.patrolled period) } : Dev).draw.2.tier.block b) =
    (d.tier.block b).patrolled period := block_modBlock _ _ _
  unfold Dev.relocateOpen
  cases retired : (d.tier.block b).retired with
  | false =>
    rw [relocate_block (by rw [patrolled]; exact retired), patrolled]
    exact ⟨rfl, rfl⟩
  | true =>
    rw [relocate_retired (by rw [patrolled]; exact retired), patrolled]
    exact ⟨rfl, rfl⟩

theorem folnasPatrol_acts {pct period : Nat} (now : s.dev.now / (7 * 86400 * 10 ^ 9) + 1 = period) (due : (s.dev.tier.block b).checked ≠ period) :
    ∃ u : State, exec (.folnasPatrol b pct) s = .next u ∧ ((u.dev.tier.block b).checked = period ∧
      (u.dev.tier.block b).erases = (s.dev.tier.block b).erases + (if 60 < pct ∧ (s.dev.tier.block b).retired = false then 1 else 0)) := by
  refine ⟨{ s with dev := if 60 < pct then
      ({ s.dev with tier := s.dev.tier.modBlock b (FBlock.patrolled period) } : Dev).relocateOpen b
    else { s.dev with tier := s.dev.tier.modBlock b (FBlock.patrolled period) } }, onBlock_acts up unit ?_, ?_⟩
  · subst now
    exact if_neg due
  · by_cases worn : 60 < pct
    · simp only [worn, if_true, true_and]
      exact patrolled_relocateOpen s.dev b period
    · simp only [worn, if_false, false_and, block_modBlock]
      exact ⟨rfl, rfl⟩

theorem badBlockRetire_acts (serves : (s.dev.tier.block b).retired = false) : ∃ u : State, exec (.badBlockRetire b) s = .next u ∧
    ((u.dev.tier.block b).retired = true ∧ u.dev.tier.spares = s.dev.tier.spares - 1) := by
  have retires : s.dev.tier.retire b = { s.dev.tier.modBlock b (fun x => { x with retired := true }) with spares := s.dev.tier.spares - 1 } :=
    if_neg (by simp [serves])
  refine ⟨_, onBlock_acts up unit (if_neg (by simp [serves])), ?_⟩
  show ((s.dev.tier.retire b).block b).retired = true ∧ (s.dev.tier.retire b).spares = _
  rw [retires]
  exact ⟨congrArg FBlock.retired (block_modBlock s.dev.tier b (fun x => { x with retired := true })), rfl⟩

end

theorem readOnlyModeEntry_acts {s : State} (up : s.plat.up = true) (spent : s.dev.tier.exhausted = true) (writes : s.dev.tier.readOnly = false) :
    ∃ u : State, exec .readOnlyModeEntry s = .next u ∧ (u.dev.tier.readOnly = true ∧ u.plat.mgmt = s.plat.mgmt ++ [⟨2, 0⟩]) := by
  have unnoted : Unnoted (fun d : Dev => d.tier) := ⟨fun _ _ => rfl, fun _ _ => rfl⟩
  refine ⟨_, congrArg Host.Outcome.next (if_pos (by rw [up, spent, writes]; rfl)), ?_, rfl⟩
  exact congrArg Tier.readOnly (foldl_keeps Dev.tier (fun (d : Dev) p => d.queueEvents p 0x0008 0 0) (fun d p => unnoted.queueEvents d p _ _ _)
    (List.range 4) _)

/-! ## TIER_FLUSH -/

/-- The checks of TIER_FLUSH. -/
def flushChecks (x : Part) (c : Cmd) : List (Nat × Nat × Bool) :=
  [(16, stInvalid, !bitOf (c.field 32 1) 0 && c.field 24 8 != 0 && wideAddr (c.field 16 8)),
   (16, stPartition, !bitOf (c.field 32 1) 0 && c.field 24 8 != 0 && x.extent (c.field 16 8) (c.field 24 8) != .unified),
   (32, stInvalid, decide (1 < c.field 32 1))] ++ rsvBytes c [(33, 31)]

theorem tierFlush_fails {s : State} {h : Nat} {c : Cmd} {f : Nat × Nat} (starts : Starts s h 0x51 c)
    (fails : firstFail (flushChecks (s.dev.part c.part) c) = some f) : exec (.tierFlush h) s = .next (s.onDev (fun d => d.failAt h f.1 f.2)) :=
  runCmd_acts starts rfl (checked_fail fails)

theorem tierFlush_passes {s : State} {h : Nat} {c : Cmd} (starts : Starts s h 0x51 c) (pass : firstFail (flushChecks (s.dev.part c.part) c) = none) :
    exec (.tierFlush h) s = .next (s.onDev (fun d => if !bitOf (c.field 32 1) 0 && decide (c.field 24 8 = 0) then d.complete h stOK 0 0
      else if d.tier.readOnly then d.complete h stNoSpace 0 0 else d.running h)) :=
  runCmd_acts starts rfl (checked_ok pass)

section
variable {x : Part} {c : Cmd} (low : c.field 32 1 < 2) (rsv : firstFail (rsvBytes c [(33, 31)]) = none)
include low rsv

theorem flushChecks_pass (named : bitOf (c.field 32 1) 0 = true ∨ c.field 24 8 = 0 ∨
    wideAddr (c.field 16 8) = false ∧ x.extent (c.field 16 8) (c.field 24 8) = .unified) : firstFail (flushChecks x c) = none := by
  refine firstFail_append_none.mpr ⟨firstFail_none.mpr fun k mem => ?_, rsv⟩
  simp only [List.mem_cons, List.not_mem_nil, or_false] at mem
  rcases mem with rfl | rfl | rfl
  · rcases named with whole | none_ | ⟨narrow, -⟩
    · simp [whole]
    · simp [none_]
    · simp [narrow]
  · rcases named with whole | none_ | ⟨-, unified⟩
    · simp [whole]
    · simp [none_]
    · simp [unified]
  · exact decide_eq_false (by omega)

omit low rsv in
theorem flushChecks_wide (part_ : bitOf (c.field 32 1) 0 = false) (some_ : c.field 24 8 ≠ 0) (wide : wideAddr (c.field 16 8) = true) :
    firstFail (flushChecks x c) = some (stInvalid, 16) := by
  unfold flushChecks
  rw [part_, wide, show (!false && c.field 24 8 != 0 && true) = true by simp [some_]]
  refine firstFail_cons_true fun k mem => ?_
  rcases List.mem_append.mp (mem : k ∈ [_, _] ++ rsvBytes c [(33, 31)]) with mem | mem
  · rcases List.mem_cons.mp mem with rfl | mem
    · exact Nat.le_refl _
    · rw [List.mem_singleton.mp mem]
      omega
  · exact rsvBytes_from (by simp) k mem

omit low rsv in
theorem flushChecks_foreign (part_ : bitOf (c.field 32 1) 0 = false) (some_ : c.field 24 8 ≠ 0) (narrow : wideAddr (c.field 16 8) = false)
    (other : x.extent (c.field 16 8) (c.field 24 8) ≠ .unified) : firstFail (flushChecks x c) = some (stPartition, 16) := by
  unfold flushChecks
  rw [part_, narrow, Bool.and_false, show (!false && c.field 24 8 != 0 && x.extent (c.field 16 8) (c.field 24 8) != .unified) = true by
    simp [some_, other]]
  refine (firstFail_cons_false _ _ _).trans (firstFail_cons_true fun k mem => ?_)
  rcases List.mem_append.mp (mem : k ∈ [_] ++ rsvBytes c [(33, 31)]) with mem | mem
  · rw [List.mem_singleton.mp mem]
    omega
  · exact rsvBytes_from (by simp) k mem

end

/-! ## TIER_FLUSH_DURABLE -/

/-- The state of the ways of a flush: the worst of its links. -/
def Dev.flushWay (d : Dev) (c : Cmd) : Nat := (((d.part c.part).flushPages c).map (fun e => d.ioState e.2)).foldl max 0

theorem tierFlushDurable_acts {s : State} {h : Nat} {c : Cmd} (ok : Bool) (up : s.plat.up = true) (live : s.dev.cmd h = some c) (op : c.op = 0x51)
    (runs : c.phase = .running) : exec (.tierFlushDurable h ok) s = .next (s.onDev (fun d =>
      if d.tier.readOnly then d.complete h stNoSpace 0 0
      else if !ok || d.flushWay c == 2 then d.complete h stDeviceFault 0 0
      else if d.flushWay c = 1 then d
      else (d.flushExtent c.part c).complete h stOK 0 0)) := by
  refine congrArg Host.Outcome.next ((whenUp_up up).trans (congrArg (fun d => { s with dev := d }) ?_))
  simp only [live]
  exact if_neg (by simp [op, runs])

theorem foldl_max_le {l : List Nat} {a n : Nat} (first : a ≤ n) (all_ : ∀ k ∈ l, k ≤ n) : l.foldl max a ≤ n := by
  induction l generalizing a with
  | nil => exact first
  | cons k l ih => exact ih (max_le first (all_ k List.mem_cons_self)) (fun j mem => all_ j (List.mem_cons_of_mem k mem))

theorem le_foldl_max {l : List Nat} {a n : Nat} (there : n ≤ a ∨ n ∈ l) : n ≤ l.foldl max a := by
  induction l generalizing a with
  | nil => exact there.resolve_right (List.not_mem_nil)
  | cons k l ih =>
    refine ih ?_
    rcases there with low | mem
    · exact .inl (Nat.le_trans low (Nat.le_max_left _ _))
    · rcases List.mem_cons.mp mem with rfl | mem
      · exact .inl (Nat.le_max_right _ _)
      · exact .inr mem

theorem flushWay_le {d : Dev} {c : Cmd} {n : Nat} (all_ : ∀ e ∈ (d.part c.part).flushPages c, d.ioState e.2 ≤ n) : d.flushWay c ≤ n :=
  foldl_max_le (Nat.zero_le _) (fun k mem => by obtain ⟨e, there, rfl⟩ := List.mem_map.mp mem; exact all_ e there)

theorem flushWay_eq {d : Dev} {c : Cmd} {n : Nat} (some_ : ∃ e ∈ (d.part c.part).flushPages c, d.ioState e.2 = n)
    (all_ : ∀ e ∈ (d.part c.part).flushPages c, d.ioState e.2 ≤ n) : d.flushWay c = n := by
  obtain ⟨e, there, is⟩ := some_
  exact Nat.le_antisymm (flushWay_le all_) (le_foldl_max (.inr (List.mem_map.mpr ⟨e, there, is⟩)))

end Sys2Proof.Machine

namespace Sys2Proof.Machine

/-! ## Reserve frames and write-back -/

section
variable {s : State} {p page : Nat} (up : PartUp s p)
include up

theorem onPart_acts {f : Dev → Dev} {e : Dev} (eq : f s.dev = e) : onUnit (decide (p < 4)) (whenUp s f) = .next { s with dev := e } :=
  onUnit_acts up.1 (decide_eq_true up.2) eq

theorem reserveFrameReturn_none (none_ : Tab.find (s.dev.part p).reserve page = none) : exec (.reserveFrameReturn p page) s = .next s :=
  onPart_acts (e := s.dev) up (by simp only [none_])

/-- A partition whose reserve frame of a page goes back. -/
def Part.returned (page : Nat) (r : Reserve) (x : Part) : Part :=
  { x with reserve := Tab.del x.reserve page, reserveUsed := Tab.put x.reserveUsed r.die (Tab.getD x.reserveUsed r.die 0 - 1) }

theorem reserveFrameReturn_acts {r : Reserve} (there : Tab.find (s.dev.part p).reserve page = some r) : exec (.reserveFrameReturn p page) s =
    .next (s.onDev (fun d => if r.waiters ≠ 0 ∨ (!r.dirty.isEmpty && (d.tier.readOnly || d.ioState r.die != 0)) then d
      else (d.backLent p page (fun _ => true)).modPart p (Part.returned page r))) :=
  onPart_acts up (by simp only [there]; rfl)

theorem evictionWriteBackDone_waits (holds : s.dev.tier.readOnly = true ∨ ∃ y, Tab.find (s.dev.part p).evict page = some y ∧ s.dev.ioState y.die ≠ 0) :
    exec (.evictionWriteBackDone p page) s = .next s := by
  refine onPart_acts (e := s.dev) up (if_pos ?_)
  rcases holds with readOnly | ⟨y, there, shut⟩
  · rw [readOnly, Bool.true_or]
  · simp [there, shut]

theorem evictionWriteBackDone_acts (writes : s.dev.tier.readOnly = false)
    (ways : ∀ y, Tab.find (s.dev.part p).evict page = some y → s.dev.ioState y.die = 0) : exec (.evictionWriteBackDone p page) s =
    .next { s with dev := s.dev.ifAffords ((s.dev.backEvict p page (fun _ => true)).evictDone p page) } := by
  refine onPart_acts up (if_neg ?_)
  rw [writes, Bool.false_or]
  cases there : Tab.find (s.dev.part p).evict page with
  | none => exact Bool.false_ne_true
  | some y => simp [ways y there]

/-- What BACKGROUND_WRITE_BACK writes. -/
def Dev.backExcess (d : Dev) (p : Nat) : Dev :=
  ((d.part p).dirtySectors.take (d.part p).dirtyExcess).foldl
    (fun (d : Dev) e => if (Tab.find (d.part p).resident e.2.1).elim false (fun r => d.ioState r.die == 0) then
      d.backResident p e.2.1 (fun i => i == e.2.2) else d) d

theorem backgroundWriteBack_acts : exec (.backgroundWriteBack p) s =
    .next (s.onDev (fun d => if s.plat.lowPower then d else if d.tier.readOnly then d else d.backExcess p)) := onPart_acts up rfl

end

/-! ## TIER_PREFETCH -/

/-- The checks of TIER_PREFETCH. -/
def prefetchChecks (x : Part) (c : Cmd) : List (Nat × Nat × Bool) :=
  [(16, stInvalid, c.field 24 8 != 0 && wideAddr (c.field 16 8)),
    (16, stPartition, c.field 24 8 != 0 && x.extent (c.field 16 8) (c.field 24 8) == .outside),
    (32, stPartition, c.field 32 1 != 0xFF && !x.hasDie (c.field 32 1)), (33, stInvalid, decide (1 < c.field 33 1))] ++ rsvBytes c [(34, 30)]

/-- What TIER_PREFETCH finds for the cold pages of its extent. -/
def Dev.prefetched (d : Dev) (c : Cmd) : Nat × Dev :=
  let cold := (d.part c.part).coldPages (c.field 16 8) (c.field 24 8)
  if c.field 32 1 = 0xFF then d.prefetchPages c.part (d.part c.part).firstDie (fun x => x.pickFrame x.firstDie) cold
  else d.prefetchPages c.part (c.field 32 1) (fun x => x.freeOn (c.field 32 1)) cold

/-- The pages of a TIER_PREFETCH that migrate. -/
def Dev.prefetchRuns (d : Dev) (c : Cmd) : List Nat :=
  ((d.part c.part).coldPages (c.field 16 8) (c.field 24 8)).filter (fun g => Tab.has ((d.prefetched c).2.part c.part).migr g)

/-- What a TIER_PREFETCH that passes its checks comes to. -/
def Dev.prefetch (d : Dev) (h : Nat) (c : Cmd) : Dev :=
  if c.field 24 8 = 0 then d.complete h stOK 0 0
  else if bitOf (c.field 33 1) 0 && !(d.prefetchRuns c).isEmpty then
    (d.prefetched c).2.modCmd h (fun k => { k with phase := .running, work := d.prefetchRuns c, count := (d.prefetched c).1 })
  else (d.prefetched c).2.complete h (if (d.prefetched c).1 = 0 then stOK else stNoSpace) (d.prefetched c).1 0

section
variable {s : State} {h : Nat} {c : Cmd} (starts : Starts s h 0x50 c)
include starts

theorem tierPrefetch_fails {f : Nat × Nat} (fails : firstFail (prefetchChecks (s.dev.part c.part) c) = some f) :
    exec (.tierPrefetch h) s = .next (s.onDev (fun d => d.failAt h f.1 f.2)) := runCmd_acts starts rfl (checked_fail fails)

theorem tierPrefetch_passes (pass : firstFail (prefetchChecks (s.dev.part c.part) c) = none) :
    exec (.tierPrefetch h) s = .next (s.onDev (·.prefetch h c)) := runCmd_acts starts rfl (checked_ok pass)

end

theorem prefetch_idle {d : Dev} {h : Nat} {c : Cmd} (none_ : c.field 24 8 = 0 ∨ (d.part c.part).coldPages (c.field 16 8) (c.field 24 8) = []) :
    d.prefetch h c = d.complete h stOK 0 0 := by
  unfold Dev.prefetch
  rcases none_ with empty | warm
  · exact if_pos empty
  · have found : d.prefetched c = (0, d) := by
      unfold Dev.prefetched
      rw [warm]
      exact ite_self _
    have runs : d.prefetchRuns c = [] := by unfold Dev.prefetchRuns; rw [warm]; rfl
    rw [found, runs]
    simp

theorem prefetch_runs {d : Dev} {h : Nat} {c : Cmd} (some_ : c.field 24 8 ≠ 0) (wait : bitOf (c.field 33 1) 0 = true)
    (go : d.prefetchRuns c ≠ []) : d.prefetch h c =
      (d.prefetched c).2.modCmd h (fun k => { k with phase := .running, work := d.prefetchRuns c, count := (d.prefetched c).1 }) := by
  unfold Dev.prefetch
  rw [if_neg some_, if_pos (by simp [wait, go])]

theorem prefetch_ends {d : Dev} {h : Nat} {c : Cmd} (some_ : c.field 24 8 ≠ 0)
    (free : bitOf (c.field 33 1) 0 = false ∨ d.prefetchRuns c = []) : d.prefetch h c =
      (d.prefetched c).2.complete h (if (d.prefetched c).1 = 0 then stOK else stNoSpace) (d.prefetched c).1 0 := by
  unfold Dev.prefetch
  rw [if_neg some_, if_neg (by rcases free with h | h <;> simp [h])]

/-- Settles O58. -/
theorem theTierKeepsItsPages : Obligations.TheTierKeepsItsPages := by
  refine ⟨fun s p page bad up => ⟨onPart_acts up rfl, fun none_ => ?_, fun m there => ?_, reserveFrameReturn_none up, fun r there =>
        ⟨fun used => ?_, fun free way => ?_, fun dirty shut => ?_⟩, fun readOnly => ⟨?_, ?_⟩, fun y there shut => ?_, fun writes ways e he => ?_,
        fun low => ?_, fun none_ => ?_, fun awake writes => ?_⟩,
    fun s h p a n die c hp ha hn hd => ⟨fun starts cs hcs => ⟨fun f fails => ?_, fun pass idle => ?_, fun pass some_ r runs hr hruns =>
        ⟨fun wait go => ?_, fun free => ?_⟩⟩, fun starts whole hw low rsv => ⟨fun part_ none_ => ?_, fun part_ some_ wide => ?_,
        fun part_ some_ narrow other => ?_, fun named => ⟨fun readOnly => ?_, fun writes => ?_⟩⟩, fun up live op phase => ⟨fun readOnly ok => ?_,
        fun writes => ⟨fun ways => ?_, fun one most => ?_, fun two most => ?_, ?_⟩⟩⟩,
    fun s b worn pct t up unit ht => ⟨fun scarce serves => ?_, fun many => ?_, fun unit' cold => ?_, fun unit' even => ?_, fun many => ?_,
      fun few => ?_, fun d dest p key r serves there => ⟨?_, ?_, ?_⟩, fun checked => ?_, fun due => ?_, fun serves => ?_, fun retired => ?_,
      fun spent writes => ?_, fun keeps => ?_⟩⟩
  · exact onPart_acts (e := s.dev) up (by simp only [none_])
  · exact onPart_acts up (by simp only [there]; rfl)
  · rw [reserveFrameReturn_acts up there]
    exact next_dev (if_pos (.inl used))
  · refine ⟨_, reserveFrameReturn_acts up there, ?_⟩
    simp only [State.onDev]
    rw [if_neg ?_, part_modPart]
    · exact find_del_self _ _
    · rintro (used | shut)
      · exact used free
      · rcases way with clean | ⟨writes, up'⟩
        · simp [clean] at shut
        · simp [writes, up'] at shut
  · rw [reserveFrameReturn_acts up there]
    refine next_dev (if_pos (.inr ?_))
    rcases shut with readOnly | off
    · simp [dirty, readOnly]
    · simp [dirty, off]
  · exact evictionWriteBackDone_waits up (.inl readOnly)
  · rw [backgroundWriteBack_acts up]
    refine next_dev (e := s.dev) ?_
    dsimp only
    rw [if_pos readOnly, ite_self]
  · exact evictionWriteBackDone_waits up (.inr ⟨y, there, shut⟩)
  · rw [evictionWriteBackDone_acts up writes ways, ← he, Dev.ifAffords]
    split <;> rfl
  · rw [backgroundWriteBack_acts up]
    exact next_dev (if_pos low)
  · have idle : s.dev.backExcess p = s.dev := by unfold Dev.backExcess; rw [none_]; rfl
    rw [backgroundWriteBack_acts up]
    refine next_dev (e := s.dev) ?_
    dsimp only
    rw [idle, ite_self, ite_self]
  · rw [backgroundWriteBack_acts up]
    exact next_dev ((if_neg (by simp [awake])).trans (if_neg (by simp [writes])))
  · subst hp ha hn hd hcs
    exact tierPrefetch_fails starts fails
  · subst hp ha hn hd hcs
    rw [tierPrefetch_passes starts pass]
    exact next_dev (prefetch_idle idle)
  · subst hp ha hn hd hcs
    have found : s.dev.prefetched c = r := hr.symm
    have going : s.dev.prefetchRuns c = runs := by rw [hruns, ← found]; rfl
    subst found going
    rw [tierPrefetch_passes starts pass]
    exact next_dev (prefetch_runs some_ wait go)
  · subst hp ha hn hd hcs
    have found : s.dev.prefetched c = r := hr.symm
    have going : s.dev.prefetchRuns c = runs := by rw [hruns, ← found]; rfl
    subst found going
    rw [tierPrefetch_passes starts pass]
    exact next_dev (prefetch_ends some_ free)
  · subst hp ha hn hd hw
    rw [tierFlush_passes starts (flushChecks_pass low rsv (.inr (.inl none_)))]
    exact next_dev (if_pos (by simp [part_, none_]))
  · subst hp ha hn hd hw
    exact tierFlush_fails (f := (stInvalid, 16)) starts (flushChecks_wide part_ some_ wide)
  · subst hp ha hn hd hw
    exact tierFlush_fails (f := (stPartition, 16)) starts (flushChecks_foreign part_ some_ narrow other)
  · subst hp ha hn hd hw
    rw [tierFlush_passes starts (flushChecks_pass low rsv (named.imp id fun ⟨_, narrow, unified⟩ => .inr ⟨narrow, unified⟩))]
    exact next_dev ((if_neg (by rcases named with h | h <;> simp [h])).trans (if_pos readOnly))
  · subst hp ha hn hd hw
    rw [tierFlush_passes starts (flushChecks_pass low rsv (named.imp id fun ⟨_, narrow, unified⟩ => .inr ⟨narrow, unified⟩))]
    exact next_dev ((if_neg (by rcases named with h | h <;> simp [h])).trans (if_neg (by simp [writes])))
  · rw [tierFlushDurable_acts ok up live op phase]
    exact next_dev (if_pos readOnly)
  · subst hp
    have way : s.dev.flushWay c = 0 := Nat.le_zero.mp (flushWay_le fun e mem => Nat.le_of_eq (ways e mem))
    rw [tierFlushDurable_acts true up live op phase]
    exact next_dev ((if_neg (by simp [writes])).trans ((if_neg (by simp [way])).trans (if_neg (by simp [way]))))
  · subst hp
    have way : s.dev.flushWay c = 1 := flushWay_eq one most
    rw [tierFlushDurable_acts true up live op phase]
    exact next_dev (e := s.dev) ((if_neg (by simp [writes])).trans ((if_neg (by simp [way])).trans (if_pos way)))
  · subst hp
    have way : s.dev.flushWay c = 2 := flushWay_eq two most
    rw [tierFlushDurable_acts true up live op phase]
    exact next_dev ((if_neg (by simp [writes])).trans (if_pos (by simp [way])))
  · rw [tierFlushDurable_acts false up live op phase]
    exact next_dev ((if_neg (by simp [writes])).trans (if_pos rfl))
  · subst ht
    exact garbageCollection_acts up unit scarce serves
  · subst ht
    exact onBlock_acts (e := s.dev) up unit (if_neg (by omega))
  · subst ht
    exact (if_pos unit').trans (onBlock_acts up unit (if_pos cold))
  · subst ht
    exact (if_pos unit').trans (onBlock_acts (e := s.dev) up unit (if_neg (by omega)))
  · subst ht
    exact onBlock_acts up unit (if_pos many)
  · subst ht
    exact onBlock_acts (e := s.dev) up unit (if_neg (Nat.not_le.mpr few))
  · exact relocate_sector serves there
  · rw [relocate_block serves]; rfl
  · rw [relocate_block serves]; rfl
  · subst ht
    exact onBlock_acts (e := s.dev) up unit (if_pos checked)
  · subst ht
    exact folnasPatrol_acts up unit rfl due
  · subst ht
    exact badBlockRetire_acts up unit serves
  · subst ht
    exact onBlock_acts (e := s.dev) up unit (if_pos retired)
  · subst ht
    exact readOnlyModeEntry_acts up spent writes
  · subst ht
    exact congrArg Host.Outcome.next (if_neg (by rcases keeps with h | h <;> simp [h]))

end Sys2Proof.Machine

namespace Sys2Proof.Machine

/-! ## The forms that complete

Each is a case of the statement about its own row, settled above; `RemainingFormsComplete` states it from the conditions
under which nothing holds the row up. -/

/-- Settles O59. -/
theorem remainingFormsComplete : Obligations.RemainingFormsComplete := by
  obtain ⟨sync, -⟩ := synchronisationOperationsRun
  obtain ⟨holds, batches, resumes, moves, demotions⟩ := sequencesMoveAndExpire
  obtain ⟨sequences, -⟩ := stateCommandsAreStaged
  obtain ⟨partitions, -⟩ := partitionsAreSet
  obtain ⟨asks, sessions, streams⟩ := spdmSessionsAreSetUp
  obtain ⟨fetches, -⟩ := handlesLiveFromFetchToDone
  obtain ⟨registers, writes, windows⟩ := registersAndWindowsAreChecked
  obtain ⟨requests, links, failures⟩ := stacksLinksAndFailures
  refine ⟨⟨fun s c w k p slot st x y hk run => ?_, fun s p up => ⟨fun some_ => ?_, fun id w slot recs q one old there lacks => ?_⟩,
      fun s p slot q up there => ?_⟩,
    ⟨fun s h p slot c q hp there => ?_, fun s h p c data o d hp starts ho idle => ?_⟩,
    ⟨fun s src nonce ek psk p tag v e up => ?_, fun s f stream port => ?_⟩,
    ⟨fun s f q slot cmd b x own up unit hx hown hb attached goes awake room turn host host' free pass => ?_, fun s f off v up => ?_⟩,
    fun s i p n bank atom r x ecc up unit hx own => ?_, fun s l dir mask m x up unit hx => ?_, fun s cl level unit kind core up => ?_⟩
  · obtain ⟨done, -, tick, -, waitNone, -, time⟩ := sync s c w k p slot st x y hk run
    refine ⟨fun issues empty => ⟨_, done issues empty, ?_⟩, fun issues empty => ⟨_, tick issues empty, ?_⟩, waitNone, time⟩
    · simp only [State.withCore, State.onDev, core_setCore, and_self]
    · simp only [State.withCore, State.onDev, core_setCore, and_self]
  · obtain ⟨b, there⟩ := Option.isSome_iff_exists.mp some_
    obtain ⟨-, decided⟩ := decisionsCloseTheWindow s p b up
    obtain ⟨t, acts, closed, -⟩ := decided there
    exact ⟨t, acts, closed⟩
  · obtain ⟨-, drops⟩ := batches s p id w slot recs q up
    obtain ⟨t, acts, gone, -⟩ := drops one old there lacks
    exact ⟨t, acts, gone⟩
  · obtain ⟨-, -, drops, lands⟩ := moves s p slot q up there
    refine ⟨fun h held due none_ => ?_, fun resuming due none_ lacks => ?_, fun parking some_ plain => ?_, lands, fun page some_ gone => ?_⟩
    · obtain ⟨-, -, expires⟩ := holds s p slot q h up there
      exact expires held due none_
    · obtain ⟨-, -, parks⟩ := resumes s p slot q up there
      obtain ⟨t, acts, is⟩ := parks resuming due none_ lacks
      obtain ⟨r, found, same⟩ := Option.map_eq_some_iff.mp is
      exact ⟨t, acts, by rw [found, Option.map_some, (Prod.mk.inj same).1]⟩
    · obtain ⟨t, acts, is⟩ := drops parking some_ plain
      obtain ⟨r, found, same⟩ := Option.map_eq_some_iff.mp is
      exact ⟨t, acts, by rw [found, Option.map_some, (Prod.mk.inj (Prod.mk.inj same).2).1]⟩
    · obtain ⟨-, ends⟩ := demotions s p slot page up
      exact ends some_ gone
  · obtain ⟨suspends, resumes', -, destroys⟩ := sequences s h p slot c q hp there
    refine ⟨fun starts pass b hb => ?_, fun starts pass parked => resumes' starts pass (.inr parked), fun starts pass active => ?_⟩
    · obtain ⟨plain, -, park, -, evicts⟩ := suspends starts pass b hb
      refine ⟨plain, fun keeps parks soft suspended => ?_, evicts⟩
      exact (park keeps parks (.inr suspended)).trans (next_dev (by simp only [soft, Bool.false_and, Bool.false_eq_true, if_false]))
    · exact (destroys starts pass).trans (next_dev (if_neg (by simp [active])))
  · have configures := partitions s h p c data o d false hp starts ho
    obtain ⟨configure, deletes, graces, -⟩ := configures
    refine ⟨fun op size pass host fits free hd => ?_, fun op pass => deletes op pass idle, fun op pass => graces op pass idle⟩
    obtain ⟨-, -, -, lays⟩ := configure op size pass
    exact lays idle host fits free hd
  · obtain ⟨version, capabilities, algorithms, digests, certificate, measurements, -⟩ := asks s src 15 nonce up
    obtain ⟨exchanges, -, -, finishes, psk', pskFinishes, -⟩ := sessions s src ek psk p tag v e up
    refine ⟨version, capabilities, algorithms, digests, certificate, ⟨_, measurements⟩, fun here => ⟨?_, finishes here, fun grace some_ same => ?_,
      fun grace opens some_ => pskFinishes here opens grace some_⟩⟩
    · obtain ⟨t, acts, ⟨a, b, replies⟩, -⟩ := exchanges here
      exact ⟨t, a, b, acts, replies⟩
    · obtain ⟨answers, -⟩ := psk' here some_
      exact answers same grace
  · obtain ⟨secures, -, -, -, leaves⟩ := streams s f stream port
    refine ⟨fun up secure there low => ?_, fun up unit there low => leaves up unit (by omega) there⟩
    obtain ⟨t, acts, mem, -⟩ := secures up secure there low
    exact ⟨t, acts, mem⟩
  · obtain ⟨-, fetched, -, -⟩ := fetches s f q slot cmd b x own up unit hx hown hb
    obtain ⟨t, c, acts, live, bytes, phase, -, -, -, -, -, -, -, head, -⟩ := fetched attached goes awake room turn host host' free pass
    exact ⟨t, c, acts, live, bytes, phase, head⟩
  · obtain ⟨base, -, -, code, -, -, therm, pldm, -, latch, -⟩ := registers s f v up
    obtain ⟨dword, -⟩ := writes s f off v up.2.1
    refine ⟨fun fits => ?_, fun admin idle new keep => ?_, fun a b c d t ht => ?_, pldm, latch off, dword up, fun p a req ha within some_ own plain inside open_ => ?_,
      fun low high => ?_⟩
    · obtain ⟨t, acts, is⟩ := base fits
      exact ⟨t, acts, by rw [is]⟩
    · obtain ⟨takes, -⟩ := code admin keep new
      exact takes idle
    · obtain ⟨legal, -⟩ := therm _ _ rfl rfl
      obtain ⟨beryl, management⟩ := legal ⟨a, b, c, d⟩
      subst ht
      exact ⟨management, beryl⟩
    · obtain ⟨-, serves, -⟩ := windows s f off p a req up ha
      obtain ⟨-, -, -, served⟩ := serves within some_
      exact served own plain inside open_
    · obtain ⟨-, -, resizes, -⟩ := windows s f v 0 _ ⟨0, none, false⟩ up rfl
      obtain ⟨t, acts, is⟩ := resizes ⟨low, high⟩
      exact ⟨t, acts, by rw [is], by rw [is]⟩
  · obtain ⟨-, arrives, -, -, refreshes, -, scrubs, -⟩ := requests s i p n bank atom r x ecc up unit hx
    refine ⟨fun whole port few first fresh q e hq he yes => ?_, ?_, fun y laid mem => ?_, fun there => ?_, fun there v e hv he yes => ?_⟩
    · obtain ⟨-, room⟩ := arrives whole own
      obtain ⟨-, -, serves⟩ := room port few
      obtain ⟨served, -⟩ := serves first fresh q e hq he
      exact served yes
    · rw [throttleRelease_acts up unit]
      simp only [State.onDev, own, Option.elim_some]
    · subst hx
      rw [tagConversionDone_acts up unit own laid]
      exact next_dev (if_neg (by simp [mem]))
    · obtain ⟨t, acts, is⟩ := refreshes there
      exact ⟨t, acts, by rw [is]; exact Tab.find_put_self _ _ _⟩
    · exact (scrubs there own v e hv he).trans (by rw [if_pos yes]; rfl)
  · obtain ⟨replays, -, -, -, exhausts, -, -, -, retrains⟩ := links s l dir mask m x true up unit hx
    refine ⟨fun side on none_ => ?_, fun on runs many none_ => ?_, fun off lanes => ?_⟩
    · obtain ⟨first, -⟩ := replays side on (by rw [none_]; rfl)
      obtain ⟨t, acts, -, is⟩ := first (.inl rfl)
      exact ⟨t, acts, by rw [is], by rw [is]; rfl, by rw [is]; rfl⟩
    · obtain ⟨t, acts, is, plat⟩ := exhausts on runs many (by rw [none_]; nofun)
      exact ⟨t, acts, by rw [is], plat⟩
    · obtain ⟨d, acts, on, width, count, -⟩ := retrains off lanes
      exact ⟨d, acts, on, width, count⟩
  · obtain ⟨-, -, control, hub, message, -, -, carnelian, peridot⟩ := failures s cl level unit kind core up
    refine ⟨hub, fun there left => ?_, control, fun serves _ => ?_, fun there => ⟨peridot _ there (.inl rfl), peridot _ there (.inr rfl)⟩⟩
    · obtain ⟨t, acts, count, -⟩ := message there left
      exact ⟨t, acts, count⟩
    · obtain ⟨t, acts, gone, -⟩ := carnelian serves
      exact ⟨t, acts, gone⟩

end Sys2Proof.Machine

namespace Sys2Proof.Machine

/-! ## VIDEO_SESSION -/

/-- A VIDEO_SESSION on an engine where the partition holds no unit is refused there: what is checked at a lower offset passes. -/
theorem engineCheck_fails {d : Dev} {h : Nat} {c : Cmd} {before after : List (Nat × Nat × Bool)} {act : Dev → Dev}
    (bad : 3 < c.field 29 1 ∨ (d.part c.part).units (c.field 29 1) = 0) (pass : firstFail before = none) (later : ∀ x ∈ after, 29 ≤ x.1) :
    d.checked h (before ++ d.engineCheck c :: after) act = d.failAt h stPartition 29 := by
  have refused : d.engineCheck c = (29, stPartition, true) := by
    unfold Dev.engineCheck
    rcases bad with out | none_
    · rw [decide_eq_true out, Bool.true_or]
    · rw [none_, beq_self_eq_true, Bool.or_true]
  refine checked_fail (f := (stPartition, 29)) ?_
  rw [firstFail_append_of_pass pass, refused, firstFail_cons_true later]

theorem engineCheck_passes {d : Dev} {c : Cmd} (unit : c.field 29 1 ≤ 3) (held : (d.part c.part).units (c.field 29 1) ≠ 0) :
    d.engineCheck c = (29, stPartition, false) := by
  unfold Dev.engineCheck
  rw [decide_eq_false (Nat.not_lt.mpr unit), beq_false_of_ne held, Bool.false_or]

/-- The field checks of OPEN pass on an engine where the partition holds units. -/
theorem openChecks_pass {d : Dev} {c : Cmd} (form : c.field 28 1 = 0) (len : c.field 24 4 = 64) (unit : c.field 29 1 ≤ 3)
    (held : (d.part c.part).units (c.field 29 1) ≠ 0) (rsv : c.field 30 2 = 0) (pass : firstFail (rsvBytes c [(32, 32)]) = none) :
    firstFail ([(24, stBounds, c.field 24 4 != 0 && c.field 24 4 != 64), (28, stInvalid, c.field 28 1 != 0),
      d.engineCheck c, (30, stInvalid, c.field 30 2 != 0)] ++ rsvBytes c [(32, 32)]) = none := by
  rw [engineCheck_passes unit held, len, form, rsv]
  exact pass

/-- The field checks of RECONFIG and CLOSE pass on a session that is there. -/
theorem sessionFields_pass {d : Dev} {c : Cmd} {v : VSession} {short : Bool} (len : short = false) (unit : c.field 29 1 ≤ 3) (held : (d.part c.part).units (c.field 29 1) ≠ 0)
    (rsv : c.field 30 2 = 0) (there : d.session c.part (c.field 32 4) = some v) (pass : firstFail (rsvBytes c [(36, 28)]) = none) :
    firstFail ([(24, stBounds, short), d.engineCheck c, (30, stInvalid, c.field 30 2 != 0),
      (32, stInvalid, (d.session c.part (c.field 32 4)).isNone)] ++ rsvBytes c [(36, 28)]) = none := by
  rw [len, engineCheck_passes unit held, rsv, there]
  exact pass

/-- OPEN, once its object is read. -/
def Dev.openSession (d : Dev) (h p j : Nat) (o : Bytes) : Dev :=
  match firstFail (sessionChecks (d.part p) o (Config.videoHeaderBits ((d.engine j).nextSession * 4 + j) 0)) with
  | some f => d.failObj h f.1 f.2
  | none =>
    if (d.engine j).failed then d.complete h stDeviceFault 0 0
    else if shareExceeded (o :: ((d.engine j).sessions.filter (fun v => v.2.part == p)).map (·.2.obj)) ((d.part p).units j) ||
        decide (4 * (d.part p).units j < (((d.engine j).sessions.filter (fun v => v.2.part == p)).map (·.2.obj)).length + 1) then
      d.failAt h stBusy 29
    else (d.modEngine j (fun e => { e with
      nextSession := e.nextSession + 1
      sessions := Tab.put e.sessions ((d.engine j).nextSession * 4 + j)
        ⟨p, o, [], 0, 0, 0, 0, none, fieldOf o 44 4, false, false, 0, none⟩ })).complete h stOK ((d.engine j).nextSession * 4 + j) 0

theorem videoSessionOpen_acts {s : State} {h : Nat} {c : Cmd} {data : Bytes} {f : Dev → Dev} (starts : Starts s h 0x60 c)
    (form : c.field 28 1 = 0) (len : c.field 24 4 = 64) (unit : c.field 29 1 ≤ 3) (held : (s.dev.part c.part).units (c.field 29 1) ≠ 0)
    (rsv : c.field 30 2 = 0) (pass : firstFail (rsvBytes c [(32, 32)]) = none) (host : HostObject c 64)
    (eq : s.dev.openSession h c.part (c.field 29 1) (objectOf data 64) = f s.dev) :
    exec (.videoSessionOpen h data) s = .next (s.onDev f) := by
  show execVideoSessionOpen h data s = _
  have some_ : ¬ c.field 24 4 = 0 := by omega
  refine runCmd_acts starts (by rw [form]; rfl) ((checked_ok (openChecks_pass form len unit held rsv pass)).trans ((if_neg some_).trans ?_))
  rw [len]
  exact (withObject_host host).trans eq

/-- RECONFIG of a session that is there, once its object is read. -/
def Dev.reconfigSession (d : Dev) (h id : Nat) (o : Bytes) (v : VSession) : Dev :=
  match firstFail ((List.range 64).map (fun i => (i, stInvalid, !rateByte i && fieldOf o i 1 != fieldOf v.obj i 1)) ++
      rateChecks o (Config.videoHeaderBits id v.nextCoded)) with
  | some f => d.failObj h f.1 f.2
  | none => (d.modSession id (fun v => { v with obj := o })).complete h stOK id 0

theorem videoSessionReconfig_acts {s : State} {h : Nat} {c : Cmd} {data : Bytes} {v : VSession} {f : Dev → Dev} (starts : Starts s h 0x60 c)
    (form : c.field 28 1 = 1) (len : c.field 24 4 = 64) (unit : c.field 29 1 ≤ 3) (held : (s.dev.part c.part).units (c.field 29 1) ≠ 0)
    (rsv : c.field 30 2 = 0) (there : s.dev.session c.part (c.field 32 4) = some v) (pass : firstFail (rsvBytes c [(36, 28)]) = none)
    (host : HostObject c 64) (eq : s.dev.reconfigSession h (c.field 32 4) (objectOf data 64) v = f s.dev) :
    exec (.videoSessionReconfig h data) s = .next (s.onDev f) := by
  show execVideoSessionReconfig h data s = _
  have some_ : ¬ c.field 24 4 = 0 := by omega
  have fields := sessionFields_pass (short := c.field 24 4 != 0 && c.field 24 4 != 64) (by rw [len]; rfl) unit held rsv there pass
  refine runCmd_acts starts (by rw [form]; rfl) ((checked_ok fields).trans ((if_neg some_).trans ?_))
  rw [len]
  refine (withObject_host host).trans ?_
  rw [there]
  exact eq

theorem videoSessionClose_acts {s : State} {h : Nat} {c : Cmd} {v : VSession} (starts : Starts s h 0x60 c)
    (form : c.field 28 1 = 2) (len : c.field 24 4 = 0) (unit : c.field 29 1 ≤ 3) (held : (s.dev.part c.part).units (c.field 29 1) ≠ 0)
    (rsv : c.field 30 2 = 0) (there : s.dev.session c.part (c.field 32 4) = some v) (pass : firstFail (rsvBytes c [(36, 28)]) = none) :
    exec (.videoSessionClose h) s = .next (s.onDev (fun d =>
      (((d.running h).modSession (c.field 32 4) (fun v => { v with closing := some h })).failWaiting (c.field 32 4) stAborted).sessionIdle
        (c.field 32 4))) := by
  show execVideoSessionClose h s = _
  have fields := sessionFields_pass (short := c.field 24 4 != 0) (by rw [len]; rfl) unit held rsv there pass
  exact runCmd_acts starts (by rw [form]; rfl) (checked_ok fields)

theorem videoSession_refused {s : State} {h : Nat} {c : Cmd} (data : Bytes) (starts : Starts s h 0x60 c)
    (bad : 3 < c.field 29 1 ∨ (s.dev.part c.part).units (c.field 29 1) = 0) :
    (c.field 28 1 = 0 → c.field 24 4 = 64 → exec (.videoSessionOpen h data) s = .next (s.onDev (fun d => d.failAt h stPartition 29))) ∧
    (c.field 28 1 = 1 → c.field 24 4 = 64 → exec (.videoSessionReconfig h data) s = .next (s.onDev (fun d => d.failAt h stPartition 29))) ∧
    (c.field 28 1 = 2 → c.field 24 4 = 0 → exec (.videoSessionClose h) s = .next (s.onDev (fun d => d.failAt h stPartition 29))) := by
  have reserved : ∀ off n, 29 ≤ off → ∀ x ∈ rsvBytes c [(off, n)], 29 ≤ x.1 := fun off n le => rsvBytes_from (by simpa using le)
  refine ⟨fun form len => ?_, fun form len => ?_, fun form len => ?_⟩
  · show execVideoSessionOpen h data s = _
    refine runCmd_acts starts (by rw [form]; rfl) (engineCheck_fails
      (before := [(24, stBounds, c.field 24 4 != 0 && c.field 24 4 != 64), (28, stInvalid, c.field 28 1 != 0)]) bad (by rw [form, len]; rfl) ?_)
    exact List.forall_mem_cons.mpr ⟨by simp, reserved 32 32 (by decide)⟩
  · show execVideoSessionReconfig h data s = _
    refine runCmd_acts starts (by rw [form]; rfl) (engineCheck_fails
      (before := [(24, stBounds, c.field 24 4 != 0 && c.field 24 4 != 64)]) bad (by rw [len]; rfl) ?_)
    exact List.forall_mem_cons.mpr ⟨by simp, List.forall_mem_cons.mpr ⟨by simp, reserved 36 28 (by decide)⟩⟩
  · show execVideoSessionClose h s = _
    refine runCmd_acts starts (by rw [form]; rfl) (engineCheck_fails
      (before := [(24, stBounds, c.field 24 4 != 0)]) bad (by rw [len]; rfl) ?_)
    exact List.forall_mem_cons.mpr ⟨by simp, List.forall_mem_cons.mpr ⟨by simp, reserved 36 28 (by decide)⟩⟩

/-! ## VIDEO_FRAME -/

/-- A command whose object is in host memory reads its eos there. -/
theorem frameEos_host {d : Dev} {c : Cmd} {data : Bytes} (host : HostObject c 256) : frameEos d c data = bitOf (fieldOf data 0 1) 0 := by
  unfold frameEos
  rw [host.1]
  rfl

/-- A VIDEO_FRAME whose object is read acts on its session, unless its engine has failed. -/
theorem onFrame_acts {d e : Dev} {h : Nat} {c : Cmd} {data : Bytes} {v : VSession} {act : Bytes → VSession → Dev → Dev}
    (len : c.field 24 4 = 256) (there : d.session c.part (c.field 28 4) = some v) (pass : firstFail (rsvBytes c [(32, 32)]) = none)
    (host : HostObject c 256) (eq : (if (d.engine (c.field 28 4 % 4)).failed then d.complete h stDeviceFault 0 0
      else act (objectOf data 256) v d) = e) : d.onFrame h c data act = e := by
  have fields : firstFail ([(24, stBounds, c.field 24 4 != 0 && c.field 24 4 != 256),
      (28, stInvalid, (d.session c.part (c.field 28 4)).isNone)] ++ rsvBytes c [(32, 32)]) = none := by
    rw [len, there]
    exact pass
  have some_ : ¬ c.field 24 4 = 0 := by omega
  unfold Dev.onFrame
  refine (checked_ok fields).trans ((if_neg some_).trans ?_)
  rw [len]
  refine (withObject_host host).trans ?_
  rw [there]
  exact eq

theorem onFrame_sessionless {d : Dev} {h : Nat} {c : Cmd} {data : Bytes} {act : Bytes → VSession → Dev → Dev} (len : c.field 24 4 = 256)
    (gone : d.session c.part (c.field 28 4) = none) : d.onFrame h c data act = d.failAt h stInvalid 28 := by
  unfold Dev.onFrame
  refine checked_fail (f := (stInvalid, 28)) ?_
  rw [len, gone]
  exact firstFail_cons_true (rsvBytes_from (by decide))

/-- A frame that is no eos, once its object is read. -/
def Dev.submitFrame (d : Dev) (h p id : Nat) (f : Bytes) (v : VSession) : Dev :=
  match firstFail (if voDecode v.obj && fieldOf f 32 4 == 0 then emptyChecks v.obj f else frameChecks (d.part p) v.obj f) with
  | some e => d.failObj h e.1 e.2
  | none => if voDecode v.obj && fieldOf f 32 4 == 0 then d.complete h stOK 0 0 else (d.running h).modSession id (fun v => v.submit h f)

/-- An eos frame, once its object is read. -/
def Dev.submitEos (d : Dev) (h id : Nat) (f : Bytes) (v : VSession) : Dev :=
  match firstFail (frameRsv f) with
  | some e => d.failObj h e.1 e.2
  | none =>
    let ended := (d.running h).modSession id (fun v => { v with ended := v.nextDisplay, eosBy := some h })
    (match v.eosBy with
    | some g => ended.complete g stOK 0 0
    | none => ended).sessionIdle id

/-- VIDEO_FRAME with its object in host memory, by what its session makes of it. -/
theorem videoFrame_acts {s : State} {h : Nat} {c : Cmd} {data : Bytes} {v : VSession} {f : Dev → Dev} (starts : Starts s h 0x61 c)
    (len : c.field 24 4 = 256) (there : s.dev.session c.part (c.field 28 4) = some v) (pass : firstFail (rsvBytes c [(32, 32)]) = none)
    (host : HostObject c 256) (more : bitOf (fieldOf data 0 1) 0 = false)
    (eq : (if (s.dev.engine (c.field 28 4 % 4)).failed then s.dev.complete h stDeviceFault 0 0
      else s.dev.submitFrame h c.part (c.field 28 4) (objectOf data 256) v) = f s.dev) :
    exec (.videoFrame h data) s = .next (s.onDev f) := by
  show execVideoFrame h data s = _
  exact runCmd_acts starts (by rw [frameEos_host host, more]; rfl) (onFrame_acts len there pass host eq)

theorem videoFrameEos_acts {s : State} {h : Nat} {c : Cmd} {data : Bytes} {v : VSession} {f : Dev → Dev} (starts : Starts s h 0x61 c)
    (len : c.field 24 4 = 256) (there : s.dev.session c.part (c.field 28 4) = some v) (pass : firstFail (rsvBytes c [(32, 32)]) = none)
    (host : HostObject c 256) (last : bitOf (fieldOf data 0 1) 0 = true)
    (eq : (if (s.dev.engine (c.field 28 4 % 4)).failed then s.dev.complete h stDeviceFault 0 0
      else s.dev.submitEos h (c.field 28 4) (objectOf data 256) v) = f s.dev) :
    exec (.videoFrameEos h data) s = .next (s.onDev f) := by
  show execVideoFrameEos h data s = _
  exact runCmd_acts starts (by rw [frameEos_host host, last]) (onFrame_acts len there pass host eq)

/-- Without a session both forms of VIDEO_FRAME are INVALID at the field that names it. -/
theorem videoFrames_sessionless {s : State} {h : Nat} {c : Cmd} {data : Bytes} (starts : Starts s h 0x61 c) (len : c.field 24 4 = 256)
    (host : HostObject c 256) (gone : s.dev.session c.part (c.field 28 4) = none) :
    exec (if bitOf (fieldOf data 0 1) 0 then .videoFrameEos h data else .videoFrame h data) s =
      .next (s.onDev (fun d => d.failAt h stInvalid 28)) := by
  cases last : bitOf (fieldOf data 0 1) 0 with
  | true =>
    show execVideoFrameEos h data s = _
    exact runCmd_acts starts (by rw [frameEos_host host, last]) (onFrame_sessionless len gone)
  | false =>
    show execVideoFrame h data s = _
    exact runCmd_acts starts (by rw [frameEos_host host, last]; rfl) (onFrame_sessionless len gone)

/-- On an engine that has failed both forms of VIDEO_FRAME end with DEVICE_FAULT. -/
theorem videoFrames_of_failed {s : State} {h : Nat} {c : Cmd} {data : Bytes} {v : VSession} (starts : Starts s h 0x61 c)
    (len : c.field 24 4 = 256) (there : s.dev.session c.part (c.field 28 4) = some v) (pass : firstFail (rsvBytes c [(32, 32)]) = none)
    (host : HostObject c 256) (failed : (s.dev.engine (c.field 28 4 % 4)).failed = true) :
    exec (if bitOf (fieldOf data 0 1) 0 then .videoFrameEos h data else .videoFrame h data) s =
      .next (s.onDev (fun d => d.complete h stDeviceFault 0 0)) := by
  cases last : bitOf (fieldOf data 0 1) 0 with
  | true => exact videoFrameEos_acts starts len there pass host last (if_pos failed)
  | false => exact videoFrame_acts starts len there pass host last (if_pos failed)

end Sys2Proof.Machine

namespace Sys2Proof.Machine

/-! ## An engine's rows: the guard -/

theorem assign_form (k : Coding) (o : Bytes) : ((k.assign o).obj, (k.assign o).key, (k.assign o).minimal) = (k.obj, k.key, k.minimal) := by
  unfold Coding.assign
  exact foldl_keeps (fun k : Coding => (k.obj, k.key, k.minimal)) _ (fun k w => by dsimp only; split <;> split <;> rfl) _ _

theorem work_form (k : Coding) (o : Bytes) (w n : Nat) :
    ((k.work o w n).obj, (k.work o w n).key, (k.work o w n).minimal) = (k.obj, k.key, k.minimal) := by
  unfold Coding.work
  split
  · rfl
  · split
    · rfl
    · exact assign_form _ o

theorem advance_form (k : Coding) (o : Bytes) (draw n : Nat) :
    ((k.advance o draw n).obj, (k.advance o draw n).key, (k.advance o draw n).minimal) = (k.obj, k.key, k.minimal) := by
  unfold Coding.advance
  rw [foldl_keeps (fun k : Coding => (k.obj, k.key, k.minimal)) _ (fun k i => work_form k o _ _), assign_form]

theorem through_form (k : Coding) (o : Bytes) (i : Nat) :
    ((k.through o i).obj, (k.through o i).key, (k.through o i).minimal) = (k.obj, k.key, k.minimal) := by
  unfold Coding.through
  split <;> rfl

/-- The workers that go on and the quantiser of a row leave a frame's object and kind as they were. -/
theorem atRow_form (d : Dev) (k : Coding) (o : Bytes) :
    ((d.atRow k o).1.obj, (d.atRow k o).1.key, (d.atRow k o).1.minimal) = (k.obj, k.key, k.minimal) := by
  unfold Dev.atRow
  dsimp only
  split <;> exact (through_form _ o _).trans (advance_form k o _ _)

/-- A frame whose workers have gone on, as the guard sees it: it counts as before. -/
structure Coding.Went (k y : Coding) : Prop where
  c : y.c = k.c
  row : y.row = k.row
  rows : y.rows = k.rows
  tries : y.tries = k.tries
  reenc : y.reenc = k.reenc
  minRows : y.minRows = k.minRows
  fmax : y.fmax = k.fmax
  header : y.header = k.header
  obj : y.obj = k.obj
  key : y.key = k.key
  minimal : y.minimal = k.minimal

theorem atRow_went (d : Dev) (k : Coding) (o : Bytes) : k.Went (d.atRow k o).1 := by
  have counted := atRow_counted d k o
  have form := atRow_form d k o
  simp only [Coding.counted, Prod.mk.injEq] at counted form
  obtain ⟨-, c, row, rows, tries, reenc, minRows, fmax, header⟩ := counted
  obtain ⟨obj, key, minimal⟩ := form
  exact ⟨c, row, rows, tries, reenc, minRows, fmax, header, obj, key, minimal⟩

/-- What the guard makes of the row that has been counted. -/
def Coding.guard (k : Coding) (o : Bytes) (m bits : Nat) : Coding :=
  if k.minimal then k.commitRow (minimalBits o k.key k.row bits) (minimalQuants o k.key k.row)
  else if k.tries = 3 then
    { k.commitRow (minimalBits o k.key k.row bits) (minimalQuants o k.key k.row) with minRows := k.minRows + 1 }
  else if k.c + bits + m * (k.rows - k.row - 1) + k.header ≤ k.fmax then
    k.commitRow bits (rowQuants o k.frame.obj k.row (k.rowQ + coarsening o k.tries))
  else { k.discard o (k.started o k.row) with tries := k.tries + 1, reenc := k.reenc + (k.started o k.row).length }

/-- GUARD_ROW_COUNTED of a frame with guard rows left. -/
theorem guardRowCounted_guards {s : State} {j bits : Nat} {k : Coding} {v : VSession} (up : s.plat.up = true) (unit : j < 4)
    (codes : (s.dev.engine j).coding = some k) (there : Tab.find (s.dev.engine j).sessions k.session = some v) (left : k.row < k.rows) :
    exec (.guardRowCounted j bits) s = .next (s.onDev (fun d => (d.atRow k k.obj).2.modEngine j (fun e => { e with
      coding := some ((d.atRow k k.obj).1.guard k.obj (minimalRow k.obj k.key) bits) }))) := by
  show execGuardRowCounted j bits s = _
  unfold execGuardRowCounted
  refine onUnit_acts up (decide_eq_true unit) ?_
  dsimp only
  rw [codes]
  dsimp only
  rw [if_neg (by rw [Tab.has_of_find there]; decide), if_neg (Nat.not_le.mpr left)]
  unfold Coding.guard
  split
  · rfl
  · split
    · rfl
    · split <;> rfl

/-- GUARD_ROW_COUNTED of a frame whose guard rows are all committed. -/
theorem guardRowCounted_last {s : State} {j : Nat} {k : Coding} {v : VSession} (bits : Nat) (up : s.plat.up = true) (unit : j < 4)
    (codes : (s.dev.engine j).coding = some k) (there : Tab.find (s.dev.engine j).sessions k.session = some v) (last : k.rows ≤ k.row) :
    exec (.guardRowCounted j bits) s = .next s := by
  show execGuardRowCounted j bits s = _
  unfold execGuardRowCounted
  refine onUnit_acts (e := s.dev) up (decide_eq_true unit) ?_
  dsimp only
  rw [codes]
  dsimp only
  rw [if_neg (by rw [Tab.has_of_find there]; decide), if_pos last]

/-- GUARD_ROW_COUNTED, by what the guard makes of any frame that counts as this one. -/
theorem guardRowCounted_codes {s : State} {j bits : Nat} {k : Coding} {v : VSession} {P : Coding → Prop} (up : s.plat.up = true) (unit : j < 4)
    (codes : (s.dev.engine j).coding = some k) (there : Tab.find (s.dev.engine j).sessions k.session = some v) (left : k.row < k.rows)
    (guards : ∀ y, k.Went y → P (y.guard k.obj (minimalRow k.obj k.key) bits)) :
    ∃ (t : State) (y : Coding), exec (.guardRowCounted j bits) s = .next t ∧ (t.dev.engine j).coding = some y ∧ P y :=
  ⟨_, _, guardRowCounted_guards up unit codes there left, by simp only [State.onDev, engine_modEngine], guards _ (atRow_went s.dev k k.obj)⟩

theorem guard_minimal {k : Coding} {o : Bytes} {m bits : Nat} (minimal : k.minimal = true) :
    k.guard o m bits = k.commitRow (minimalBits o k.key k.row bits) (minimalQuants o k.key k.row) := if_pos minimal

theorem guard_third {k : Coding} {o : Bytes} {m bits : Nat} (coded : k.minimal = false) (third : k.tries = 3) :
    k.guard o m bits = { k.commitRow (minimalBits o k.key k.row bits) (minimalQuants o k.key k.row) with minRows := k.minRows + 1 } :=
  (if_neg (ne_true_of_eq_false coded)).trans (if_pos third)

theorem guard_fits {k : Coding} {o : Bytes} {m bits : Nat} (coded : k.minimal = false) (early : k.tries ≠ 3)
    (fits : k.c + bits + m * (k.rows - k.row - 1) + k.header ≤ k.fmax) :
    k.guard o m bits = k.commitRow bits (rowQuants o k.frame.obj k.row (k.rowQ + coarsening o k.tries)) :=
  (if_neg (ne_true_of_eq_false coded)).trans ((if_neg early).trans (if_pos fits))

theorem guard_discards {k : Coding} {o : Bytes} {m bits : Nat} (coded : k.minimal = false) (early : k.tries ≠ 3)
    (bust : k.fmax < k.c + bits + m * (k.rows - k.row - 1) + k.header) :
    k.guard o m bits = { k.discard o (k.started o k.row) with tries := k.tries + 1, reenc := k.reenc + (k.started o k.row).length } :=
  (if_neg (ne_true_of_eq_false coded)).trans ((if_neg early).trans (if_neg (Nat.not_le.mpr bust)))

/-- A guard row of the picture is among the rows that are discarded with it. -/
theorem started_self {k : Coding} {o : Bytes} {i : Nat} (row : i < (guardList o).length) : 0 < (k.started o i).length := by
  refine List.length_pos_of_mem (a := (i, (guardList o)[i])) (List.mem_filter.mpr ⟨List.mem_map.mpr ⟨((guardList o)[i], i), ?_, rfl⟩, ?_⟩)
  · exact List.mem_zipIdx_iff_getElem?.mpr (List.getElem?_eq_getElem row)
  · simp [List.getElem?_eq_getElem row]

/-! ## An engine's rows: start, end and failure of a frame -/

theorem videoFrameStart_idle {s : State} {j : Nat} {e : Engine} (up : s.plat.up = true) (unit : j < 4) (at_ : e = s.dev.engine j)
    (idle : e.failed = true ∨ e.coding.isSome = true ∨ s.plat.lowPower = true ∨
      e.nextTurn (fun p => (s.dev.part p).units j) ((s.dev.mayStart j).map (fun x => x.2.1.part)) = none) :
    exec (.videoFrameStart j) s = .next s := by
  subst at_
  show execVideoFrameStart j s = _
  unfold execVideoFrameStart
  refine onUnit_acts (e := s.dev) up (decide_eq_true unit) ?_
  dsimp only
  by_cases busy : ((s.dev.engine j).failed || (s.dev.engine j).coding.isSome || s.plat.lowPower) = true
  · rw [if_pos busy]
  · have none_ : (s.dev.engine j).nextTurn (fun p => (s.dev.part p).units j) ((s.dev.mayStart j).map (fun x => x.2.1.part)) = none := by
      simp only [Bool.or_eq_true, not_or] at busy
      obtain ⟨⟨works, free⟩, powered⟩ := busy
      rcases idle with h | h | h | h
      · exact absurd h works
      · exact absurd h free
      · exact absurd h powered
      · exact h
    rw [if_neg busy, none_]

theorem videoFrameStart_starts {s : State} {j p left id : Nat} {e : Engine} {v : VSession} {f : VFrame} {t : Dev} (up : s.plat.up = true)
    (unit : j < 4) (at_ : e = s.dev.engine j) (works : e.failed = false) (free : e.coding = none) (powered : s.plat.lowPower = false)
    (turn : e.nextTurn (fun p => (s.dev.part p).units j) ((s.dev.mayStart j).map (fun x => x.2.1.part)) = some (p, left))
    (mine : List (Nat × VSession × VFrame)) (of : mine = (s.dev.mayStart j).filter (fun x => x.2.1.part == p))
    (drawn : mine[s.dev.draw.1 % mine.length]? = some (id, v, f))
    (ht : t = (s.dev.draw.2.startFrame j id v f).modEngine j (fun e => { e with turn := v.part, turnLeft := left }))
    (ready : (s.dev.draw.2.engineWay j v.part (startExtents v.obj f.obj) false).1 = 0) (affords : s.dev.draw.2.affords t = true) :
    exec (.videoFrameStart j) s = .next { s with dev := t } := by
  subst at_ of ht
  have begins := (ifAffords_yes affords : _ = _)
  show execVideoFrameStart j s = _
  unfold execVideoFrameStart
  refine onUnit_acts up (decide_eq_true unit) ?_
  dsimp only
  rw [works, free, powered, if_neg (by decide), turn]
  dsimp only
  rw [drawn]
  dsimp only
  unfold Dev.beginFrame
  dsimp only
  rw [ready]
  exact begins

theorem videoFrameComplete_ends {s : State} {j : Nat} {e : Engine} (r : FrameResult) (up : s.plat.up = true) (unit : j < 4)
    (at_ : e = s.dev.engine j) (ends : e.ends ≠ []) : exec (.videoFrameComplete j r) s = .next (s.onDev (fun d => d.endsGo j e.ends)) := by
  subst at_
  show execVideoFrameComplete j r s = _
  unfold execVideoFrameComplete
  refine onUnit_acts up (decide_eq_true unit) ?_
  dsimp only
  rw [if_pos (by simpa using ends)]

theorem engineRows_idle {s : State} {j : Nat} (bits : Nat) (r : FrameResult) (up : s.plat.up = true) (unit : j < 4)
    (free : (s.dev.engine j).coding = none) (ends : (s.dev.engine j).ends = []) :
    exec (.guardRowCounted j bits) s = .next s ∧ exec (.videoFrameComplete j r) s = .next s := by
  constructor
  · show execGuardRowCounted j bits s = _
    unfold execGuardRowCounted
    refine onUnit_acts (e := s.dev) up (decide_eq_true unit) ?_
    rw [free]
  · show execVideoFrameComplete j r s = _
    unfold execVideoFrameComplete
    refine onUnit_acts (e := s.dev) up (decide_eq_true unit) ?_
    rw [ends, free]
    rfl

/-- VIDEO_FRAME_COMPLETE while an engine codes a frame, and no frame that has ended waits for its record. -/
theorem videoFrameComplete_codes {s : State} {j : Nat} {e : Engine} {r : FrameResult} {k : Coding} {v : VSession} (up : s.plat.up = true)
    (unit : j < 4) (at_ : e = s.dev.engine j) (codes : e.coding = some k) (there : Tab.find e.sessions k.session = some v) (ends : e.ends = []) :
    exec (.videoFrameComplete j r) s = .next { s with dev := if k.row < k.rows then s.dev else s.dev.closeFrame j k v r } := by
  subst at_
  show execVideoFrameComplete j r s = _
  unfold execVideoFrameComplete
  refine onUnit_acts up (decide_eq_true unit) ?_
  rw [ends, codes]
  dsimp only
  rw [there]
  rfl

theorem closeFrame_lost {d : Dev} {j : Nat} {k : Coding} {v : VSession} {r : FrameResult} (lost : r.poisoned = true ∨ k.lost = true) :
    d.closeFrame j k v r = d.dropCoding j stDeviceFault :=
  if_pos (Bool.or_eq_true_iff.mpr lost)

theorem closeFrame_unsupported {d : Dev} {j : Nat} {k : Coding} {v : VSession} {r : FrameResult} (good : r.poisoned = false) (kept : k.lost = false)
    (out : r.unsupported = true) (dec : voDecode v.obj = true) : d.closeFrame j k v r = d.dropCoding j stUnsupported := by
  unfold Dev.closeFrame
  rw [good, kept, out, dec]
  rfl

theorem closeFrame_finishes {d : Dev} {j : Nat} {k : Coding} {v : VSession} {r : FrameResult} (good : r.poisoned = false) (kept : k.lost = false)
    (supported : r.unsupported = false ∨ voDecode v.obj = false)
    (ready : (d.engineWay j v.part (endExtents k.obj k.frame.obj (k.bytes v)) true).1 = 0) (way : d.doneWay k.frame.obj = 0)
    (affords : d.affords (d.finishFrame j k v (r.concealed && voDecode v.obj)) = true) :
    d.closeFrame j k v r = d.finishFrame j k v (r.concealed && voDecode v.obj) := by
  have within : ¬ (r.unsupported && voDecode v.obj) = true := by
    rw [Bool.and_eq_true]
    rintro ⟨out, dec⟩
    rcases supported with h | h
    · exact Bool.false_ne_true (h.symm.trans out)
    · exact Bool.false_ne_true (h.symm.trans dec)
  unfold Dev.closeFrame
  rw [good, kept, if_neg (by decide), if_neg within]
  dsimp only
  rw [ready, way]
  exact ifAffords_yes affords

theorem agateEngineFailure_again {s : State} {j : Nat} (unit : j < 4) (failed : (s.dev.engine j).failed = true) :
    exec (.agateEngineFailure j) s = .next s := by
  show execAgateEngineFailure j s = _
  unfold execAgateEngineFailure
  rw [decide_eq_true unit, onUnit_true, failed, Bool.not_true, Bool.and_false, if_neg Bool.false_ne_true]

theorem agateEngineFailure_fails {s : State} {j : Nat} (up : s.plat.up = true) (unit : j < 4) (works : (s.dev.engine j).failed = false) :
    exec (.agateEngineFailure j) s =
      .next { s with dev := s.dev.failEngine j, plat := { s.plat with mgmt := s.plat.mgmt ++ [⟨3, j⟩] } } := by
  show execAgateEngineFailure j s = _
  unfold execAgateEngineFailure
  rw [decide_eq_true unit, onUnit_true, works, up, Bool.not_false, Bool.and_true, if_pos rfl]

/-! ## The obligation -/

/-- Settles O8, by what each form makes of its object and by what the guard makes of a frame whose workers have gone on. -/
theorem videoSessionsAndFrames : Obligations.VideoSessionsAndFrames := by
  unfold Obligations.VideoSessionsAndFrames
  refine ⟨?_, ⟨?_, ?_⟩, ?_⟩
  · rintro s h p j n c data o v rfl rfl rfl rfl starts
    refine ⟨fun bad => videoSession_refused data starts bad, ?_, ?_, ?_⟩
    · intro form len unit held rsv pass host e id mine he hid hmine
      subst he hid hmine
      have acts := fun {f} => videoSessionOpen_acts (data := data) (f := f) starts form len unit held rsv pass host
      refine ⟨fun f bad => acts ?_, fun ok failed => acts ?_, fun ok works full => acts ?_, fun ok works share room => acts ?_⟩
      · unfold Dev.openSession
        rw [bad]
      · unfold Dev.openSession
        rw [ok]
        exact if_pos failed
      · unfold Dev.openSession
        rw [ok]
        refine (if_neg (ne_true_of_eq_false works)).trans (if_pos (Bool.or_eq_true_iff.mpr (full.imp id decide_eq_true)))
      · unfold Dev.openSession
        rw [ok]
        refine (if_neg (ne_true_of_eq_false works)).trans (if_neg ?_)
        rw [share, Bool.false_or, decide_eq_true_eq]
        exact Nat.not_lt.mpr room
    · intro form len unit held rsv there pass host cs hcs
      subst hcs
      have acts := fun {f} => videoSessionReconfig_acts (data := data) (f := f) starts form len unit held rsv there pass host
      refine ⟨fun f bad => acts ?_, fun ok => acts ?_⟩
      · unfold Dev.reconfigSession
        rw [bad]
      · unfold Dev.reconfigSession
        rw [ok]
    · intro form len unit held rsv there pass
      exact videoSessionClose_acts starts form len unit held rsv there pass
  · rintro s h p id c data o v rfl rfl rfl starts len there pass host works
    refine ⟨fun more => ?_, fun last => ?_⟩
    · rintro empty cs rfl rfl
      have acts := fun {f} eq => videoFrame_acts (f := f) starts len there pass host more ((if_neg (ne_true_of_eq_false works)).trans eq)
      refine ⟨fun f bad => acts ?_, fun ok none_ => acts ?_, fun ok full => acts ?_⟩
      · unfold Dev.submitFrame
        rw [bad]
      · unfold Dev.submitFrame
        rw [ok]
        exact if_pos none_
      · unfold Dev.submitFrame
        rw [ok]
        exact if_neg (ne_true_of_eq_false full)
    · have acts := fun {f} eq => videoFrameEos_acts (f := f) starts len there pass host last ((if_neg (ne_true_of_eq_false works)).trans eq)
      refine ⟨fun f bad => acts ?_, fun ok first => acts ?_⟩
      · unfold Dev.submitEos
        rw [bad]
      · unfold Dev.submitEos
        rw [ok, first]
  · rintro s h id c data i rfl starts len host rfl
    refine ⟨fun gone => videoFrames_sessionless starts len host gone, fun there pass failed => ?_⟩
    obtain ⟨v, there⟩ := Option.isSome_iff_exists.mp there
    exact videoFrames_of_failed starts len there pass host failed
  · intro s j bits e r up unit at_
    refine ⟨fun idle => videoFrameStart_idle up unit at_ idle, ?_, fun ends => videoFrameComplete_ends r up unit at_ ends, ?_, ?_, ?_, ?_⟩
    · intro p left id v f works free powered turn mine of drawn t ht ready affords
      exact videoFrameStart_starts up unit at_ works free powered turn mine of drawn ht ready affords
    · subst at_
      exact fun free ends => engineRows_idle bits r up unit free ends
    · rintro k v m codes there rfl
      have completes := fun ends => videoFrameComplete_codes (r := r) up unit at_ codes there ends
      have closes : ∀ (last : k.rows ≤ k.row) (ends : e.ends = []),
          exec (.videoFrameComplete j r) s = .next { s with dev := s.dev.closeFrame j k v r } :=
        fun last ends => (completes ends).trans (next_dev (if_neg (Nat.not_lt.mpr last)))
      subst at_
      have guards := fun {P} => guardRowCounted_codes (bits := bits) (P := P) up unit codes there
      refine ⟨fun last => ?_, fun left minimal => guards left fun y went => ?_, fun left coded third => guards left fun y went => ?_,
        fun left coded early fits => guards left fun y went => ?_, fun left row coded early bust => guards left fun y went => ?_,
        fun left ends => (completes ends).trans (next_dev (if_pos left)), fun last ends good kept supported ready way t ht affords => ?_,
        fun last ends good kept out dec => (closes last ends).trans (next_dev (closeFrame_unsupported good kept out dec)),
        fun last ends lost => (closes last ends).trans (next_dev (closeFrame_lost lost))⟩
      · exact guardRowCounted_last bits up unit codes there last
      · rw [guard_minimal (went.minimal.trans minimal)]
        simp [Coding.commitRow, went.c, went.row, went.key, went.minRows, went.reenc]
      · rw [guard_third (went.minimal.trans coded) (went.tries.trans third)]
        simp [Coding.commitRow, went.c, went.row, went.key, went.minRows, went.reenc]
      · rw [guard_fits (went.minimal.trans coded) (went.tries ▸ early) (by rwa [went.c, went.rows, went.row, went.header, went.fmax])]
        simp [Coding.commitRow, went.c, went.row, went.minRows, went.reenc]
      · rw [guard_discards (went.minimal.trans coded) (went.tries ▸ early) (by rwa [went.c, went.rows, went.row, went.header, went.fmax])]
        have counted := discard_counted y k.obj (y.started k.obj y.row)
        simp only [Coding.counted, Prod.mk.injEq] at counted
        obtain ⟨-, c, row', -, -, -, minRows, -, -⟩ := counted
        refine ⟨c.trans went.c, row'.trans went.row, congrArg (· + 1) went.tries, minRows.trans went.minRows, ?_⟩
        exact Nat.add_le_add (Nat.le_of_eq went.reenc.symm) (started_self (by rw [went.row]; exact row))
      · subst ht
        exact (closes last ends).trans (next_dev (closeFrame_finishes good kept supported ready way affords))
    · subst at_
      exact fun failed => agateEngineFailure_again unit failed
    · subst at_
      exact fun works => agateEngineFailure_fails up unit works

end Sys2Proof.Machine
